-- ==== Sys2Proof/Word.lean ====
section
/-!
DEFINITION. The word types of the spec (00 R9, R10) and the three-dies and two-halves containers.
-/

namespace Sys2Proof

/-- 8 bits. -/
abbrev Byte := BitVec 8
/-- 16 bits: codewords, marks, adjacency words (02). -/
abbrev Half := BitVec 16
/-- 32 bits: every data word of a channel die (01 R20). -/
abbrev Word := BitVec 32

/-- The three channel dies (01 R18, Table 1.3). -/
inductive Die where
  | a | b | c
  deriving DecidableEq, Repr

/-- The halves of the voter and of the gondola (01 R57). -/
inductive Side where
  | h | l
  deriving DecidableEq, Repr

/-- One value for each channel die. -/
structure Tri (α : Type) where
  a : α
  b : α
  c : α
  deriving DecidableEq, Repr

/-- One value for each half. -/
structure Duo (α : Type) where
  h : α
  l : α
  deriving DecidableEq, Repr

end Sys2Proof
end

