-- ==== Sys2Proof/Machine/Types.lean ====
section
/-!
DEFINITION. The parts of a channel die as plain data: cell records (02 Table 2.2), route entries (03 Table 3.6), tokens
(03 Table 3.8), the image of SAMPLE (05 Table 5.3), region pairs and supervisor data (05, 06 R524), and the operands of
the commands that carry more than numbers.
-/

namespace Sys2Proof.Machine

/-! ## Element cells (02) -/

/-- One cell timer, words W7 to W10 (02 Table 2.2). -/
structure Timer where
  /-- TSTATE: 0 STOPPED, 1 RUNNING, 2 EXPIRED, 3 read as RUNNING. -/
  tstate : BitVec 2
  /-- FRESH: started since the last timer step (02 R83). -/
  fresh : Bool
  /-- TREM, ms. -/
  trem : BitVec 24
  deriving DecidableEq, Repr

/-- A cell record (02 Table 2.2). CELL_ID is the record's position. W15 is held as its difference from the CRC of R71
(zero: the record's CHECK matches), so that every write recomputes it by clearing the difference (02 R72). -/
structure CellRec where
  cls : BitVec 8
  profile : BitVec 3
  occ : BitVec 16
  pos : BitVec 16
  lock : BitVec 16
  aspect : BitVec 16
  cmd : BitVec 16
  fault : BitVec 16
  owned : Bool
  foreign : Bool
  ownerModule : BitVec 6
  ownerRoute : BitVec 13
  mark0 : BitVec 16
  mark1 : BitVec 16
  mark2 : BitVec 16
  mark3 : BitVec 16
  t0 : Timer
  t1 : Timer
  t2 : Timer
  t3 : Timer
  port0 : BitVec 16
  port1 : BitVec 16
  port2 : BitVec 16
  port3 : BitVec 16
  bind : BitVec 32
  app : BitVec 16
  ext : BitVec 16
  checkErr : BitVec 32
  /-- Not a field of the record: the cell met the conditions of R94 in the previous cycle. -/
  cleanOnce : Bool
  deriving DecidableEq, Repr

/-- The five coded fields (02 R74). -/
inductive Coded where
  | occ | pos | lock | aspect | cmd
  deriving DecidableEq, Repr

/-- The cell classes of 02 Table 2.1. -/
inductive Cls where
  | unused | trackSection | point | diamond | switchedDiamond | mainSignal | shuntSignal | buffer | levelCrossing
  | powerSection | boundary | zone | keyLock | lineBlock | virtual
  deriving DecidableEq, Repr

/-! ## Profiles, routes and tokens (03, 04) -/

/-- A profile record (04 Table 4.7) as its eight words. -/
structure Profile where
  p0 : Word
  p1 : Word
  p2 : Word
  p3 : Word
  p4 : Word
  p5 : Word
  p6 : Word
  p7 : Word
  deriving DecidableEq, Repr

/-- A route table entry (03 Table 3.6); reserved bits read 0. -/
structure RouteEntry where
  state : BitVec 8
  alt : BitVec 2
  altValid : Bool
  origin : BitVec 2
  routeId : BitVec 13
  key : BitVec 32
  progress : BitVec 6
  retry : BitVec 5
  reason : BitVec 8
  wasProven : Bool
  replaced : Bool
  ovlTimer : Bool
  refreshed : Bool
  flankOpen : BitVec 15
  wait : BitVec 3
  deriving DecidableEq, Repr

/-- A token (03 Table 3.8); the reserved bit is 0. -/
structure Token where
  typ : BitVec 4
  route : BitVec 13
  dest : BitVec 12
  dport : BitVec 2
  kind : BitVec 2
  hop : BitVec 6
  pos : BitVec 2
  alt : BitVec 2
  reason : BitVec 8
  origin : BitVec 12
  deriving DecidableEq, Repr

/-- Where a token in flight rests once it has left its sender's outbox: with the engine of a region that sent it, at the
egress or the ingress of a cluster's port to its region switch (01 R28; clusters numbered over the die), in the spine egress queue
of a region (01 R44), in the spine inbox of a region from a source region (01 R42), or accepted by its destination cell. -/
inductive TokPlace where
  | engine (region : Nat)
  | uplink (cluster : Nat)
  | downlink (cluster : Nat)
  | egress (region : Nat)
  | inbox (region source : Nat)
  | cell (n : Nat)
  deriving DecidableEq, Repr

/-- A token in flight and its place. -/
structure Flight where
  tok : Token
  place : TokPlace
  deriving DecidableEq, Repr

/-- A step record of a cluster's step store (03 R112). For an EXIT cell there is one per overlap alternative. -/
structure StepRec where
  foreign : Bool
  route : BitVec 13
  cell : Nat
  /-- KIND of the entry: 0 PATH, 1 OVERLAP. -/
  kind : BitVec 2
  alt : BitVec 2
  hop : BitVec 6
  pos : BitVec 2
  /-- No automatic flank search: NOFLANK or a SUPPRESS entry. -/
  noflank : Bool
  /-- The entry is EXIT of the path. -/
  exit : Bool
  /-- A side entry (POWER_SECTION): no adjacency is checked. -/
  side : Bool
  /-- The next entry: cell, entering port and POS; none at the end of the walk. -/
  next : Option (Nat × BitVec 2 × BitVec 2)
  /-- The next track entry and its entering port. -/
  nextTrack : Option (Nat × BitVec 2)
  deriving DecidableEq, Repr

/-- What the route directory holds of a live entry (03 R109): its side, route or proxy number, key, ENTRANCE (FIRST of a
proxy) and EXIT. -/
structure DirEntry where
  foreign : Bool
  route : BitVec 13
  key : BitVec 32
  entrance : Nat
  exit : Nat
  deriving DecidableEq, Repr

/-- One reply a route received in the present cycle (03 R129): cell, entry index, KIND, and the REASON byte. -/
structure Ack where
  cell : Nat
  hop : BitVec 6
  kind : BitVec 2
  reason : BitVec 8
  deriving DecidableEq, Repr

/-- The wave of PROPAGATE a die is in (03 Table 3.10). -/
inductive Wave where
  | none | load | release | refresh | sweep | request | commit | evaluate
  deriving DecidableEq, Repr

/-- A command taken for a route, waiting for EVALUATE (03 R134): which one and the request slot it came from. -/
inductive RouteCmd where
  | cancel (slot : Nat)
  | replace (slot : Nat)
  | emergency (slot : Nat)
  deriving DecidableEq, Repr

/-- The work of a route engine for one route entry: what of it is not in Table 3.6. -/
structure RouteWork where
  /-- LOAD has placed all its step records in this cycle (03 R112). -/
  loaded : Bool
  /-- The alternative being probed, and whether it is the selected one (03 R119). -/
  alt : Nat
  selected : Bool
  /-- The first alternative that returned HOLD with OVL_CALL (03 R119). -/
  firstHold : Option Nat
  /-- HOLD received for the walk, with its flags. -/
  hold : Option (BitVec 8)
  /-- The walk stopped at an edge (03 R115, 11 R340). -/
  remote : Bool
  /-- Refusal received in this cycle. -/
  nack : Option (BitVec 8)
  /-- Flank reasons received in the REFRESH wave. -/
  flankBad : Option (BitVec 8)
  /-- FLANK_OPEN has been opened and has reached 0 in this cycle (03 R124). -/
  flankStarted : Bool
  /-- Replies expected and received in this cycle. -/
  expect : Nat
  acks : List Ack
  /-- Reply to the state query: none not received, some OCC. -/
  approach : Option Bool
  /-- The APPROACH cell has read OCC while PROVEN (Table 3.15, CALL_ON). -/
  approachSeen : Bool
  /-- Overlap entries held (bit e of the selected alternative), and those taken over, which a refresh goes on asking (03
  R133). -/
  ovlHeld : BitVec 8
  ovlTaken : BitVec 8
  /-- Cells whose points this route called at COMMIT (Table 3.15, CALL_FAILED). -/
  called : List Nat
  /-- Evaluations in a row at which the last track entry before a BUFFER exit read CLEAR (03 R136). -/
  clearRun : Nat
  /-- The alternative to probe once the CANCEL between attempts has acted (03 R119). -/
  nextProbe : Option Nat
  /-- Path entries that have answered an addressed RELEASE with LOST. -/
  relAcked : List Nat
  /-- Path entries whose sectional or entrance release is decided (03 R136). -/
  relPath : List Nat
  /-- Broadcast RELEASE of KIND OVERLAP decided. -/
  relOverlap : Bool
  /-- The RELEASE wave of this PROPAGATE has released the route (03 R137). -/
  released : Bool
  /-- The descriptor, overlap set or flank list failed its CHECK (03 R522). -/
  descBad : Bool
  /-- The latest load has found the descriptor failing for the first time (03 R522). -/
  descNew : Bool
  /-- The command taken in this cycle. -/
  cmd : Option RouteCmd
  /-- A remote grant: PROBED received for the waiting route (11 R344). -/
  granted : Bool
  /-- An evaluation has found HOLD with REMOTE, so WAIT counts (11 R344). -/
  waiting : Bool
  /-- The proxy of a crossing route has been committed, and no RELEASED entry has been taken (11 R344). -/
  proxyHeld : Bool
  deriving DecidableEq, Repr

/-! ## The image of SAMPLE (05 Table 5.3, 08 R286) -/

/-- What a die holds of the frozen image: readings, input faults, discrepancies, group word, and the output status
words of its outputs (08 Table 8.8) by output number. -/
structure Image where
  read : BitVec 192
  fault : BitVec 192
  disc : BitVec 192
  fell : BitVec 192
  group : BitVec 16
  outStatus : List (Nat × Word)
  deriving DecidableEq, Repr

/-! ## Region pairs (05) -/

/-- Performance counters of one region pair (19 Tables 19.2 to 19.4). -/
structure PmcSt where
  cyc : BitVec 64
  cycHi : Word
  cnt : List (Nat × Word)
  selA : Word
  selB : Word
  stat : Word
  reload : List (Nat × Word)
  ring : List Word
  lost : Word
  deriving DecidableEq, Repr

/-- One force entry (15 Table 15.11), words F0 to F3. -/
structure ForceEntry where
  f0 : Word
  f1 : Word
  f2 : Word
  f3 : Word
  deriving DecidableEq, Repr

/-- One pending two-step entry (17 R475). -/
structure PendEntry where
  cmd : BitVec 8
  target : Word
  taken : Word
  slot : Nat
  ticket : Word
  deriving DecidableEq, Repr

/-- One taken TERR entry (11 Table 11.5) with the territory it came from and the cycle in which it was taken. `forProxy`:
an entry of a requester, kept for a proxy of this module; otherwise of an owner, kept for a crossing route. -/
structure TerrEntry where
  terr : Nat
  forProxy : Bool
  op : BitVec 4
  proven : Bool
  calling : Bool
  failed : Bool
  reason : BitVec 8
  route : BitVec 13
  key : Word
  progress : BitVec 6
  /-- Cycle in which it was taken, and the ms then left to T_max. -/
  taken : Word
  leftMs : Nat
  deriving DecidableEq, Repr

/-- Supervisor data (06 R524). -/
structure SupData where
  shares : BitVec 96
  initDone : Bool
  /-- The supervisor register area (05 R173): written 0 at every COMMIT. -/
  regs : BitVec 480
  snap : BitVec 256
  forces : List ForceEntry
  pendings : List PendEntry
  terrs : List TerrEntry
  appLen : BitVec 32
  deriving DecidableEq, Repr, Inhabited

/-- The result of a request, kept by a region until the bridle writes it (17 R472). -/
structure ReqResult where
  slot : Nat
  result : BitVec 8
  reason : BitVec 8
  info : Word
  deriving DecidableEq, Repr

/-- What a fault of a pair leaves (05 R169): kind (1 PAIR_MISMATCH, 2 CHECKER fault), region, the clock number of the die within the phase,
and the bus lines that differed. -/
structure PairRec where
  kind : BitVec 8
  region : Nat
  clock : BitVec 24
  lines : Word
  deriving DecidableEq, Repr

/-- One region of one die (05). -/
structure RegionSt where
  mem : List Host.Cell
  sup : SupData
  /-- g1 to g15 of the main set and of the REVERT set, in the die's encoding (05 R172); an unlisted one holds the encoding of 0. -/
  g : List (Nat × Word)
  rg : List (Nat × Word)
  pc : BitVec 17
  rpc : BitVec 17
  task : BitVec 4
  /-- A REVERT run lasts, and the phase of the die when it started (05 Table 5.5). -/
  revert : Bool
  revertPhase : BitVec 4
  /-- The code bank of the REVERT run: no run takes code from two banks (05 R198). -/
  revertBank : Bool
  trap : Word
  trapPc : Word
  charge : Nat
  rcharge : Nat
  evtCur : Word
  revCur : Word
  halted : Bool
  haltCycle : Bool
  forceNext : Bool
  overIn : Bool
  overOut : Bool
  revOver : Bool
  errLeft : List Nat
  /-- Live pending input sources (05 R184). -/
  pend : BitVec 192
  /-- Sources posted in the present cycle number and in the previous one (05 R185). -/
  posted : BitVec 256
  postedPrev : BitVec 256
  revDiscards : Nat
  dacc : BitVec 64
  daccN : Word
  /-- Region map: physical cluster of each logical cluster where it differs from it, and the spare (01 R32). -/
  map : List (Nat × Nat)
  spare : Nat
  eccCorrected : Nat
  eccAddr : Word
  /-- The pair fault log of the region registers. -/
  pairFault : Option PairRec
  pmc : PmcSt
  results : List ReqResult
  /-- Blocks of region memory written since they were last transferred (12 R366). -/
  dirty : List (Nat × Bool)
  /-- Words of the COMMIT block sent in this cycle, in the die's encoding without CHECK; empty where none has been sent. -/
  sent : List Word
  deriving DecidableEq, Repr

/-! ## Spools (10) -/

/-- The open packet of a packet spool (10 R316): the tail slot's length reads OPEN; its buffer index and the bytes written. -/
structure OpenPkt where
  buf : Nat
  bytes : Nat
  deriving DecidableEq, Repr

/-- A spool (10 R313 to R324): the items held, oldest first, how many of them have been read, and its status bits. The
items of a packet spool are closed packets; `openPkt` is the tail slot while it is open. -/
structure Spool (α : Type) where
  items : List α
  readPos : Nat
  mark : Option Nat
  openPkt : Option OpenPkt
  wmLatch : Bool
  overflow : Bool
  underrun : Bool
  peak : Nat
  /-- The item most recently read (10 R317). -/
  last : α
  /-- Writes of a back-pressure producer that wait for a stage, in its order: the producer stands at the first of them (10
  R318). -/
  stalled : List α
  /-- This spool's share of its host's fault counters: what R316, R317, R319 and R322 count. -/
  faults : Nat
  deriving DecidableEq, Repr

/-- An item of the input event spool (07 Table 7.8): its 32-bit word. -/
abbrev EventItem := Word

/-! ## Check units (09) -/

/-- Registers of a check unit (09 Table 9.12). `set_`: 0 CRC-32C, 1 CRC-32K, 2 CRC-64; `expectHi`: EXPECT_HI while it is latched;
`fresh`: not used since reset. -/
structure CheckUnit where
  foldLen : BitVec 4
  set_ : BitVec 2
  err : Bool
  mismatch : Bool
  matched : Bool
  foldA : Word
  foldB : Word
  run : BitVec 64
  count : Word
  expectHi : Option Word
  fresh : Bool
  deriving DecidableEq, Repr

/-! ## Self-test slices (14) -/

/-- A slice that runs on a die (14 R422): region, step 0 to 143, and whether it repeats a failed one. -/
structure SliceRun where
  region : Nat
  step : Nat
  again : Bool
  deriving DecidableEq, Repr

/-- One item of a die's step-5 work (02 R93, 03 R113, 11 R340): a request by the slot it stands in, or a TERR entry. -/
inductive Todo where
  | request (slot : Nat)
  | terr (e : TerrEntry)
  deriving DecidableEq, Repr

/-- A reply of an owner that is sent once (11 Table 11.6: NACK, RELEASED), or a requester's CANCEL. -/
structure TerrOut where
  /-- The region whose supervisor sends it: of the route table entry, or of the proxy it names. -/
  region : Nat
  terr : Nat
  op : BitVec 4
  reason : BitVec 8
  route : BitVec 13
  key : Word
  deriving DecidableEq, Repr

/-! ## What a die holds of other modules (02 R101, 11 R335, R349) -/

/-- What a CELLS entry gives of the owner's cell (11 R335): the coded fields and the owner fields. -/
structure Mirror where
  occ : BitVec 16
  pos : BitVec 16
  lock : BitVec 16
  aspect : BitVec 16
  owner : Word
  deriving DecidableEq, Repr

/-- The newest CELLS entry of a BOUNDARY cell, with the cycle it was taken in and the ms then left to T_max. -/
structure MirrorRec where
  mirror : Mirror
  taken : Word
  leftMs : Nat
  deriving DecidableEq, Repr

/-- The newest FIELD record of a FIELD-role module (11 Table 11.10). -/
structure FieldRec where
  cut : Byte
  read : BitVec 192
  fault : BitVec 192
  disc : BitVec 192
  status : List (Nat × Word)
  taken : Word
  leftMs : Nat
  deriving DecidableEq, Repr

/-- SHARE of the FIELD records of a logic module taken in one SAMPLE (11 Table 11.10), by its module position. -/
structure ShareRec where
  mod_ : Nat
  share : BitVec 96
  taken : Word
  leftMs : Nat
  deriving DecidableEq, Repr

/-- The outcome of SECDED at an access (01 R37). -/
inductive Ecc where
  | ok
  | corrected
  | uncorrectable
  deriving DecidableEq, Repr

/-- A tail record as its source hands it to the limiter (18 Table 18.2): CODE, UNIT, PLACE, INDEX and DATA. -/
structure LogReq where
  code : BitVec 16
  unit_ : BitVec 4
  place : BitVec 4
  index : BitVec 8
  data : BitVec 64
  deriving DecidableEq, Repr

/-! ## Channel die -/

/-- One channel die (01 to 05). -/
structure DieSt where
  strap : BitVec 2
  phase : BitVec 4
  fastClock : Bool
  runsPhases : Bool
  abandoned : Bool
  wakeLate : Bool
  cycleNo : Word
  /-- DS.CYCLE and DS.MODE, taken at SAMPLE (05 R177). -/
  dsCycle : Word
  dsMode : Word
  image : Image
  cells : List (Nat × CellRec)
  shadow : List (Nat × CellRec)
  /-- Route memory by word: bank × 327,680 + offset / 4 (01 R48, 03 Table 3.1). -/
  routeMem : List (Nat × Word)
  /-- Proxy store by word: bank × 16,384 + 32 × proxy + word (11 R337). -/
  proxyMem : List (Nat × Word)
  /-- Profile table: bank × 8 + profile (04 R157). -/
  profiles : List (Nat × Profile)
  active : Bool
  routes : List (Nat × RouteEntry)
  work : List (Nat × RouteWork)
  wave : Wave
  /-- EVALUATE has ended in this PROPAGATE. -/
  propDone : Bool
  waveCut : Bool
  refreshCut : Bool
  /-- Token outboxes by physical cell (01 R30, 10 Table 10.2), and the tokens that have left them. -/
  outboxes : List (Nat × Spool Token)
  flights : List Flight
  /-- Credits of the ordered pair (source × 16 + destination), 8 where not listed (01 R42). -/
  credits : List (Nat × Nat)
  /-- Round-robin pointers of the crossbars by physical cluster (region × 17 + cluster), of the region switches and of the spine
  (01 R28, R33, R41). -/
  xbarPtr : List (Nat × Nat)
  switchPtr : List (Nat × Nat)
  spinePtr : Nat
  /-- The route directory by entry index (03 R109); every region holds the same. -/
  directory : List (Nat × DirEntry)
  steps : List StepRec
  zoneOut : List (Nat × Bool)
  undefTokens : Nat
  dieFaults : Nat
  faultLog : List PairRec
  accepted : Nat
  rank : Nat
  terrOut : List TerrOut
  todo : List Todo
  /-- Territories that have returned and are reconciled in this RULES_IN (11 R353). -/
  reconcile : List Nat
  evSpool : Spool EventItem
  /-- The check units of the COMMIT lanes and of the state digests (09 Table 9.11). -/
  units : List (Nat × CheckUnit)
  evDiscards : Nat
  /-- Cycles for which each group has been shown restored (04 R160). -/
  restoredRun : List (Nat × Nat)
  /-- Newest CELLS entries by BOUNDARY cell, and newest FIELD records by module position. -/
  mirrors : List (Nat × MirrorRec)
  fields : List (Nat × FieldRec)
  /-- SHARE values taken by a FIELD-role module, newest last (11 R350). -/
  shareRecs : List ShareRec
  /-- Blocks of cell records written since they were last transferred, by cluster of the die (12 R366). -/
  dirtyCells : List (Nat × Bool)
  slicePtr : Nat
  sliceStep : List (Nat × Nat)
  sliceRun : Option SliceRun
  /-- Regions with a slice that failed: 1 once, 2 for the second time (14 R425). -/
  sliceFail : List (Nat × Nat)
  slicePassed : Nat
  migrateDue : List Nat
  migrateCopied : List Nat
  /-- PMC.DIE FREEZE (19 R500): set and cleared within COMMIT, so 0 between two commands. -/
  pmcFreeze : Bool
  /-- Tail records raised in the die, to be taken by the bridle. -/
  logOut : List LogReq
  regions : Vector RegionSt 16
  deriving DecidableEq, Repr

end Sys2Proof.Machine
end

