-- ==== Sys2Proof/Config.lean ====
section
/-!
DEFINITION. What the spec names and does not give: the functions of GB/T 32918 (SM2) and the device key (14 R421), the layout of supervisor data (06 R524), the DATA of tail records that Table 18.3 leaves open, the fault counters' page (17 Table
17.10), the PC of a sample without a task (19 R498) and the clocks that pass (19 R494). Every one is a constant without a body: no proof can see what it is.
-/

namespace Sys2Proof.Config

/-- SM2 verification (GB/T 32918.2): public key, distinguishing ID, message digest, signature. Log entry 10. -/
opaque sm2Verify : BitVec 512 → BitVec 128 → BitVec 256 → BitVec 512 → Bool
/-- The SM2 device private key (14 R420, R421). Log entry 10. -/
opaque deviceKey : BitVec 256
/-- SM3 over the bytes of a part that Gomosol delivers: 0 DIE, 1 BRIDLE, 2 GONDOLA (00 R3). Log entry 53. -/
opaque shippedPart : Nat → BitVec 256
/-- Byte of the supervisor data area (offset from 0x6E000) that holds the items of 06 R524 other than the register area. Log entry 11. -/
opaque supervisorByte : Machine.SupData → Nat → Byte
/-- Offset of the supervisor register area (05 R173) within supervisor data. Log entry 11. -/
opaque supervisorRegs : Nat
/-- Supervisor data that the bytes of the area spell, as a transfer delivers them. Log entry 11. -/
opaque supervisorOf : List Byte → Machine.SupData
/-- DATA of a tail record whose layout Table 18.3 does not give, from its code and what the source knows. Log entry 12. -/
opaque recordData : BitVec 16 → BitVec 64 → BitVec 64
/-- Word of the bridle fault counters' page, which 17 Table 17.10 names without a layout, from the counters held. Log entry
13. -/
opaque faultCounterWord : List (Nat × Nat) → Nat → Word

/-- A module position serves an input (false) or an output (true) for this module (11 R347). Log entry 42. -/
opaque serves : Nat → Bool → Nat → Bool
/-- PC field of a counter sample taken while no task runs (19 R498), from CYC_LO. Log entry 14. -/
opaque samplePc : Word → BitVec 17
/-- Clocks that a counter of clocks has counted since its count was last read (19 R494, Table 19.1), from the die's strap, the
region, the selector (0 for CYC), the cycle and the count then held. Log entry 32. -/
opaque clocksCounted : BitVec 2 → Nat → Nat → Word → BitVec 64 → Word

end Sys2Proof.Config
end

