-- ==== Sys2Proof/Machine/Assoc.lean ====
section
/-!
DEFINITION. Sparse stores: ascending lists of key and value in one canonical form (no entry equal to what an unlisted
key reads as), with the containers for the three dies and the two halves, and little byte and bit helpers (00 R9, R10).
-/

namespace Sys2Proof.Machine

/-- A sparse store: keys strictly rising, no value equal to the default. -/
abbrev Assoc (V : Type) := List (Nat × V)

/-- The value at key `n`; `d` where the key is not listed. -/
def getA {V : Type} (d : V) : Assoc V → Nat → V
  | [], _ => d
  | (k, v) :: t, n => if k = n then v else getA d t n

/-- Store `v` at key `n`, keeping the canonical form: the default is not listed. -/
def putA {V : Type} [DecidableEq V] (d : V) (n : Nat) (v : V) (m : Assoc V) : Assoc V :=
  m.filter (fun p => decide (p.1 < n)) ++ (if v = d then [] else [(n, v)]) ++ m.filter (fun p => decide (n < p.1))

/-- Change the value at key `n` by `f`. -/
def modA {V : Type} [DecidableEq V] (d : V) (n : Nat) (f : V → V) (m : Assoc V) : Assoc V :=
  putA d n (f (getA d m n)) m

/-- Change the value of every listed key by `f`; a key whose value becomes the default is no longer listed. -/
def mapA {V : Type} [DecidableEq V] (d : V) (f : Nat → V → V) : Assoc V → Assoc V
  | [] => []
  | (k, v) :: t => if f k v = d then (mapA d f t).filter (fun p => decide (p.1 ≠ k)) else (k, f k v) :: mapA d f t

/-- Every key of `m` lies above `lo`, and they rise strictly, and no value is the default. -/
def canonAbove {V : Type} [DecidableEq V] (d : V) : Nat → Assoc V → Bool
  | _, [] => true
  | lo, (k, v) :: t => decide (lo < k) && !decide (v = d) && canonAbove d k t

/-- The canonical form of a sparse store. -/
def canonA {V : Type} [DecidableEq V] (d : V) : Assoc V → Bool
  | [] => true
  | (k, v) :: t => !decide (v = d) && canonAbove d k t

/-- The value of die `d`. -/
def triGet {α : Type} (t : Tri α) : Die → α
  | .a => t.a
  | .b => t.b
  | .c => t.c

/-- Change the value of die `d`. -/
def triMod {α : Type} (t : Tri α) (d : Die) (f : α → α) : Tri α :=
  match d with
  | .a => { t with a := f t.a }
  | .b => { t with b := f t.b }
  | .c => { t with c := f t.c }

/-- Change the values of all three dies, each told which die it is. -/
def triMap {α β : Type} (t : Tri α) (f : Die → α → β) : Tri β :=
  { a := f .a t.a, b := f .b t.b, c := f .c t.c }

/-- The same value for all three dies. -/
def triAll {α : Type} (x : α) : Tri α := { a := x, b := x, c := x }

/-- The three dies in order. -/
def allDies : List Die := [.a, .b, .c]

/-- The value of a half. -/
def duoGet {α : Type} (t : Duo α) : Side → α
  | .h => t.h
  | .l => t.l

/-- Change the value of a half. -/
def duoMod {α : Type} (t : Duo α) (d : Side) (f : α → α) : Duo α :=
  match d with
  | .h => { t with h := f t.h }
  | .l => { t with l := f t.l }

/-- The same value for both halves. -/
def duoAll {α : Type} (x : α) : Duo α := { h := x, l := x }

/-- The other half. -/
def otherSide : Side → Side
  | .h => .l
  | .l => .h

/-- Bit `n` of a word of any width (00 R9). -/
def bitOf {w : Nat} (x : BitVec w) (n : Nat) : Bool := x.getLsbD n

/-- `x` with bit `n` set to `b`. -/
def setBitOf {w : Nat} (x : BitVec w) (n : Nat) (b : Bool) : BitVec w :=
  if b then x ||| (1#w <<< n) else x &&& ~~~(1#w <<< n)

/-- A truth value as a word. -/
def b2w (b : Bool) : Word := if b then 1 else 0

/-- A truth value as one bit. -/
def b2v (b : Bool) : BitVec 1 := if b then 1 else 0

/-- The four bytes of a word, least significant first (00 R10, little-endian). -/
def leBytes (w : Word) : List Byte :=
  [w.extractLsb' 0 8, w.extractLsb' 8 8, w.extractLsb' 16 8, w.extractLsb' 24 8]

/-- The four bytes of a word, most significant first (00 R10, network order). -/
def beBytes (w : Word) : List Byte :=
  [w.extractLsb' 24 8, w.extractLsb' 16 8, w.extractLsb' 8 8, w.extractLsb' 0 8]

/-- The word of four bytes, least significant first. -/
def leWord (b0 b1 b2 b3 : Byte) : Word := b3 ++ b2 ++ b1 ++ b0

/-- The words of a byte list, four little-endian bytes each; a short tail is filled with zeros. -/
def wordsLe : List Byte → List Word
  | [] => []
  | [x] => [leWord x 0 0 0]
  | [x, y] => [leWord x y 0 0]
  | [x, y, z] => [leWord x y z 0]
  | x :: y :: z :: w :: t => leWord x y z w :: wordsLe t

/-- The words of a byte list, four big-endian bytes each; a short tail is filled with zeros. -/
def wordsBe : List Byte → List Word
  | [] => []
  | [x] => [leWord 0 0 0 x]
  | [x, y] => [leWord 0 0 y x]
  | [x, y, z] => [leWord 0 z y x]
  | x :: y :: z :: w :: t => leWord w z y x :: wordsBe t

/-- The numbers from `lo` on, `n` of them. -/
def numsFrom (lo : Nat) : Nat → List Nat
  | 0 => []
  | n + 1 => lo :: numsFrom (lo + 1) n

/-- `count` bits of `x` from bit `lo` up, as a list of truth values. -/
def bitsFrom {w : Nat} (x : BitVec w) (lo count : Nat) : List Bool :=
  (numsFrom lo count).map (bitOf x)

/-- Number of set bits among the first `n`. -/
def popCount {w : Nat} (x : BitVec w) (n : Nat) : Nat :=
  ((numsFrom 0 n).filter (bitOf x)).length

/-- Serial order of cycle numbers modulo 2^32 (04 R143): `x` lies after `y`. -/
def serialAfter (x y : Word) : Bool := decide (x ≠ y) && decide ((x - y).toNat < 2 ^ 31)

/-- Replace the element at place `n` of a list, if there is one. -/
def setAt {α : Type} : List α → Nat → α → List α
  | [], _, _ => []
  | _ :: t, 0, x => x :: t
  | y :: t, n + 1, x => y :: setAt t n x

/-- Remove the element at place `n` of a list, if there is one. -/
def dropAt {α : Type} : List α → Nat → List α
  | [], _ => []
  | _ :: t, 0 => t
  | y :: t, n + 1 => y :: dropAt t n

/-- The last `n` elements of a list. -/
def lastN {α : Type} (n : Nat) (l : List α) : List α := l.drop (l.length - n)

end Sys2Proof.Machine
end

