-- ==== Sys2Proof/Machine/Crc.lean ====
section
/-!
DEFINITION. The three check parameter sets (09 Table 9.8): CRC-32C (02 R71), CRC-32K (09 R296) and the CRC-64 of the
state digest (06 R205), each as a running value fed byte by byte.
-/

namespace Sys2Proof.Machine

/-- One bit of a reflected CRC. -/
def crcReflBit {w : Nat} (poly : BitVec w) (c : BitVec w) : BitVec w :=
  if c.getLsbD 0 then (c >>> 1) ^^^ poly else c >>> 1

/-- `n` bits of a reflected CRC. -/
def crcReflBits {w : Nat} (poly : BitVec w) : Nat → BitVec w → BitVec w
  | 0, c => c
  | n + 1, c => crcReflBits poly n (crcReflBit poly c)

/-- One bit of a CRC fed most significant bit first. -/
def crcMsbBit {w : Nat} (poly : BitVec w) (c : BitVec w) : BitVec w :=
  if c.getLsbD (w - 1) then (c <<< 1) ^^^ poly else c <<< 1

/-- `n` bits of a CRC fed most significant bit first. -/
def crcMsbBits {w : Nat} (poly : BitVec w) : Nat → BitVec w → BitVec w
  | 0, c => c
  | n + 1, c => crcMsbBits poly n (crcMsbBit poly c)

/-- One byte into the running CRC-32C (02 R71: polynomial 0x1EDC_6F41, reflected form 0x82F6_3B78). -/
def crc32cByte (c : BitVec 32) (b : Byte) : BitVec 32 :=
  crcReflBits 0x82F63B78#32 8 (c ^^^ b.setWidth 32)

/-- Feed a byte list into a running CRC-32C. -/
def crc32cFeed : BitVec 32 → List Byte → BitVec 32
  | c, [] => c
  | c, b :: t => crc32cFeed (crc32cByte c b) t

/-- CRC-32C of a message (02 R71: initial value and final XOR 0xFFFF_FFFF). -/
def crc32c (m : List Byte) : BitVec 32 := crc32cFeed 0xFFFFFFFF#32 m ^^^ 0xFFFFFFFF#32

/-- One byte into the running CRC-32K (09 Table 9.8: polynomial 0x741B_8CD7, most significant bit first). -/
def crc32kByte (c : BitVec 32) (b : Byte) : BitVec 32 :=
  crcMsbBits 0x741B8CD7#32 8 (c ^^^ (b.setWidth 32 <<< 24))

/-- Feed a byte list into a running CRC-32K. -/
def crc32kFeed : BitVec 32 → List Byte → BitVec 32
  | c, [] => c
  | c, b :: t => crc32kFeed (crc32kByte c b) t

/-- CRC-32K of a message (09 Table 9.8). -/
def crc32k (m : List Byte) : BitVec 32 := crc32kFeed 0xFFFFFFFF#32 m ^^^ 0xFFFFFFFF#32

/-- One byte into the running CRC-64 (06 R205: polynomial 0x42F0_E1EB_A9EA_3693, most significant bit first). -/
def crc64Byte (c : BitVec 64) (b : Byte) : BitVec 64 :=
  crcMsbBits 0x42F0E1EBA9EA3693#64 8 (c ^^^ (b.setWidth 64 <<< 56))

/-- Feed a byte list into a running CRC-64. -/
def crc64Feed : BitVec 64 → List Byte → BitVec 64
  | c, [] => c
  | c, b :: t => crc64Feed (crc64Byte c b) t

/-- The initial value and the final XOR of the CRC-64 (06 R205). -/
def crc64Ones : BitVec 64 := 0xFFFFFFFFFFFFFFFF#64

/-- CRC-64 of a message (06 R205). -/
def crc64 (m : List Byte) : BitVec 64 := crc64Feed crc64Ones m ^^^ crc64Ones

end Sys2Proof.Machine
end

