-- ==== Sys2Proof/Machine/Digest.lean ====
section
/-!
DEFINITION. SM3 and HMAC-SM3 (09 R297). The spec names SM3 (GB/T 32905) and HMAC (RFC 2104) without writing them out; the
definitions here are those of the two standards. PRESUMED: log entry 10.
-/

namespace Sys2Proof.Machine

/-! ## SM3 -/

/-- The eight words of a chaining value. -/
structure Sm3St where
  a : Word
  b : Word
  c : Word
  d : Word
  e : Word
  f : Word
  g : Word
  h : Word
  deriving DecidableEq, Repr

/-- The initial value. -/
def sm3Iv : Sm3St :=
  { a := 0x7380166F, b := 0x4914B2B9, c := 0x172442D7, d := 0xDA8A0600, e := 0xA96F30BC, f := 0x163138AA, g := 0xE38DEE4D,
    h := 0xB0FB0E4E }

/-- The permutations P0 and P1. -/
def sm3P0 (x : Word) : Word := x ^^^ x.rotateLeft 9 ^^^ x.rotateLeft 17
def sm3P1 (x : Word) : Word := x ^^^ x.rotateLeft 15 ^^^ x.rotateLeft 23

/-- The Boolean functions FF and GG of a round. -/
def sm3FF (j : Nat) (x y z : Word) : Word := if j < 16 then x ^^^ y ^^^ z else (x &&& y) ||| (x &&& z) ||| (y &&& z)
def sm3GG (j : Nat) (x y z : Word) : Word := if j < 16 then x ^^^ y ^^^ z else (x &&& y) ||| (~~~x &&& z)

/-- The constant of a round. -/
def sm3T (j : Nat) : Word := if j < 16 then 0x79CC4519 else 0x7A879D8A

/-- Message expansion: `n` more words, from the words so far with the newest first. -/
def sm3Expand : Nat → List Word → List Word
  | 0, r => r
  | n + 1, r =>
    let w := sm3P1 (r.getD 15 0 ^^^ r.getD 8 0 ^^^ (r.getD 2 0).rotateLeft 15) ^^^ (r.getD 12 0).rotateLeft 7 ^^^ r.getD 5 0
    sm3Expand n (w :: r)

/-- One round with its expanded words W and W'. -/
def sm3Round (j : Nat) (w w1 : Word) (v : Sm3St) : Sm3St :=
  let s1 := (v.a.rotateLeft 12 + v.e + (sm3T j).rotateLeft (j % 32)).rotateLeft 7
  let s2 := s1 ^^^ v.a.rotateLeft 12
  let t1 := sm3FF j v.a v.b v.c + v.d + s2 + w1
  let t2 := sm3GG j v.e v.f v.g + v.h + s1 + w
  { a := t1, b := v.a, c := v.b.rotateLeft 9, d := v.c, e := sm3P0 t2, f := v.e, g := v.f.rotateLeft 19, h := v.g }

/-- The rounds from `j` on over the expanded words, W(j) at the head. -/
def sm3Rounds : Nat → Nat → List Word → Sm3St → Sm3St
  | 0, _, _, v => v
  | n + 1, j, ws, v => sm3Rounds n (j + 1) (ws.drop 1) (sm3Round j (ws.getD 0 0) (ws.getD 0 0 ^^^ ws.getD 4 0) v)

/-- One block of 16 words into a chaining value. -/
def sm3Block (v : Sm3St) (ws : List Word) : Sm3St :=
  let r := sm3Rounds 64 0 (sm3Expand 52 ws.reverse).reverse v
  { a := v.a ^^^ r.a, b := v.b ^^^ r.b, c := v.c ^^^ r.c, d := v.d ^^^ r.d, e := v.e ^^^ r.e, f := v.f ^^^ r.f, g := v.g ^^^ r.g,
    h := v.h ^^^ r.h }

/-- A big-endian word of four bytes. -/
def beWord (a b c d : Byte) : Word := a ++ b ++ c ++ d

/-- Big-endian words of a byte string whose length is a multiple of 4. -/
def beWordsOf : List Byte → List Word
  | a :: b :: c :: d :: t => beWord a b c d :: beWordsOf t
  | _ => []

/-- A message padded to whole blocks: 0x80, zeros, and its length in bits. -/
def sm3Pad (m : List Byte) : List Byte :=
  m ++ [0x80] ++ List.replicate ((119 - m.length % 64) % 64) 0 ++
    (numsFrom 0 8).map (fun k => (BitVec.ofNat 64 (8 * m.length)).extractLsb' (56 - 8 * k) 8)

/-- Blocks of 16 words one after another. -/
def sm3Blocks : Nat → List Word → Sm3St → Sm3St
  | 0, _, v => v
  | n + 1, ws, v => sm3Blocks n (ws.drop 16) (sm3Block v (ws.take 16))

/-- SM3 of a byte string: 256 bits. -/
def sm3 (m : List Byte) : BitVec 256 :=
  let ws := beWordsOf (sm3Pad m)
  let v := sm3Blocks (ws.length / 16) ws sm3Iv
  v.a ++ v.b ++ v.c ++ v.d ++ v.e ++ v.f ++ v.g ++ v.h

/-! ## HMAC (RFC 2104) -/

/-- The bytes of a 256-bit value, most significant first. -/
def bytes256 (v : BitVec 256) : List Byte := (numsFrom 0 32).map (fun k => v.extractLsb' (248 - 8 * k) 8)

/-- HMAC with SM3 under a 32-byte key; the block of SM3 has 64 bytes. -/
def hmacSm3 (key : BitVec 256) (m : List Byte) : BitVec 256 :=
  let k := bytes256 key ++ List.replicate 32 0
  sm3 (k.map (fun b => b ^^^ 0x5C) ++ bytes256 (sm3 (k.map (fun b => b ^^^ 0x36) ++ m)))

end Sys2Proof.Machine
end

