-- ==== Sys2Proof/Machine/Encoding.lean ====
section
/-!
DEFINITION. The encodings of the channel dies (01 R18, R20 to R22, Table 1.3). The registers of a region pair and the COMMIT block
a region has sent are held in them; every other word that a die holds stands in State in true form, and the `held…` functions say
which word rests in the die (log entry 6).
-/

namespace Sys2Proof.Machine

/-- The mask of a position strap's encoding (01 Table 1.3): true form, complemented form, alternate-bit form. A die without an
identity holds itself in reset. -/
def dieMask (strap : BitVec 2) : Word := if strap = 2 then 0xFFFFFFFF else if strap = 3 then 0xAAAAAAAA else 0

/-- The word a die holds for a true-form word (01 R21). -/
def encodeWord (strap : BitVec 2) (w : Word) : Word := w ^^^ dieMask strap
/-- The true-form word of a word that a die holds. -/
def decodeWord (strap : BitVec 2) (w : Word) : Word := w ^^^ dieMask strap

/-- Encoding and decoding are inverse (01 R22). -/
@[simp] theorem decode_encode (k : BitVec 2) (w : Word) : decodeWord k (encodeWord k w) = w := by
  simp [decodeWord, encodeWord]
@[simp] theorem encode_decode (k : BitVec 2) (w : Word) : encodeWord k (decodeWord k w) = w := by
  simp [decodeWord, encodeWord]

/-- The part of the encoding mask that belongs to byte `a` (05 R172). -/
def maskByte (strap : BitVec 2) (a : Nat) : Byte := (dieMask strap).extractLsb' (8 * (a % 4)) 8

/-- UNIT and identity of a die as its strap gives them (01 Table 1.3, 18 Table 18.2). -/
def strapIdent (x : DieSt) : Nat := x.strap.toNat

end Sys2Proof.Machine
end

