-- ==== Sys2Proof/Machine/Cells.lean ====
section
/-!
DEFINITION. Element cells (02): codewords and their valid values by class, the check word and its repairs, timers, command
conditions, the aspect cap, base derivation, start release, output gates and the application's writes.
-/

namespace Sys2Proof.Machine

/-! ## Codewords (02 Tables 2.6 to 2.10) -/

def occDISTURBED : Half := 0x0F69
def occOCCUPIED : Half := 0x3C5A
def occNONE : Half := 0x5533
def occCLEAR : Half := 0xA5C3
def posDEAD : Half := 0x0F9C
def posUNPROVEN : Half := 0x1784
def posDC750 : Half := 0x1E8D
def posNORMAL : Half := 0x2BB8
def posOPEN : Half := 0x36A5
def posDC1500 : Half := 0x3AA9
def posREVERSE : Half := 0x4DDE
def posAC25 : Half := 0x55C6
def posDC3000 : Half := 0x5AC9
def posFIXED : Half := 0x63F0
def posAC15 : Half := 0x66F5
def posCLOSED : Half := 0x71E2
def lockUNKNOWN : Half := 0x1D41
def lockFLANK : Half := 0x277B
def lockFREE : Half := 0x336F
def lockOVERLAP : Half := 0x4B17
def lockROUTE : Half := 0x6935
def lockBLOCKED : Half := 0x722E
def aspCALLON : Half := 0x17BE
def aspPROCEED5 : Half := 0x1EB7
def aspPROCEED1 : Half := 0x2B82
def aspPROCEED4 : Half := 0x369F
def aspDANGER : Half := 0x3C95
def aspPROCEED2 : Half := 0x4DE4
def aspSHUNT : Half := 0x5AF3
def aspPROCEED3 : Half := 0x71D8
def cmdNONE : Half := 0x0F35
def cmdNORMAL : Half := 0x2B11
def cmdKEY : Half := 0x360C
def cmdREVERSE : Half := 0x4D77
def cmdOPEN : Half := 0x556F
def cmdCHANGEOVER : Half := 0x714B

/-- The field masks M of 02 Table 2.5a. -/
def fieldMask : Coded → Byte
  | .occ => 0x66
  | .pos => 0x93
  | .lock => 0x5C
  | .aspect => 0xA9
  | .cmd => 0x3A

/-- The codeword of a value byte in a field: (V << 8) | (V XOR M) (02 R74). -/
def codeword (f : Coded) (v : Byte) : Half := v ++ (v ^^^ fieldMask f)

/-! ## FAULT bits (02 Table 2.13) -/

def fCHECK : Nat := 15
def fCODE : Nat := 14
def fTIMER : Nat := 13
def fINPUT : Nat := 12
def fDISC : Nat := 11
def fOUTPUT : Nat := 10
def fLOAD : Nat := 9
def fSUPPLY : Nat := 8
def fCALL : Nat := 7
def fCLOSE : Nat := 6
def fREMOTE : Nat := 5
def fPROVING : Nat := 4

/-- Set a FAULT bit. -/
def addFault (n : Nat) (c : CellRec) : CellRec := { c with fault := setBitOf c.fault n true, checkErr := 0 }

/-- Set a FAULT bit where a condition holds. -/
def addFaultIf (b : Bool) (n : Nat) (c : CellRec) : CellRec := if b then addFault n c else c

/-- A FAULT bit stands. -/
def hasFault (c : CellRec) (n : Nat) : Bool := bitOf c.fault n

/-- FAULT.SUPPLY or FAULT.OUTPUT stands (02 R79, R89, R95). -/
def supplyOrOutput (c : CellRec) : Bool := hasFault c fSUPPLY || hasFault c fOUTPUT

/-! ## Classes -/

/-- The class of a code (02 Table 2.1); none for a code outside the table. -/
def clsOf (x : BitVec 8) : Option Cls :=
  match x.toNat with
  | 0 => some .unused
  | 1 => some .trackSection
  | 2 => some .point
  | 3 => some .diamond
  | 4 => some .switchedDiamond
  | 5 => some .mainSignal
  | 6 => some .shuntSignal
  | 7 => some .buffer
  | 8 => some .levelCrossing
  | 9 => some .powerSection
  | 10 => some .boundary
  | 11 => some .zone
  | 12 => some .keyLock
  | 13 => some .lineBlock
  | 14 => some .virtual
  | _ => none

/-- The class whose codewords hold for a record: its own, or MIRROR_CLASS for a BOUNDARY cell (02 R100). -/
def codeCls (c : CellRec) : Option Cls :=
  match clsOf c.cls with
  | some .boundary => clsOf (c.ext.setWidth 8)
  | k => k

/-- A cell of the given class. -/
def isCls (k : Cls) (c : CellRec) : Bool := decide (clsOf c.cls = some k)

/-- POINT or SWITCHED_DIAMOND. -/
def isPointLike (c : CellRec) : Bool := isCls .point c || isCls .switchedDiamond c

/-- MAIN_SIGNAL or SHUNT_SIGNAL. -/
def isSignal (c : CellRec) : Bool := isCls .mainSignal c || isCls .shuntSignal c

/-- Classes with occupancy (02 Table 2.11: OCC_CODE takes other values than NONE). -/
def hasOcc : Cls → Bool
  | .trackSection | .point | .switchedDiamond | .diamond | .levelCrossing | .virtual => true
  | _ => false

/-- A live cell: a class of Table 2.1 other than UNUSED (02 R68). -/
def isLive (c : CellRec) : Bool :=
  match clsOf c.cls with
  | none => false
  | some .unused => false
  | some _ => true

def lockTrack : List Half := [lockUNKNOWN, lockFREE, lockROUTE, lockOVERLAP, lockBLOCKED]
def lockSignal : List Half := [lockUNKNOWN, lockFREE, lockROUTE, lockFLANK, lockBLOCKED]
def lockAll : List Half := [lockUNKNOWN, lockFREE, lockROUTE, lockFLANK, lockOVERLAP, lockBLOCKED]

/-- Valid values of a field for a class, the restrictive value first (02 Table 2.11). -/
def validFor (f : Coded) (k : Cls) (boundary : Bool) : List Half :=
  match f with
  | .occ =>
    match k with
    | .trackSection | .point | .switchedDiamond | .diamond | .levelCrossing => [occOCCUPIED, occCLEAR, occDISTURBED]
    | .virtual => [occOCCUPIED, occCLEAR]
    | .unused => [0]
    | _ => [occNONE]
  | .pos =>
    match k with
    | .trackSection | .diamond | .buffer | .virtual => [posFIXED]
    | .point | .switchedDiamond | .zone | .keyLock | .lineBlock => [posUNPROVEN, posNORMAL, posREVERSE]
    | .mainSignal | .shuntSignal => [posUNPROVEN, posNORMAL]
    | .levelCrossing => [posUNPROVEN, posCLOSED, posOPEN]
    | .powerSection => [posUNPROVEN, posAC25, posAC15, posDC3000, posDC1500, posDC750, posDEAD]
    | _ => [0]
  | .lock =>
    match k with
    | .trackSection | .diamond | .levelCrossing | .powerSection => lockTrack
    | .point | .switchedDiamond | .virtual => lockAll
    | .mainSignal | .shuntSignal | .buffer | .zone | .keyLock | .lineBlock => lockSignal
    | _ => [0]
  | .aspect =>
    match k with
    | .mainSignal => [aspDANGER, aspCALLON, aspPROCEED1, aspPROCEED2, aspPROCEED3, aspPROCEED4, aspPROCEED5]
    | .shuntSignal => [aspDANGER, aspSHUNT]
    | .lineBlock => [aspDANGER, aspPROCEED1]
    | .unused => [0]
    | _ => [aspDANGER]
  | .cmd =>
    if boundary then [cmdNONE] else
    match k with
    | .point | .switchedDiamond => [cmdNONE, cmdNORMAL, cmdREVERSE]
    | .levelCrossing | .lineBlock => [cmdNONE, cmdOPEN]
    | .powerSection => [cmdNONE, cmdCHANGEOVER]
    | .zone | .keyLock => [cmdNONE, cmdKEY]
    | .unused => [0]
    | _ => [cmdNONE]

/-- Valid values of a field for a record; empty for a record without a defined class (02 R73). -/
def validOf (f : Coded) (c : CellRec) : List Half :=
  match codeCls c with
  | none => []
  | some k => validFor f k (isCls .boundary c)

/-- The restrictive value of a field (02 R75); 0x0000 without a defined class (02 R73). -/
def restrictive (f : Coded) (c : CellRec) : Half := (validOf f c).headD 0

/-- What a read of a coded field returns for a record without a defined class (02 R73). -/
def noClassRead : Coded → Half
  | .occ => occOCCUPIED
  | .pos => posUNPROVEN
  | .lock => lockUNKNOWN
  | .aspect => aspDANGER
  | .cmd => cmdNONE

/-! ## Records -/

/-- A stopped timer with nothing left. -/
def timerZero : Timer := { tstate := 0, fresh := false, trem := 0 }

/-- The record of an UNUSED slot (02 Table 2.1): every field but CELL_ID and CHECK 0. -/
def cellUnused : CellRec :=
  { cls := 0, profile := 0, occ := 0, pos := 0, lock := 0, aspect := 0, cmd := 0, fault := 0, owned := false,
    foreign := false, ownerModule := 0, ownerRoute := 0, mark0 := 0, mark1 := 0, mark2 := 0, mark3 := 0,
    t0 := timerZero, t1 := timerZero, t2 := timerZero, t3 := timerZero, port0 := 0, port1 := 0, port2 := 0,
    port3 := 0, bind := 0, app := 0, ext := 0, checkErr := 0, cleanOnce := false }

/-- A coded field as it stands. -/
def rawCoded (f : Coded) (c : CellRec) : Half :=
  match f with
  | .occ => c.occ
  | .pos => c.pos
  | .lock => c.lock
  | .aspect => c.aspect
  | .cmd => c.cmd

/-- Write a coded field; CHECK is recomputed in the same operation (02 R72). -/
def putCoded (f : Coded) (v : Half) (c : CellRec) : CellRec :=
  match f with
  | .occ => { c with occ := v, checkErr := 0 }
  | .pos => { c with pos := v, checkErr := 0 }
  | .lock => { c with lock := v, checkErr := 0 }
  | .aspect => { c with aspect := v, checkErr := 0 }
  | .cmd => { c with cmd := v, checkErr := 0 }

/-- Write the whole of W4 as 0 (02 R77). -/
def clearOwner (c : CellRec) : CellRec :=
  { c with owned := false, foreign := false, ownerModule := 0, ownerRoute := 0, checkErr := 0 }

/-- Every coded field at its restrictive value. -/
def restrictCoded (c : CellRec) : CellRec :=
  { c with occ := restrictive .occ c, pos := restrictive .pos c, lock := restrictive .lock c,
           aspect := restrictive .aspect c, cmd := restrictive .cmd c, checkErr := 0 }

/-- The rewrite of R73 after a CHECK mismatch. -/
def rewriteBad (c : CellRec) : CellRec :=
  addFault fCHECK (clearOwner { restrictCoded c with mark0 := 0, mark1 := 0, mark2 := 0, mark3 := 0 })

/-- Verify CHECK (02 R73): a mismatch, or a CLASS outside Table 2.1 (02 R67), rewrites the record. The rewrite of a record
without a defined class leaves one that has been rewritten as it is. -/
def verifyCell (c : CellRec) : CellRec := if c.checkErr = 0 && (clsOf c.cls).isSome then c else rewriteBad c

/-- One of the three owned lock values (02 R77). -/
def lockOwnedCode (v : Half) : Bool := v = lockROUTE || v = lockFLANK || v = lockOVERLAP

/-- Read a coded field: value and record after the read (02 R76, R77). -/
def readCoded (f : Coded) (c : CellRec) : Half × CellRec :=
  match codeCls c with
  | none => (noClassRead f, c)
  | some k =>
    let v := rawCoded f c
    let valid := (validOf f c).contains v
    match f with
    | .lock =>
      if k = .unused then (v, c)
      else if valid && (lockOwnedCode v == c.owned) then (v, c)
      else (lockUNKNOWN, addFault fCODE (clearOwner (putCoded .lock lockUNKNOWN c)))
    | _ =>
      if valid then (v, c)
      else if (f = .occ && validOf f c = [occNONE]) || (f = .pos && validOf f c = [posFIXED]) then
        (restrictive f c, addFault fCODE (restrictCoded c))
      else (restrictive f c, addFault fCODE (putCoded f (restrictive f c) c))

/-- The value a reader receives of a coded field. -/
def coded (f : Coded) (c : CellRec) : Half := (readCoded f c).1

/-- The record after the given fields have been read in order (02 R76: reads by the cell logic, with all they write). -/
def readAll (fs : List Coded) (c : CellRec) : CellRec := fs.foldl (fun c f => (readCoded f c).2) c

/-- The record after every coded field has been read. -/
def settle (c : CellRec) : CellRec := readAll [.occ, .pos, .lock, .aspect, .cmd] c

/-- Check and class check at a read by the fabric (02 R73, R76, R77). -/
def fabricRead (c : CellRec) : CellRec := settle (verifyCell c)

/-- A timer of a cell. -/
def timerOf (c : CellRec) (k : Nat) : Timer :=
  match k with
  | 0 => c.t0
  | 1 => c.t1
  | 2 => c.t2
  | _ => c.t3

/-- Write a timer of a cell. -/
def putTimer (k : Nat) (t : Timer) (c : CellRec) : CellRec :=
  match k with
  | 0 => { c with t0 := t, checkErr := 0 }
  | 1 => { c with t1 := t, checkErr := 0 }
  | 2 => { c with t2 := t, checkErr := 0 }
  | _ => { c with t3 := t, checkErr := 0 }

/-- A port's adjacency word (02 Table 2.4). -/
def portOf (c : CellRec) (p : Nat) : Half :=
  match p with
  | 0 => c.port0
  | 1 => c.port1
  | 2 => c.port2
  | _ => c.port3

/-- LINK of an adjacency word: 0 NONE, 1 TRACK, 2 ASSOC, 3 EDGE (02 Table 2.15). -/
def adjLink (w : Half) : Nat := (w.extractLsb' 14 2).toNat
/-- NB_PORT of an adjacency word. -/
def adjPort (w : Half) : Nat := (w.extractLsb' 12 2).toNat
/-- NB_CELL of an adjacency word. -/
def adjCell (w : Half) : Nat := (w.extractLsb' 0 12).toNat

/-- The probe mark on a port (02 Table 2.3). -/
def markOf (c : CellRec) (p : Nat) : Half :=
  match p with
  | 0 => c.mark0
  | 1 => c.mark1
  | 2 => c.mark2
  | _ => c.mark3

/-- Write the probe mark on a port. -/
def putMark (p : Nat) (m : Half) (c : CellRec) : CellRec :=
  match p with
  | 0 => { c with mark0 := m, checkErr := 0 }
  | 1 => { c with mark1 := m, checkErr := 0 }
  | 2 => { c with mark2 := m, checkErr := 0 }
  | _ => { c with mark3 := m, checkErr := 0 }

/-- VALID of a mark (02 R70). -/
def markValid (m : Half) : Bool := bitOf m 15
/-- KIND of a mark. -/
def markKind (m : Half) : BitVec 2 := m.extractLsb' 13 2
/-- ROUTE of a mark. -/
def markRoute (m : Half) : BitVec 13 := m.extractLsb' 0 13
/-- A valid mark of a KIND and route. -/
def mkMark (kind : BitVec 2) (route : BitVec 13) : Half := (1#1 ++ kind ++ route : BitVec 16)

/-- A timer word (02 Table 2.2). -/
def timerWord (t : Timer) : Word := (t.tstate ++ b2v t.fresh ++ 0#5 ++ t.trem : BitVec 32)

/-- Words W0 to W14 of the record of cell `id`, true form (02 Table 2.2). -/
def cellWords (id : Nat) (c : CellRec) : List Word :=
  [ (c.cls ++ 0#5 ++ c.profile ++ 0#4 ++ BitVec.ofNat 12 id : BitVec 32),
    (c.occ ++ c.pos : BitVec 32), (c.lock ++ c.aspect : BitVec 32), (c.cmd ++ c.fault : BitVec 32),
    (b2v c.owned ++ b2v c.foreign ++ c.ownerModule ++ 0#11 ++ c.ownerRoute : BitVec 32),
    (c.mark1 ++ c.mark0 : BitVec 32), (c.mark3 ++ c.mark2 : BitVec 32),
    timerWord c.t0, timerWord c.t1, timerWord c.t2, timerWord c.t3,
    (c.port1 ++ c.port0 : BitVec 32), (c.port3 ++ c.port2 : BitVec 32), c.bind, (c.app ++ c.ext : BitVec 32) ]

/-- A global cell address (00 R16). -/
def globalAddr (station module id : Nat) : Word :=
  BitVec.ofNat 32 (station % 4096 * 262144 + module % 64 * 4096 + id % 4096)

/-- The value R71 gives for CHECK: CRC-32C over the global address and W0 to W14. -/
def cellCrc (station module id : Nat) (c : CellRec) : Word :=
  crc32c (leBytes (globalAddr station module id) ++ (cellWords id c).flatMap leBytes)

/-- W15 as stored. -/
def cellCheck (station module id : Nat) (c : CellRec) : Word := cellCrc station module id c ^^^ c.checkErr

/-! ## Bindings (02 Table 2.5) -/

def inBase (c : CellRec) : Nat := (c.bind.extractLsb' 24 8).toNat
def inCount (c : CellRec) : Nat := if isCls .boundary c then 0 else (c.bind.extractLsb' 20 4).toNat
def outBase (c : CellRec) : Nat := (c.bind.extractLsb' 13 7).toNat
def outCount (c : CellRec) : Nat := if isCls .boundary c then 0 else (c.bind.extractLsb' 9 4).toNat
def bindParallel (c : CellRec) : Bool := !isCls .boundary c && bitOf c.bind 8
def bindRemote (c : CellRec) : Bool := !isCls .boundary c && bitOf c.bind 7
def remoteModule (c : CellRec) : Nat := (c.bind.extractLsb' 0 6).toNat
/-- OWNER_ADDR of a BOUNDARY cell. -/
def ownerAddr (c : CellRec) : BitVec 30 := c.bind.extractLsb' 0 30

/-! ## Timers (02 R82 to R87) -/

def tSTOPPED : BitVec 2 := 0
def tRUNNING : BitVec 2 := 1
def tEXPIRED : BitVec 2 := 2

/-- Start a timer with a value in ms (02 R82, R83, R86). -/
def startTimer (ms : BitVec 24) : Timer :=
  { tstate := if ms = 0 then tEXPIRED else tRUNNING, fresh := true, trem := ms }

/-- Stop a timer (02 R86): STOPPED, FRESH cleared, TREM unchanged. -/
def stopTimer (t : Timer) : Timer := { t with tstate := tSTOPPED, fresh := false }

/-- One timer step of `p` ms (02 R83): the timer after it, whether it expired now, and whether TSTATE was 0b11. -/
def stepTimer (p : Nat) (t : Timer) : Timer × Bool × Bool :=
  if t.tstate = 3 then ({ t with tstate := tRUNNING, fresh := false }, false, true)
  else if t.tstate = tRUNNING then
    if t.fresh then ({ t with fresh := false }, false, false)
    else if t.trem.toNat ≤ p then ({ t with tstate := tEXPIRED, trem := 0 }, true, false)
    else ({ t with trem := BitVec.ofNat 24 (t.trem.toNat - p) }, false, false)
  else (t, false, false)

/-- CMD_CODE is a point call. -/
def isCall (v : Half) : Bool := v = cmdNORMAL || v = cmdREVERSE

/-- T0 of a called point reads EXPIRED: the call ends with CALL_TIMEOUT (02 Table 2.21, R79). -/
def callTimeout (c : CellRec) : CellRec :=
  if isPointLike c && isCall c.cmd && decide (c.t0.tstate = tEXPIRED) then
    addFault fCALL (putCoded .cmd cmdNONE c)
  else c

/-- Timer T0 has just become EXPIRED: what its class makes of it (02 Tables 2.13, 2.21, R97). -/
def onT0Expired (c : CellRec) : CellRec :=
  if isPointLike c then addFault fCALL (putCoded .cmd cmdNONE c)
  else if isCls .levelCrossing c then addFault fCLOSE c
  else c

/-- The step of timer `k` of one cell, with the consequences of its expiry. -/
def stepCellTimer (p k : Nat) (c : CellRec) : CellRec :=
  let r := stepTimer p (timerOf c k)
  let c1 := if r.1 = timerOf c k then c else putTimer k r.1 c
  let c2 := if r.2.2 then addFault fTIMER c1 else c1
  if r.2.1 && k = 0 then onT0Expired c2 else c2

/-- The timer step of a live cell (02 R83): all four timers. -/
def stepTimers (p : Nat) (c : CellRec) : CellRec :=
  if isLive c then stepCellTimer p 3 (stepCellTimer p 2 (stepCellTimer p 1 (stepCellTimer p 0 c))) else c

/-- Timer `k` of the cell belongs to the fabric or the cell logic (02 Table 2.17). -/
def timerRo (c : CellRec) (k : Nat) : Bool :=
  match clsOf c.cls with
  | some .point | some .switchedDiamond | some .levelCrossing => k = 0
  | some .mainSignal | some .shuntSignal => k = 0 || k = 1
  | _ => false

/-! ## Commands (02 R79, Tables 2.14 and 2.21) -/

/-- The position a call asks for. -/
def calledPos (v : Half) : Half := if v = cmdNORMAL then posNORMAL else posREVERSE

/-- The coded fields that the condition of a command reads (02 Table 2.14). -/
def condFields (c : CellRec) : List Coded :=
  if isPointLike c then [.occ, .lock, .pos] else if isCls .levelCrossing c then [.lock, .occ] else [.lock]

/-- The condition under which a command other than NONE is stored (02 Table 2.14), of a record whose fields have been read. -/
def cmdCond (v : Half) (c : CellRec) : Bool :=
  match clsOf c.cls with
  | some .point | some .switchedDiamond =>
    isCall v && decide (coded .occ c = occCLEAR) && decide (coded .lock c ≠ lockBLOCKED) &&
      decide (coded .lock c ≠ lockUNKNOWN) && decide (c.t0.tstate ≠ tEXPIRED) && !hasFault c fCALL &&
      decide (coded .pos c ≠ calledPos v) && !supplyOrOutput c
  | some .zone | some .keyLock => decide (v = cmdKEY) && decide (coded .lock c = lockFREE) && !supplyOrOutput c
  | some .levelCrossing =>
    decide (v = cmdOPEN) && decide (coded .lock c = lockFREE) && decide (coded .occ c = occCLEAR) && !supplyOrOutput c
  | some .lineBlock => decide (v = cmdOPEN) && decide (coded .lock c = lockFREE) && !supplyOrOutput c
  | some .powerSection => decide (v = cmdCHANGEOVER) && decide (coded .lock c = lockFREE) && !supplyOrOutput c
  | _ => false

/-- What a cell takes from its profile (04 Tables 4.7, 4.8): whether its CHECK matches, CALL_TO, LC_CLOSE (both 0 where it
does not, 04 R158) and ASPECT_SET. -/
structure CellProf where
  ok : Bool
  callMs : BitVec 24
  closeMs : BitVec 24
  aspectSet : BitVec 7
  deriving DecidableEq, Repr

/-- Write CMD_CODE with the timer effects of 02 Table 2.21 and R97; a timer started from a profile whose CHECK fails sets
FAULT.CODE (04 R158). DESIGN CHOICE (log entry 46): Table 2.21 does not say what T0 of a called point does when a write ends the
call; every write that stores NONE stops it, a write of NONE and a refused one alike. -/
def writeCmdCode (pr : CellProf) (v : Half) (c : CellRec) : CellRec :=
  let callMs := pr.callMs
  let closeMs := pr.closeMs
  let old := c.cmd
  let c1 := putCoded .cmd v c
  if isPointLike c then
    if isCall v then
      (if v = old then c1 else callTimeout (addFaultIf (!pr.ok) fCODE (putTimer 0 (startTimer callMs) c1)))
    else if c.t0.tstate = tEXPIRED then c1
    else putTimer 0 (stopTimer c.t0) c1
  else if isCls .levelCrossing c && decide (old = cmdOPEN) && decide (v = cmdNONE) then
    addFaultIf (!pr.ok) fCODE <| addFaultIf (decide (closeMs = 0)) fCLOSE (putTimer 0 (startTimer closeMs) c1)
  else c1

/-- Re-evaluation of the command condition (02 R79): NONE is written where it has failed. -/
def evalCmd (pr : CellProf) (c : CellRec) : CellRec :=
  if !isLive c then c
  else
    let c := callTimeout (readAll [.cmd] c)
    if c.cmd = cmdNONE then c
    else
      let c := readAll (condFields c) c
      if cmdCond c.cmd c then c else writeCmdCode pr cmdNONE c

/-! ## The aspect cap (02 R95) -/

/-- The aspect cap on a written or standing aspect, of a record whose LOCK_CODE has been read: `routeOk` says that the owning
route is PROVEN and allows it, `lineClear` that the line-clear input of a LINE_BLOCK reads ON. -/
def capped (routeOk lineClear : Bool) (v : Half) (c : CellRec) : Half :=
  if isSignal c then
    if c.owned && decide (c.lock = lockROUTE) && routeOk && !supplyOrOutput c then v else aspDANGER
  else if isCls .lineBlock c then (if lineClear then v else aspDANGER)
  else v

/-- The aspect cap applied to a record (02 Table 2.19). -/
def capAspect (routeOk lineClear : Bool) (c : CellRec) : CellRec :=
  if isSignal c || isCls .lineBlock c then
    let r := readCoded .aspect (readAll [.lock] c)
    let v := capped routeOk lineClear r.1 r.2
    if v = r.1 then r.2 else putCoded .aspect v r.2
  else c

/-! ## Base derivation (02 R92 to R98, R521) -/

/-- What one cell senses at base derivation: its bound inputs (bit k: input IN_BASE + k), and the states of its bound
outputs (08 R286). `remoteLost`: the FIELD-role module of a remote binding is lost. -/
structure Sense where
  on : BitVec 8
  inFault : Bool
  inDisc : Bool
  outFault : Bool
  outLoad : Bool
  outSupply : Bool
  remoteLost : Bool
  deriving DecidableEq, Repr

/-- Nothing sensed: every input OFF. -/
def senseNone : Sense :=
  { on := 0, inFault := false, inDisc := false, outFault := false, outLoad := false, outSupply := false,
    remoteLost := false }

/-- Occupancy from clear inputs (02 Table 2.20). -/
def occFrom (allOn : Bool) (old : Half) : Half :=
  if old = occDISTURBED then occDISTURBED else if allOn then occCLEAR else occOCCUPIED

/-- All of the first `n` bits are set. -/
def allOn (x : BitVec 8) (n : Nat) : Bool := (numsFrom 0 n).all (fun k => bitOf x k)

/-- Traction system of an index (02 Table 2.23). -/
def systemPos : Nat → Option Half
  | 0 => some posAC25
  | 1 => some posAC15
  | 2 => some posDC3000
  | 3 => some posDC1500
  | 4 => some posDC750
  | 5 => some posDEAD
  | _ => none

/-- POS_CODE of a POWER_SECTION (02 R98). -/
def powerPos (c : CellRec) (s : Sense) : Half :=
  let n := inCount c
  let ons := (numsFrom 0 n).filter (fun k => bitOf s.on k)
  match ons with
  | [k] =>
    if s.inFault then posUNPROVEN
    else (systemPos (c.ext.extractLsb' (3 * k) 3).toNat).getD posUNPROVEN
  | _ => posUNPROVEN

/-- POS_CODE from two detection inputs. -/
def detect (n r : Bool) : Half :=
  if n && !r then posNORMAL else if r && !n then posREVERSE else posUNPROVEN

/-- The FAULT bits that base derivation sets (02 R521, R91, Table 2.13); it clears none. -/
def deriveFaults (s : Sense) (c : CellRec) : CellRec :=
  addFaultIf s.remoteLost fREMOTE (addFaultIf s.outSupply fSUPPLY (addFaultIf s.outLoad fLOAD
    (addFaultIf s.outFault fOUTPUT (addFaultIf s.inDisc fDISC (addFaultIf s.inFault fINPUT c)))))

/-- OCC_CODE and POS_CODE that base derivation gives a class. -/
def deriveOccPos (k : Cls) (s : Sense) (c : CellRec) : CellRec :=
  let old := c.occ
  let put := fun (o p : Half) => putCoded .occ o (putCoded .pos p c)
  let on := fun (i : Nat) => bitOf s.on i
  match k with
  | .trackSection | .diamond => put (occFrom (allOn s.on (inCount c)) old) posFIXED
  | .virtual => put (if inCount c = 0 then occCLEAR else occFrom (allOn s.on (inCount c)) old) posFIXED
  | .point | .switchedDiamond => put (occFrom (on 2) old) (detect (on 0) (on 1))
  | .mainSignal | .shuntSignal =>
    if inCount c = 0 then put occNONE posNORMAL
    else if on 0 then put occNONE posNORMAL
    else addFault fPROVING (put occNONE posUNPROVEN)
  | .buffer => put occNONE posFIXED
  | .levelCrossing =>
    let in2 := decide (2 < inCount c) && on 2
    let o := occFrom (on 1) old
    if on 0 && !in2 then
      let c1 := put o posCLOSED
      if c.t0.tstate = tSTOPPED then c1 else putTimer 0 (stopTimer c1.t0) c1
    else if c.t0.tstate = tEXPIRED then put o posUNPROVEN
    else if in2 && !on 0 then put o posOPEN
    else put o posUNPROVEN
  | .powerSection => put occNONE (powerPos c s)
  | .zone | .keyLock =>
    put occNONE (if on 0 then posNORMAL else if s.inFault || s.inDisc || s.remoteLost then posUNPROVEN else posREVERSE)
  | .lineBlock => put occNONE (detect (on 1) (on 2))
  | .boundary | .unused => c

/-- Base derivation of a live cell other than BOUNDARY. -/
def derive (s : Sense) (c : CellRec) : CellRec :=
  match clsOf c.cls with
  | none => c
  | some .unused => c
  | some .boundary => c
  | some k => deriveOccPos k s (deriveFaults s (settle c))

/-- Boundary mirroring (02 R101): the owner's values, or the restrictive values of MIRROR_CLASS. -/
def mirrorCell (m : Option Mirror) (lost : Bool) (c : CellRec) : CellRec :=
  let c := addFaultIf lost fREMOTE c
  match (if hasFault c fREMOTE then none else m) with
  | none => clearOwner (restrictCoded c)
  | some m =>
    { c with occ := m.occ, pos := m.pos, lock := m.lock, aspect := m.aspect, cmd := cmdNONE, owned := bitOf m.owner 31,
             foreign := bitOf m.owner 30, ownerModule := m.owner.extractLsb' 24 6,
             ownerRoute := m.owner.extractLsb' 0 13, checkErr := 0 }

/-- The conditions of the start release (02 R94). -/
def releaseReady (c : CellRec) : Bool :=
  (decide (c.occ = occCLEAR) || decide (c.occ = occNONE)) && decide (c.pos ≠ posUNPROVEN) && !hasFault c fCHECK &&
    !hasFault c fCODE && !hasFault c fINPUT && !hasFault c fDISC && !hasFault c fREMOTE

/-- Step 4 of RULES_IN (02 R94): LOCKED_UNKNOWN becomes FREE in the second of two clean cycles. -/
def startRelease (c : CellRec) : CellRec :=
  if isLive c && !isCls .boundary c then
    let c := readAll [.lock, .occ, .pos] c
    if decide (c.lock = lockUNKNOWN) && releaseReady c then
      if c.cleanOnce then { putCoded .lock lockFREE c with cleanOnce := false } else { c with cleanOnce := true }
    else { c with cleanOnce := false }
  else { c with cleanOnce := false }

/-- A cycle without phases breaks a run of clean cycles (02 R94). -/
def notClean (c : CellRec) : CellRec := { c with cleanOnce := false }

/-! ## Output gates (02 R88, R89, Table 2.18) -/

/-- The gate of bound output `k` of a cell (02 Table 2.18, R89, R73). Outputs of VIRTUAL cells have none: they return with the supply
while SUPPLY stands (R90, 08 R280). -/
def gate (c : CellRec) (k : Nat) : Bool :=
  let cut := supplyOrOutput c
  match clsOf c.cls with
  | none => false
  | some .mainSignal | some .shuntSignal =>
    if k = 0 then true else !cut && decide (c.aspect ≠ aspDANGER)
  | some .point | some .switchedDiamond =>
    !cut && (if k = 0 then decide (c.cmd = cmdNORMAL) else decide (c.cmd = cmdREVERSE))
  | some .levelCrossing => !cut && (if k = 0 then decide (c.cmd = cmdOPEN) else decide (c.cmd = cmdNONE))
  | some .powerSection => !cut && decide (c.cmd = cmdCHANGEOVER)
  | some .zone | some .keyLock => !cut && decide (c.cmd = cmdKEY)
  | some .lineBlock => !cut && decide (c.cmd = cmdOPEN)
  | some .virtual => true
  | _ => false

/-! ## Start (02 R94) -/

/-- BIND with its reserved bits 0 (00 R12): [31:30] of a BOUNDARY cell, [6] of every other (02 Table 2.5). -/
def maskBind (cls : BitVec 8) (w : BitVec 32) : BitVec 32 :=
  if clsOf cls = some .boundary then w &&& 0x3FFFFFFF else w &&& 0xFFFFFFBF

/-- The record that the start sequence writes over the static fields of a live cell. -/
def startCell (c : CellRec) : CellRec :=
  let c := { c with bind := maskBind c.cls c.bind, fault := 0, owned := false, foreign := false, ownerModule := 0, ownerRoute := 0, mark0 := 0,
                    mark1 := 0, mark2 := 0, mark3 := 0, t0 := timerZero, t1 := timerZero, t2 := timerZero,
                    t3 := timerZero, checkErr := 0, cleanOnce := false }
  if isLive c then restrictCoded c else { cellUnused with cls := c.cls }

/-! ## The application's writes (02 R78, R79, R95; 05 R190, Table 5.13) -/

/-- Status STORED, RESTRICTED, CAPPED, COND_NONE (05 Table 5.13). -/
def stSTORED : Word := 0
def stRESTRICTED : Word := 1
def stCAPPED : Word := 2
def stCONDNONE : Word := 3

/-- A write that Table 2.12 does not allow: the restrictive value and FAULT.CODE (02 R78); a command that it ends has the
timer effects of every write of CMD_CODE (02 R97). -/
def refuseWrite (f : Coded) (pr : CellProf) (c : CellRec) : Word × CellRec :=
  (stRESTRICTED, addFault fCODE (match f with
    | .cmd => writeCmdCode pr (restrictive .cmd c) c
    | _ => putCoded f (restrictive f c) c))

/-- Bit of ASPECT_SET that allows an aspect (04 Table 4.7); none for DANGER. -/
def aspectBit (v : Half) : Option Nat :=
  if v = aspPROCEED1 then some 0 else if v = aspPROCEED2 then some 1 else if v = aspPROCEED3 then some 2
  else if v = aspPROCEED4 then some 3 else if v = aspPROCEED5 then some 4 else if v = aspCALLON then some 5
  else if v = aspSHUNT then some 6 else none

/-- Write of a coded field by the application, with the cell's profile (04 R158, R160); `routeOk` and `lineClear` as for the
cap. The value is 32 bits wide (05 R190). -/
def appWrite (f : Coded) (v : Word) (pr : CellProf) (routeOk lineClear : Bool) (c : CellRec) : Word × CellRec :=
  match clsOf c.cls with
  | none => (stRESTRICTED, c)
  | some .boundary => refuseWrite f pr c
  | some _ =>
    let x : Half := v.extractLsb' 0 16
    if v.extractLsb' 16 16 ≠ 0 || !(validOf f c).contains x then refuseWrite f pr c
    else
      match f with
      | .occ => if x = occOCCUPIED || x = occDISTURBED then (stSTORED, putCoded .occ x c) else refuseWrite f pr c
      | .pos => if x = posUNPROVEN then (stSTORED, putCoded .pos x c) else refuseWrite f pr c
      | .lock => refuseWrite f pr c
      | .aspect =>
        if x = aspDANGER then (stSTORED, putCoded .aspect x c)
        else if !pr.ok then refuseWrite f pr c
        else if (match aspectBit x with | some b => !bitOf pr.aspectSet b && isSignal c | none => false) then refuseWrite f pr c
        else
          let c1 := readAll [.lock] c
          let y := capped routeOk lineClear x c1
          (if y = x then stSTORED else stCAPPED, putCoded .aspect y c1)
      | .cmd =>
        if x = cmdNONE then
          (stSTORED, writeCmdCode pr cmdNONE c)
        else
          let c1 := readAll (condFields c) c
          if isPointLike c1 && !(decide (coded .lock c1 = lockFREE)) then (stCONDNONE, writeCmdCode pr cmdNONE c1)
          else if cmdCond x c1 then
            let c2 := writeCmdCode pr x c1
            (if c2.cmd = x then stSTORED else stCONDNONE, c2)
          else (stCONDNONE, writeCmdCode pr cmdNONE c1)

end Sys2Proof.Machine
end

