-- ==== Sys2Proof/Machine/Spools.lean ====
section
/-!
DEFINITION. The spool (10): writes of the two producer classes, reads, packets, marking, acknowledge and SP.STATUS.
-/

namespace Sys2Proof.Machine

/-- A spool at reset and at start (10 R315); `z` is the item whose bits are all 0, the last value then. -/
def spEmpty {α : Type} (z : α) : Spool α :=
  { items := [], readPos := 0, mark := none, openPkt := none, wmLatch := false, overflow := false, underrun := false,
    peak := 0, last := z, stalled := [], faults := 0 }

/-- LEVEL: items written and not yet freed, an open packet included (10 R315, R316). -/
def spLevel {α : Type} (p : Spool α) : Nat := p.items.length + (if p.openPkt.isSome then 1 else 0)

/-- EMPTY: no item waits to be read (10 R315). -/
def spIsEmpty {α : Type} (p : Spool α) : Bool := decide (p.items.length ≤ p.readPos)

/-- FULL (10 R315). -/
def spFull {α : Type} (depth : Nat) (p : Spool α) : Bool := decide (depth ≤ spLevel p)

/-- The spool counts a fault of its host (10 R316, R317, R319, R322). -/
def spFault {α : Type} (p : Spool α) : Spool α := { p with faults := p.faults + 1 }

/-- WM_LATCH and PEAK after LEVEL has risen from `old` (10 R320). -/
def spRise {α : Type} (wm old : Nat) (p : Spool α) : Spool α :=
  { p with wmLatch := p.wmLatch || (decide (old < wm) && decide (wm ≤ spLevel p)), peak := max p.peak (spLevel p) }

/-- A write that finds a stage (10 R313). -/
def spPut {α : Type} (wm : Nat) (x : α) (p : Spool α) : Spool α :=
  spRise wm (spLevel p) { p with items := p.items ++ [x] }

/-- A write of a credit producer (10 R319): at full it is discarded and OVERFLOW is set. -/
def spCredit {α : Type} (depth wm : Nat) (x : α) (p : Spool α) : Spool α :=
  if spFull depth p then spFault { p with overflow := true } else spPut wm x p

/-- A write of a back-pressure producer (10 R318): at full, or behind a write that waits, the producer stalls with it. -/
def spBack {α : Type} (depth wm : Nat) (x : α) (p : Spool α) : Spool α :=
  if spFull depth p || !p.stalled.isEmpty then { p with stalled := p.stalled ++ [x] } else spPut wm x p

/-- The stalled write is accepted once a stage is free (10 R318), behind a packet that is open. -/
def spAccept {α : Type} (depth wm : Nat) (p : Spool α) : Spool α :=
  match p.stalled with
  | [] => p
  | x :: t => if spFull depth p || p.openPkt.isSome then p else spPut wm x { p with stalled := t }

/-- A read (10 R314, R317): with marking the read position moves, otherwise the item is freed. -/
def spRead {α : Type} (marking : Bool) (p : Spool α) : α × Spool α :=
  match p.items.drop p.readPos with
  | [] => (p.last, spFault { p with underrun := true })
  | x :: _ =>
    if marking then (x, { p with readPos := p.readPos + 1, last := x })
    else (x, { p with items := p.items.drop 1, last := x })

/-- A read of a spool without marking that frees a stage; a stalled write is accepted in the same clock (10 R314, R318). -/
def spTake {α : Type} (depth wm : Nat) (p : Spool α) : α × Spool α :=
  let r := spRead false p
  (r.1, spAccept depth wm r.2)

/-- MARK (10 R322). -/
def spMark {α : Type} (marking : Bool) (p : Spool α) : Spool α :=
  if marking then { p with mark := some p.readPos } else spFault p

/-- REWIND (10 R322). -/
def spRewind {α : Type} (marking : Bool) (p : Spool α) : Spool α :=
  if marking then
    match p.mark with
    | none => p
    | some m => { p with readPos := m }
  else spFault p

/-- RELEASE (10 R322): frees every item before the mark. -/
def spRelease {α : Type} (marking : Bool) (p : Spool α) : Spool α :=
  if marking then
    match p.mark with
    | none => p
    | some m => { p with items := p.items.drop m, readPos := p.readPos - m, mark := some 0 }
  else spFault p

/-- The longest packet, the bytes of a packet buffer (10 R316). -/
def packetMax : Nat := 1088

/-- Open a packet (10 R316): the tail slot is reserved with a packet buffer. A second open is refused and counted. -/
def spOpen {α : Type} (wm buf : Nat) (p : Spool α) : Spool α :=
  if p.openPkt.isSome then spFault p
  else spRise wm (spLevel p) { p with openPkt := some { buf := buf, bytes := 0 } }

/-- Write bytes into the open packet's buffer (10 R316). -/
def spData {α : Type} (n : Nat) (p : Spool α) : Spool α :=
  { p with openPkt := p.openPkt.map (fun o => { o with bytes := o.bytes + n }) }

/-- Abort the open packet (10 R316). -/
def spAbort {α : Type} (p : Spool α) : Spool α := { p with openPkt := none }

/-- Close the open packet with its length in bytes (10 R316); a faulty close aborts it and is counted. `mk` makes the
descriptor from the buffer index. -/
def spClose {α : Type} (len : Nat) (mk : Nat → α) (p : Spool α) : Spool α :=
  match p.openPkt with
  | none => p
  | some o =>
    if len = 0 || packetMax < len || packetMax < o.bytes then spFault (spAbort p)
    else { p with openPkt := none, items := p.items ++ [mk o.buf] }

/-- One write of SP.CTRL (10 Table 10.1b, R323): RELEASE, REWIND and MARK take effect in this order; ABORT ends the open
packet. -/
def spCtrl {α : Type} (marking : Bool) (w : Word) (p : Spool α) : Spool α :=
  let p1 := if bitOf w 2 then spRelease marking p else p
  let p2 := if bitOf w 1 then spRewind marking p1 else p1
  let p3 := if bitOf w 0 then spMark marking p2 else p2
  if bitOf w 3 then spAbort p3 else p3

/-- A write of SP.STATUS (10 Table 10.1a, R321): each W1C bit written 1 clears; the acknowledge, which writes all three, loads
PEAK with LEVEL. -/
def spW1c {α : Type} (w : Word) (p : Spool α) : Spool α :=
  { p with wmLatch := p.wmLatch && !bitOf w 5, overflow := p.overflow && !bitOf w 3, underrun := p.underrun && !bitOf w 2,
           peak := if bitOf w 5 && bitOf w 3 && bitOf w 2 then spLevel p else p.peak }

/-- The acknowledge word: WM_LATCH, OVERFLOW and UNDERRUN written 1. -/
def ackWord : Word := 0x2C

/-- Acknowledge (10 R321). -/
def spAck {α : Type} (p : Spool α) : Spool α := spW1c ackWord p

/-- Empty a spool and keep its last value and status (10 Table 10.2, the outboxes at a cut). -/
def spDrop {α : Type} (p : Spool α) : Spool α := { p with items := [], readPos := 0, openPkt := none, stalled := [] }

/-- SP.STATUS (10 Table 10.1a). -/
def spStatus {α : Type} (depth wm : Nat) (p : Spool α) : Word :=
  (BitVec.ofNat 8 p.peak ++ BitVec.ofNat 8 (spLevel p) ++ BitVec.ofNat 8 wm ++ 0#1 ++ b2v p.openPkt.isSome ++
    b2v p.wmLatch ++ b2v (decide (wm ≤ spLevel p)) ++ b2v p.overflow ++ b2v p.underrun ++
    b2v (spFull depth p) ++ b2v (spIsEmpty p) : BitVec 32)

end Sys2Proof.Machine
end

