-- ==== Sys2Proof/Machine/Routes.lean ====
section
/-!
DEFINITION. Route memory, route entries, keys and step records (03 Tables 3.1 to 3.7, 01 Table 1.8, 11 Table 11.3), and
the access functions of a die to its cells, routes and regions.
-/

namespace Sys2Proof.Machine

/-- What a die's fabric takes from the module: its addresses, the period in ms, whether the module is in ACTIVE or STANDBY
and in ACTIVE, the territory of each module position, the lost territories (11), the addresses of the modules that are lost as owners and the
positions of those whose FIELD link is lost (02 R91, R101), and the phase budgets in charged clocks (04 R145). -/
structure Ctx where
  station : Nat
  modulePos : Nat
  keyPos : Nat
  periodMs : Nat
  running : Bool
  isActive : Bool
  territory : List (Nat × Nat)
  lostTerr : List Nat
  lostOwners : List Nat
  lostFields : List Nat
  /-- ROLE is FIELD: no territory and no route logic (01 R65). -/
  fieldRole : Bool
  budgetIn : Nat
  budgetOut : Nat
  deriving DecidableEq, Repr

/-! ## Access -/

def getCell (x : DieSt) (n : Nat) : CellRec := getA cellUnused x.cells n
/-- Replace a record; a change makes its block dirty (12 R366). -/
def setCell (x : DieSt) (n : Nat) (c : CellRec) : DieSt :=
  { x with cells := putA cellUnused n c x.cells,
           dirtyCells := if getCell x n = c then x.dirtyCells else putA false (n / 16) true x.dirtyCells }
def modCell (x : DieSt) (n : Nat) (f : CellRec → CellRec) : DieSt := setCell x n (f (getCell x n))

/-- Apply a function to every record of the die that is not an untouched UNUSED slot. -/
def mapCells (x : DieSt) (f : Nat → CellRec → CellRec) : DieSt :=
  { x with cells := mapA cellUnused f x.cells,
           dirtyCells := x.cells.foldl (fun m p => if f p.1 p.2 = p.2 then m else putA false (p.1 / 16) true m) x.dirtyCells }

/-- Region of a cell (01 Table 1.5). -/
def regionOf (n : Nat) : Nat := n / 256 % 16
/-- Cluster of a cell within the die. -/
def clusterOf (n : Nat) : Nat := n / 16 % 256

/-- A free entry (03 Table 3.6 at reset): STATE IDLE. -/
def routeIdle : RouteEntry :=
  { state := 0x03, alt := 0, altValid := false, origin := 0, routeId := 0, key := 0, progress := 0, retry := 0,
    reason := 0, wasProven := false, replaced := false, ovlTimer := false, refreshed := false, flankOpen := 0,
    wait := 0 }

/-- No engine work. -/
def workNone : RouteWork :=
  { loaded := false, alt := 0, selected := false, firstHold := none, hold := none, remote := false, nack := none,
    flankBad := none, flankStarted := false, expect := 0, acks := [], approach := none, approachSeen := false,
    ovlHeld := 0, ovlTaken := 0, called := [], clearRun := 0, nextProbe := none, relAcked := [], relPath := [],
    relOverlap := false, released := false, descBad := false, descNew := false, cmd := none, granted := false,
    waiting := false, proxyHeld := false }

def getRoute (x : DieSt) (i : Nat) : RouteEntry := getA routeIdle x.routes i
def setRoute (x : DieSt) (i : Nat) (e : RouteEntry) : DieSt := { x with routes := putA routeIdle i e x.routes }
def modRoute (x : DieSt) (i : Nat) (f : RouteEntry → RouteEntry) : DieSt := setRoute x i (f (getRoute x i))
def getWork (x : DieSt) (i : Nat) : RouteWork := getA workNone x.work i
def setWork (x : DieSt) (i : Nat) (w : RouteWork) : DieSt := { x with work := putA workNone i w x.work }
def modWork (x : DieSt) (i : Nat) (f : RouteWork → RouteWork) : DieSt := setWork x i (f (getWork x i))

/-! ## Route states (03 Table 3.7) -/

def rsIDLE : BitVec 8 := 0x03
def rsPROBING : BitVec 8 := 0x05
def rsPROBED : BitVec 8 := 0x06
def rsCALLING : BitVec 8 := 0x09
def rsLOCKED : BitVec 8 := 0x0A
def rsPROVEN : BitVec 8 := 0x0C
def rsENTERED : BitVec 8 := 0x11
def rsRELEASING : BitVec 8 := 0x12
def rsAPPROACH : BitVec 8 := 0x14
def rsFAILED : BitVec 8 := 0x18

/-- ROUTE_FAILED (18 Table 18.3). -/
def cdROUTEFAILED : BitVec 16 := 0x501

/-- An entry enters FAILED with a reason; the die raises a ROUTE_FAILED record. What it holds beyond the code and the die is not
stated: log entry 12. -/
def setFailed (x : DieSt) (i : Nat) (e : RouteEntry) (reason : BitVec 8) : DieSt :=
  let f := { e with state := rsFAILED, reason := reason }
  { setRoute x i f with
    logOut := x.logOut ++ [{ code := cdROUTEFAILED, unit_ := x.strap.setWidth 4, place := 0, index := 0,
                             data := Config.recordData cdROUTEFAILED (BitVec.ofNat 32 i ++ e.routeId.setWidth 32) }] }

/-- A code of Table 3.7. -/
def rsValid (s : BitVec 8) : Bool :=
  [rsIDLE, rsPROBING, rsPROBED, rsCALLING, rsLOCKED, rsPROVEN, rsENTERED, rsRELEASING, rsAPPROACH, rsFAILED].contains s

/-- The engine reads the entry as it stands; a code outside Table 3.7, or an ORIGIN outside its two values, it reads and writes
FAILED with reason LOCK_LOST (03 Tables 3.6, 3.7). -/
def entryReadable (e : RouteEntry) : Bool :=
  rsValid e.state && (decide (e.origin = 0) || decide (e.origin = 1) || decide (e.state = rsIDLE))

/-- A live entry (03 R113). -/
def isLiveEntry (e : RouteEntry) : Bool := decide (e.state ≠ rsIDLE)

/-- An entry of a proxy. -/
def isProxy (e : RouteEntry) : Bool := decide (e.origin = 1)

/-- Index of the live entry of a route or proxy: the route directory (03 R109, R113). -/
def findRouteIn : List (Nat × RouteEntry) → Bool → BitVec 13 → Option Nat
  | [], _, _ => none
  | (i, e) :: t, fg, r =>
    if isLiveEntry e && (isProxy e == fg) && decide (e.routeId = r) then some i else findRouteIn t fg r

def findRoute (x : DieSt) (fg : Bool) (r : BitVec 13) : Option Nat := findRouteIn x.routes fg r

/-- The lowest free entry among the 1,024 (03 R107). -/
def lowestFree (x : DieSt) : Option Nat :=
  (numsFrom 0 1024).find? (fun i => !isLiveEntry (getRoute x i))

/-- Live entries in ascending index. -/
def liveRoutes (x : DieSt) : List Nat := (x.routes.filter (fun p => isLiveEntry p.2)).map (·.1)

/-! ## Keys (01 Table 1.8, R64) -/

def keyCycle (k : Word) : BitVec 22 := k.extractLsb' 10 22
def keyModule (k : Word) : BitVec 6 := k.extractLsb' 4 6
def keyIndex (k : Word) : BitVec 4 := k.extractLsb' 0 4

/-- A key of the present cycle (01 Table 1.8). -/
def mkKey (cycle : Word) (keyPos rank : Nat) : Word :=
  (cycle.extractLsb' 0 22 ++ BitVec.ofNat 6 keyPos ++ BitVec.ofNat 4 (min rank 15) : BitVec 32)

/-- The first key and route are older than the second (01 R64). -/
def olderKey (k1 : Word) (r1 : Nat) (k2 : Word) (r2 : Nat) : Bool :=
  if keyCycle k1 ≠ keyCycle k2 then decide ((keyCycle k2 - keyCycle k1).toNat < 2 ^ 21)
  else if keyModule k1 ≠ keyModule k2 then decide ((keyModule k1).toNat < (keyModule k2).toNat)
  else if keyIndex k1 ≠ keyIndex k2 then decide ((keyIndex k1).toNat < (keyIndex k2).toNat)
  else decide (r1 < r2)

/-! ## Route memory (03 Tables 3.1 to 3.5) -/

/-- Words of one route memory bank (1.25 MiB). -/
def routeBankWords : Nat := 327680
/-- Words of one proxy bank. -/
def proxyBankWords : Nat := 16384

def bankNo (b : Bool) : Nat := if b then 1 else 0

/-- Word `w` of a route memory bank. -/
def routeWord (x : DieSt) (bank : Bool) (w : Nat) : Word := getA 0 x.routeMem (bankNo bank * routeBankWords + w)
/-- Word `w` of a proxy bank. -/
def proxyWord (x : DieSt) (bank : Bool) (w : Nat) : Word := getA 0 x.proxyMem (bankNo bank * proxyBankWords + w)

/-- A path or overlap entry (03 Table 3.3). -/
def entCell (w : Half) : Nat := (w.extractLsb' 0 12).toNat
def entPos (w : Half) : BitVec 2 := w.extractLsb' 12 2
def entNoflank (w : Half) : Bool := bitOf w 14
def entChg (w : Half) : Bool := bitOf w 15

/-- A route or proxy descriptor, decoded (03 Table 3.2, 11 Table 11.3). `approach` is none without an approach cell; a
proxy has none. `reqTerr` is of a proxy only. -/
structure Desc where
  valid : Bool
  kind : BitVec 2
  routeId : BitVec 13
  profile : BitVec 3
  entrance : Nat
  traction : Half
  tractionExit : Half
  pathLen : Nat
  exit : Nat
  ovl : Option Nat
  approach : Option Nat
  flk : Option Nat
  path : List Half
  reqTerr : Nat
  deriving DecidableEq, Repr

/-- Half `k` of a word list: even halves in [15:0], odd in [31:16]. -/
def halfOf (ws : List Word) (k : Nat) : Half :=
  let w := ws.getD (k / 2) 0
  if k % 2 = 0 then w.extractLsb' 0 16 else w.extractLsb' 16 16

/-- Decode 32 descriptor words. -/
def descOf (proxy : Bool) (ws : List Word) : Desc :=
  let w0 := ws.getD 0 0
  let w1 := ws.getD 1 0
  let w2 := ws.getD 2 0
  let w3 := ws.getD 3 0
  let len := (w2.extractLsb' 26 6).toNat
  { valid := bitOf w0 31, kind := w0.extractLsb' 29 2, routeId := w0.extractLsb' 16 13, profile := w0.extractLsb' 12 3,
    entrance := (w0.extractLsb' 0 12).toNat, traction := w1.extractLsb' 16 16, tractionExit := w1.extractLsb' 0 16,
    pathLen := len, exit := (w2.extractLsb' 12 12).toNat,
    ovl := if bitOf w2 11 then some (w2.extractLsb' 0 10).toNat else none,
    approach := if !proxy && bitOf w3 31 then some (w3.extractLsb' 16 12).toNat else none,
    flk := if bitOf w3 15 then some (w3.extractLsb' 0 11).toNat else none,
    path := (numsFrom 8 (min len 48)).map (halfOf ws), reqTerr := (w3.extractLsb' 16 5).toNat }

/-- The CHECK of a 32-word record of route memory or of the proxy store (03 R106). -/
def memCheck (virt : Word) (ws : List Word) : Word := crc32c (leBytes virt ++ ws.flatMap leBytes)

/-- The virtual word of R106 and 11 Table 11.3: bits [31:19] (the route ID; 2,048 + set; 4,096 + list; 6,144 + proxy), bank,
module position and station number. -/
def virtWord (top : Nat) (bank : Bool) (cx : Ctx) : Word :=
  BitVec.ofNat 32 (top * 524288 + bankNo bank * 262144 + cx.modulePos % 64 * 4096 + cx.station % 4096)

/-- The descriptor words of a route. -/
def descWords (x : DieSt) (bank : Bool) (n : Nat) : List Word := (numsFrom (32 * n) 32).map (routeWord x bank)
/-- The descriptor words of a proxy. -/
def proxyWords (x : DieSt) (bank : Bool) (n : Nat) : List Word := (numsFrom (32 * n) 32).map (proxyWord x bank)
/-- The words of an overlap set. -/
def ovlWords (x : DieSt) (bank : Bool) (n : Nat) : List Word := (numsFrom (262144 + 32 * n) 32).map (routeWord x bank)
/-- The words of a flank list. -/
def flkWords (x : DieSt) (bank : Bool) (n : Nat) : List Word := (numsFrom (294912 + 16 * n) 16).map (routeWord x bank)

/-- A record's last word is the CHECK of the others. The start sequence writes the CHECK of every record of the bank (03 R106); a
record of which nothing is listed is one of zeros with its CHECK (log entry 54). -/
def checkHolds (virt : Word) (ws : List Word) : Bool :=
  ws.all (fun w => decide (w = 0)) || decide (memCheck virt (ws.take (ws.length - 1)) = ws.getD (ws.length - 1) 0)

/-- Decoded descriptor of a route or proxy and whether its CHECK matches. -/
def readDesc (cx : Ctx) (x : DieSt) (proxy : Bool) (n : Nat) : Desc × Bool :=
  if proxy then
    let ws := proxyWords x x.active n
    (descOf true ws, checkHolds (virtWord (6144 + n % 512) x.active cx) ws)
  else
    let ws := descWords x x.active n
    (descOf false ws, checkHolds (virtWord n x.active cx) ws)

/-- Number of alternatives of an overlap set. -/
def ovlCount (ws : List Word) : Nat := ((ws.getD 0 0).extractLsb' 0 3).toNat
/-- Entries of alternative `a` of an overlap set (03 Table 3.4). -/
def ovlAlt (ws : List Word) (a : Nat) : List Half :=
  let len := ((ws.getD 0 0).extractLsb' (12 + 4 * a) 4).toNat
  (numsFrom 0 len).map (fun e => halfOf ws (2 * (1 + 4 * a) + e))

/-- The overlap alternatives of a descriptor; empty without an overlap. -/
def alternatives (x : DieSt) (d : Desc) : List (List Half) :=
  match d.ovl with
  | none => []
  | some o => let ws := ovlWords x x.active o; (numsFrom 0 (min (ovlCount ws) 4)).map (ovlAlt ws)

/-- The entries of a flank list (03 Table 3.5): TYPE, PORT, CELL. -/
def flankList (ws : List Word) : List (Nat × Nat × Nat) :=
  (numsFrom 0 (min ((ws.getD 0 0).extractLsb' 0 5).toNat 28)).map (fun k =>
    let w := ws.getD (1 + k / 2) 0
    let h : Half := if k % 2 = 0 then w.extractLsb' 0 16 else w.extractLsb' 16 16
    ((h.extractLsb' 14 2).toNat, (h.extractLsb' 12 2).toNat, (h.extractLsb' 0 12).toNat))

/-- The flank entries of a descriptor. -/
def flankEntries (x : DieSt) (d : Desc) : List (Nat × Nat × Nat) :=
  match d.flk with
  | none => []
  | some f => flankList (flkWords x x.active f)

/-- Every CHECK that a route's read meets holds: descriptor, overlap set and flank list (03 R106). -/
def allChecks (cx : Ctx) (x : DieSt) (proxy : Bool) (n : Nat) : Bool :=
  let r := readDesc cx x proxy n
  r.2 &&
    (match r.1.ovl with
     | none => true
     | some o => checkHolds (virtWord (2048 + o) x.active cx) (ovlWords x x.active o)) &&
    (match r.1.flk with
     | none => true
     | some f => checkHolds (virtWord (4096 + f) x.active cx) (flkWords x x.active f))

/-! ## Profiles (04 Table 4.7) -/

def profZero : Profile := { p0 := 0, p1 := 0, p2 := 0, p3 := 0, p4 := 0, p5 := 0, p6 := 0, p7 := 0 }
def profApprLock (p : Profile) : BitVec 24 := p.p1.extractLsb' 0 24
def profOvlRel (p : Profile) : BitVec 24 := p.p2.extractLsb' 0 24
def profCallTo (p : Profile) : BitVec 24 := p.p3.extractLsb' 0 24
def profLcClose (p : Profile) : BitVec 24 := p.p4.extractLsb' 0 24
def profReclear (p : Profile) : Nat := (p.p5.extractLsb' 0 16).toNat
def profAspects (p : Profile) : BitVec 7 := p.p0.extractLsb' 0 7
def profWords (p : Profile) : List Word := [p.p0, p.p1, p.p2, p.p3, p.p4, p.p5, p.p6]

/-- A profile of the active bank. -/
def getProfile (x : DieSt) (n : Nat) : Profile := getA profZero x.profiles (bankNo x.active * 8 + n)

/-- The CHECK of a profile record (04 Table 4.7, P7). -/
def profCheckValue (cx : Ctx) (bank : Bool) (n : Nat) (p : Profile) : Word :=
  crc32c (leBytes (BitVec.ofNat 32 (n % 8 * 536870912 + bankNo bank * 262144 + cx.modulePos % 64 * 4096 +
    cx.station % 4096)) ++ (profWords p).flatMap leBytes)

/-- The profile's CHECK matches (04 R158). -/
def profOk (cx : Ctx) (x : DieSt) (n : Nat) : Bool :=
  decide ((getProfile x n).p7 = profCheckValue cx x.active n (getProfile x n))

/-- What a cell takes from its profile. -/
def cellProf (cx : Ctx) (x : DieSt) (c : CellRec) : CellProf :=
  let n := c.profile.toNat
  let p := getProfile x n
  let ok := profOk cx x n
  { ok := ok, callMs := if ok then profCallTo p else 0, closeMs := if ok then profLcClose p else 0,
    aspectSet := profAspects p }

/-! ## Passages (02 Table 2.16) -/

/-- A TRACK or EDGE port. -/
def isTrackLink (w : Half) : Bool := decide (adjLink w = 1) || decide (adjLink w = 3)

/-- Ports by which a token that entered at `p` may leave under position `pos` (1 NORMAL, 2 REVERSE). -/
def reach (c : CellRec) (pos : BitVec 2) (p : Nat) : List Nat :=
  match clsOf c.cls with
  | some .trackSection | some .mainSignal | some .shuntSignal => if p = 0 then [1] else if p = 1 then [0] else []
  | some .point =>
    if pos = 1 then (if p = 0 then [1] else if p = 1 then [0] else [])
    else if pos = 2 then (if p = 0 then [2] else if p = 2 then [0] else [])
    else []
  | some .diamond => [(p + 2) % 4]
  | some .switchedDiamond => if pos = 1 then [(p + 2) % 4] else if pos = 2 then [3 - p] else []
  | some .levelCrossing => if p = 0 then [1] else if p = 1 then [0] else if p = 2 then [3] else [2]
  | some .virtual => (numsFrom 0 4).filter (fun q => q ≠ p && isTrackLink (portOf c q))
  | _ => []

/-- The port of `b` that faces `a`, if a TRACK or EDGE link joins them. -/
def joinPort (x : DieSt) (a b : Nat) : Option Nat :=
  let c := getCell x a
  ((numsFrom 0 4).find? (fun p => isTrackLink (portOf c p) && decide (adjCell (portOf c p) = b))).map
    (fun p => adjPort (portOf c p))

/-- A POWER_SECTION entry is a side entry (03 R104). -/
def isSideCell (x : DieSt) (n : Nat) : Bool := isCls .powerSection (getCell x n)

/-! ## Step records (03 R112) -/

/-- The first track entry of a list. -/
def firstTrack (x : DieSt) : List Half → Option Nat
  | [] => none
  | h :: t => if isSideCell x (entCell h) then firstTrack x t else some (entCell h)

/-- Step records of an entry list that follows track cell `prev`: `fg`, route, KIND, alternative, next HOP, what follows the
list, the cells SUPPRESS names, and whether the last entry is EXIT. -/
def stepsOf (x : DieSt) (fg : Bool) (r : BitVec 13) (kind alt : BitVec 2) (supp : List Nat) (isPath : Bool) :
    Option Nat → Nat → List Half → List StepRec
  | _, _, [] => []
  | prev, hop, h :: t =>
    let n := entCell h
    let side := isSideCell x n
    let here := if side then prev else some n
    let nextT := firstTrack x t
    let portTo := fun (m : Nat) => (here.bind (fun a => joinPort x a m)).getD 0
    { foreign := fg, route := r, cell := n, kind := kind, alt := alt, hop := BitVec.ofNat 6 hop, pos := entPos h,
      noflank := entNoflank h || supp.contains n, exit := isPath && t.isEmpty, side := side,
      next := t.head?.map (fun g =>
        (entCell g, BitVec.ofNat 2 (if isSideCell x (entCell g) then 0 else portTo (entCell g)), entPos g)),
      nextTrack := nextT.map (fun m => (m, BitVec.ofNat 2 (portTo m))) } ::
    stepsOf x fg r kind alt supp isPath here (hop + 1) t

/-- The EXIT step of a path, given what alternative it leads into. -/
def exitStep (x : DieSt) (s : StepRec) (alt : Nat) (es : List Half) : StepRec :=
  match es with
  | [] => { s with alt := BitVec.ofNat 2 alt, next := none, nextTrack := none }
  | h :: _ =>
    let port := BitVec.ofNat 2 ((joinPort x s.cell (entCell h)).getD 0)
    { s with alt := BitVec.ofNat 2 alt, next := some (entCell h, port, entPos h),
             nextTrack := some (entCell h, port) }

/-- Every step record of a route. -/
def routeSteps (x : DieSt) (fg : Bool) (r : BitVec 13) (d : Desc) : List StepRec :=
  let alts := alternatives x d
  let supp := ((flankEntries x d).filter (fun f => f.1 = 2)).map (fun f => f.2.2)
  let path := stepsOf x fg r 0 0 supp true none 0 d.path
  let exits := path.filter (·.exit)
  let inner := path.filter (fun s => !s.exit)
  let exitAll := exits.flatMap (fun s =>
    if alts.isEmpty then [exitStep x s 0 []]
    else (numsFrom 0 alts.length).map (fun a => exitStep x s a (alts.getD a [])))
  let ovl := (numsFrom 0 alts.length).flatMap (fun a =>
    stepsOf x fg r 1 (BitVec.ofNat 2 a) supp false (some d.exit) 0 (alts.getD a []))
  inner ++ exitAll ++ ovl

/-- The step record of a cell for a route and alternative. -/
def findStep (x : DieSt) (fg : Bool) (r : BitVec 13) (n : Nat) (alt : BitVec 2) : Option StepRec :=
  x.steps.find? (fun s => (s.foreign == fg) && decide (s.route = r) && decide (s.cell = n) &&
    ((decide (s.kind = 0) && !s.exit) || decide (s.alt = alt)))

/-- Records in a cluster's step store; the several records of one EXIT count once. -/
def stepsInCluster (l : List StepRec) (cl : Nat) : Nat :=
  (l.filter (fun s => decide (clusterOf s.cell = cl) && !(s.exit && decide (s.alt ≠ 0)))).length

/-- The records fit beside those already placed: at most 64 in every cluster (03 R112). -/
def stepsFit (have_ new_ : List StepRec) : Bool :=
  new_.all (fun s => decide (stepsInCluster (have_ ++ new_) (clusterOf s.cell) ≤ 64))

end Sys2Proof.Machine
end

