-- ==== Sys2Proof/Machine/Transport.lean ====
section
/-!
DEFINITION. The transport of tokens in a die: outboxes, cluster crossbars, region switches, spine queues and credits (01 R25 to
R47), and the route directory that replies use (03 R109). One `netClock` moves every token that is granted by one stage; `carry`
runs clocks until a token has been accepted by its destination cell.
-/

namespace Sys2Proof.Machine

/-! ## Physical places (01 R32) -/

/-- Physical cluster of a logical cluster (01 R32). -/
def physOf (g : RegionSt) (l : Nat) : Nat :=
  let v := getA 99 g.map l
  if v = 99 then l else v

/-- Logical cluster that a physical cluster holds. -/
def logicalOf (g : RegionSt) (p : Nat) : Option Nat := (numsFrom 0 16).find? (fun l => decide (physOf g l = p))

/-- Number of the physical cluster of cluster `cl` of the die: region × 17 + physical cluster. -/
def physCluster (x : DieSt) (cl : Nat) : Nat :=
  cl / 16 % 16 * 17 + (match x.regions.toList[cl / 16 % 16]? with
    | some g => physOf g (cl % 16)
    | none => cl % 16)

/-- Number of the physical cell of cell `n`. -/
def physCell (x : DieSt) (n : Nat) : Nat := physCluster x (clusterOf n) * 16 + n % 16

/-- A region is halted: its cells and its engine take no part (01 R39; 04 R146 concerns the pair only). -/
def regHalted (x : DieSt) (r : Nat) : Bool :=
  match x.regions.toList[r]? with
  | some g => g.halted
  | none => false

/-! ## Outboxes (01 R30, 10 Table 10.2) -/

/-- The token whose bits are all 0. -/
def tokenZero : Token :=
  { typ := 0, route := 0, dest := 0, dport := 0, kind := 0, hop := 0, pos := 0, alt := 0, reason := 0, origin := 0 }

def outboxDepth : Nat := 4
def outboxWm : Nat := 4

/-- The outbox of cell `n`. -/
def outboxOf (x : DieSt) (n : Nat) : Spool Token := getA (spEmpty tokenZero) x.outboxes (physCell x n)
def putOutbox (n : Nat) (p : Spool Token) (x : DieSt) : DieSt :=
  { x with outboxes := putA (spEmpty tokenZero) (physCell x n) p x.outboxes }

/-- Cell `n` is stalled: its outbox is full or a write of it waits (01 R30). -/
def cellStalled (x : DieSt) (n : Nat) : Bool :=
  spFull outboxDepth (outboxOf x n) || !(outboxOf x n).stalled.isEmpty

/-- Put tokens into the outbox of cell `n`; the writes beyond its depth wait (10 R318). -/
def emitFrom (n : Nat) (ts : List Token) (x : DieSt) : DieSt :=
  if ts.isEmpty then x else putOutbox n (ts.foldl (fun p t => spBack outboxDepth outboxWm t p) (outboxOf x n)) x

/-- Broadcast tokens (03 Table 3.9, R109): COMMIT and RELEASE with HOP 0x3F, RELEASE of KIND OVERLAP, and every CANCEL but one that
is addressed to a cell of a proxy's walk (11 R343). They need no path: each acts in every cell within 24 clocks. -/
def isBroadcast (t : Token) : Bool :=
  ((decide (t.typ = 0x4) || decide (t.typ = 0x9)) && decide (t.hop = 0x3F)) ||
    (decide (t.typ = 0x9) && decide (t.kind = 1)) ||
    (decide (t.typ = 0xA) && (decide (t.kind ≠ 3) || decide (t.hop = 0x3F)))

/-- Tokens sent by the engine of a region. -/
def emitEngine (r : Nat) (ts : List Token) (x : DieSt) : DieSt :=
  { x with flights := x.flights ++ ts.map (fun t => { tok := t, place := .engine r }) }

/-- Every token of the die that has not acted: in an outbox, waiting for one, or on its way. -/
def tokensOf (x : DieSt) : List Token :=
  x.outboxes.flatMap (fun p => p.2.items ++ p.2.stalled) ++ x.flights.map (·.tok)

/-- The die is quiet: no token in any outbox, crossbar, region switch or spine queue (03 R110). -/
def isQuiet (x : DieSt) : Bool := x.flights.isEmpty && x.outboxes.all (fun p => p.2.items.isEmpty && p.2.stalled.isEmpty)

/-! ## Grants (01 R28, R33) -/

/-- Requesters granted, in the order they are asked: at most `k`, to distinct destinations. -/
def grants (want : Nat → Option Nat) : Nat → List Nat → List Nat → List Nat
  | _, _, [] => []
  | 0, _, _ => []
  | k + 1, used, q :: t =>
    match want q with
    | none => grants want (k + 1) used t
    | some d => if used.contains d then grants want (k + 1) used t else q :: grants want k (d :: used) t

/-- Requesters from a round-robin pointer on. -/
def fromPointer (n ptr : Nat) : List Nat := (numsFrom 0 n).map (fun k => (ptr + k) % n)

/-- The pointer after a clock: past the last requester granted. -/
def nextPointer (n ptr : Nat) (granted : List Nat) : Nat :=
  match granted.getLast? with
  | none => ptr
  | some q => (q + 1) % n

/-! ## One clock -/

def destCell (t : Token) : Nat := t.dest.toNat
def destRegion (t : Token) : Nat := regionOf (destCell t)
def destCluster (t : Token) : Nat := clusterOf (destCell t)

/-- The first flight at a place. -/
def headAt (p : TokPlace) : List Flight → Option Flight
  | [] => none
  | f :: l => if f.place = p then some f else headAt p l

/-- Take the first flight of a token at a place away. -/
def dropFlight (f : Flight) : List Flight → List Flight
  | [] => []
  | g :: l => if g = f then l else g :: dropFlight f l

/-- Move a flight to another place, behind what rests there. -/
def moveFlight (f : Flight) (p : TokPlace) (x : DieSt) : DieSt :=
  { x with flights := dropFlight f x.flights ++ [{ f with place := p }] }

/-- The head of requester `q` of the crossbar of cluster `cl`: a cell's outbox, or the ingress of the cluster's port. -/
def xbarHead (x : DieSt) (cl q : Nat) : Option Token :=
  if q < 16 then (outboxOf x (cl * 16 + q)).items.head? else (headAt (.downlink cl) x.flights).map (·.tok)

/-- Destination of a token in the crossbar of its cluster: a cell, or the egress of the port where it is free. -/
def xbarWant (x : DieSt) (cl q : Nat) : Option Nat :=
  match xbarHead x cl q with
  | none => none
  | some t =>
    if destCluster t = cl then some (destCell t % 16)
    else if (headAt (.uplink cl) x.flights).isNone then some 16 else none

/-- A granted requester's token leaves for its destination. -/
def xbarMove (x : DieSt) (cl : Nat) (y : DieSt) (q : Nat) : DieSt :=
  match xbarHead x cl q with
  | none => y
  | some t =>
    let place := if destCluster t = cl then TokPlace.cell (destCell t) else .uplink cl
    if q < 16 then
      let n := cl * 16 + q
      let y1 := putOutbox n (spTake outboxDepth outboxWm (outboxOf y n)).2 y
      { y1 with flights := y1.flights ++ [{ tok := t, place := place }] }
    else moveFlight { tok := t, place := .downlink cl } place y

/-- The crossbar of a cluster in one clock (01 R28): at most four tokens, to distinct destinations. -/
def xbarClock (x y : DieSt) (cl : Nat) : DieSt :=
  let ptr := getA 0 x.xbarPtr (physCluster x cl)
  let gr := grants (xbarWant x cl) 4 [] (fromPointer 17 ptr)
  let z := gr.foldl (xbarMove x cl) y
  { z with xbarPtr := putA 0 (physCluster x cl) (nextPointer 17 ptr gr) z.xbarPtr }

/-- Tokens in the spine egress queue of a region. -/
def egressOf (x : DieSt) (r : Nat) : List Flight := x.flights.filter (fun f => decide (f.place = .egress r))

/-- Credits of the ordered pair (01 R42). -/
def creditOf (x : DieSt) (a b : Nat) : Nat := getA 8 x.credits (16 * a + b)
def setCredit (a b n : Nat) (x : DieSt) : DieSt := { x with credits := putA 8 (16 * a + b) n x.credits }

/-- The spine port's head: the oldest token of the region's inbox. -/
def inboxHead (r : Nat) : List Flight → Option Flight
  | [] => none
  | f :: l =>
    match f.place with
    | .inbox b _ => if b = r then some f else inboxHead r l
    | _ => inboxHead r l

/-- The head of port `q` of the switch of region `r`: the 17 cluster ports by physical cluster, the spine port, and the tokens of
the region's route engine. DESIGN CHOICE (log entry 47): the spec names no port for the engine; its tokens enter at the switch. -/
def switchHead (x : DieSt) (r q : Nat) : Option Flight :=
  if q < 17 then
    match x.regions.toList[r]? with
    | none => none
    | some g =>
      match logicalOf g q with
      | none => none
      | some l => headAt (.uplink (r * 16 + l)) x.flights
  else if q = 17 then inboxHead r x.flights
  else headAt (.engine r) (x.flights.filter (fun f => !isBroadcast f.tok))

/-- Destination of a token in a region switch: the ingress of a cluster's port, where it is free, or the spine port. -/
def switchWant (x : DieSt) (r q : Nat) : Option Nat :=
  match switchHead x r q with
  | none => none
  | some f =>
    if destRegion f.tok ≠ r then some 256
    else if (headAt (.downlink (destCluster f.tok)) x.flights).isNone then some (destCluster f.tok) else none

/-- A granted port's token moves on; a token taken out of the inbox returns its credit (01 R42). -/
def switchMove (x : DieSt) (r : Nat) (y : DieSt) (q : Nat) : DieSt :=
  match switchHead x r q with
  | none => y
  | some f =>
    let y1 := moveFlight f (if destRegion f.tok ≠ r then .egress r else .downlink (destCluster f.tok)) y
    match f.place with
    | .inbox _ a => setCredit a r (min 8 (creditOf y1 a r + 1)) y1
    | _ => y1

/-- The switch of a region in one clock (01 R33): at most four tokens, one for each destination; a full egress queue stalls it
(01 R44). -/
def switchClock (x y : DieSt) (r : Nat) : DieSt :=
  if 32 ≤ (egressOf x r).length then y
  else
    let ptr := getA 0 x.switchPtr r
    let gr := grants (switchWant x r) 4 [] (fromPointer 19 ptr)
    let z := gr.foldl (switchMove x r) y
    { z with switchPtr := putA 0 r (nextPointer 19 ptr gr) z.switchPtr }

/-- The token that a region's egress queue sends next: the oldest whose destination holds a credit (01 R44). -/
def egressHead (x : DieSt) (r : Nat) : Option Flight :=
  (egressOf x r).find? (fun f => decide (0 < creditOf x r (destRegion f.tok)))

/-- A token crosses the spine: it spends a credit and enters the inbox; a halted destination discards it and returns the credit
at once (01 R39, R42). -/
def spineMove (x : DieSt) (y : DieSt) (a : Nat) : DieSt :=
  match egressHead x a with
  | none => y
  | some f =>
    let b := destRegion f.tok
    if regHalted x b then { y with flights := dropFlight f y.flights }
    else setCredit a b (creditOf y a b - 1) (moveFlight f (.inbox b a) y)

/-- The spine in one clock: one token out of each region and one into each region (01 R41). DESIGN CHOICE (log entry 47): where
several regions send to one, a round-robin pointer decides. -/
def spineClock (x y : DieSt) : DieSt :=
  let gr := grants (fun a => (egressHead x a).map (fun f => destRegion f.tok)) 16 [] (fromPointer 16 x.spinePtr)
  { gr.foldl (spineMove x) y with spinePtr := nextPointer 16 x.spinePtr gr }

/-- Logical cluster of the die that a physical cluster (region × 17 + cluster) holds. -/
def clusterHeld (x : DieSt) (k : Nat) : Option Nat :=
  (x.regions.toList[k / 17]?).bind (fun g => (logicalOf g (k % 17)).map (fun l => k / 17 * 16 + l))

/-- Clusters whose crossbar has something to move, in ascending order. -/
def busyClusters (x : DieSt) : List Nat :=
  let held := x.outboxes.filterMap (fun p => if p.2.items.isEmpty then none else clusterHeld x (p.1 / 16)) ++
    x.flights.filterMap (fun f => match f.place with
      | .downlink cl => some cl
      | _ => none)
  (numsFrom 0 256).filter (fun cl => held.contains cl && !regHalted x (cl / 16))

/-- Regions whose switch has something to move, in ascending order. -/
def busyRegions (x : DieSt) : List Nat :=
  let held := x.flights.filterMap (fun f => match f.place with
    | .uplink cl => some (cl / 16 % 16)
    | .inbox r _ => some r
    | .engine r => if isBroadcast f.tok then none else some r
    | _ => none)
  (numsFrom 0 16).filter (fun r => held.contains r && !regHalted x r)

/-- One clock of the die's transport; every stage takes the state at the clock's start. -/
def netClock (x : DieSt) : DieSt :=
  (busyClusters x).foldl (xbarClock x) ((busyRegions x).foldl (switchClock x) (spineClock x x))

/-- The token rests accepted at its destination cell. -/
def hasArrived (x : DieSt) (t : Token) : Bool :=
  x.flights.any (fun f => decide (f = { tok := t, place := .cell (destCell t) }))

/-- Run clocks until the token has arrived at its destination cell. -/
def carry (t : Token) : Nat → DieSt → DieSt
  | 0, x => x
  | k + 1, x => if hasArrived x t || !(tokensOf x).contains t then x else carry t k (netClock x)

/-- Clocks within which every token of an unblocked die arrives. -/
def netFuel (x : DieSt) : Nat := 6 * (tokensOf x).length + 6

/-- Run clocks until no cell is stalled. -/
def unstall : Nat → DieSt → DieSt
  | 0, x => x
  | k + 1, x => if x.outboxes.all (fun p => !spFull outboxDepth p.2 && p.2.stalled.isEmpty) then x else unstall k (netClock x)

/-- Tokens that rest in the outboxes of the cells of region `r`, or wait for one. -/
def outboxTokens (x : DieSt) (r : Nat) : Nat :=
  ((x.outboxes.filter (fun p => decide (p.1 / 272 = r))).map (fun p => p.2.items.length + p.2.stalled.length)).sum

/-- A broadcast token that its engine has sent: the flight and the rest. -/
def takeBroadcast (t : Token) : List Flight → Option (List Flight)
  | [] => none
  | f :: l =>
    if f.tok = t && (match f.place with | .engine _ => true | _ => false) then some l
    else (takeBroadcast t l).map (f :: ·)

/-- The die after the clocks that token `t` runs, before it acts. -/
def transportFor (t : Token) (x : DieSt) : DieSt :=
  if isBroadcast t then if (takeBroadcast t x.flights).isNone then x else unstall (netFuel x) x else carry t (netFuel x) x

/-! ## Discards (01 R39, R47) -/

/-- Every token is discarded and the credits are restored (01 R47); the outboxes keep their last values. -/
def discardTokens (x : DieSt) : DieSt :=
  { x with flights := [], credits := [], outboxes := mapA (spEmpty tokenZero) (fun _ p => spDrop p) x.outboxes }

/-- Region that holds a place, and the place is not the inbox. -/
def placeRegion : TokPlace → Nat
  | .engine r => r
  | .uplink cl => cl / 16 % 16
  | .downlink cl => cl / 16 % 16
  | .egress r => r
  | .inbox r _ => r
  | .cell n => regionOf n

/-- What a halt does to the transport of region `r`: it runs nothing, so the tokens that rest in it are discarded, and its spine
port returns the credits of its inbox (01 R38, R39). -/
def dropRegion (r : Nat) (x : DieSt) : DieSt :=
  { x with flights := x.flights.filter (fun f => decide (placeRegion f.place ≠ r)),
           credits := (numsFrom 0 16).foldl (fun m a => putA 8 (16 * a + r) 8 m) x.credits,
           outboxes := mapA (spEmpty tokenZero) (fun k p => if k / 272 = r then spDrop p else p) x.outboxes }

/-! ## The route directory (03 R109) -/

/-- Directory record of a live entry of a route or proxy. -/
def dirOf (x : DieSt) (fg : Bool) (r : BitVec 13) : Option DirEntry :=
  x.directory.findSome? (fun p => if (p.2.foreign == fg) && decide (p.2.route = r) then some p.2 else none)

/-- The directory record of an entry, from its descriptor or proxy. -/
def dirEntry (cx : Ctx) (x : DieSt) (e : RouteEntry) : DirEntry :=
  let d := (readDesc cx x (isProxy e) e.routeId.toNat).1
  { foreign := isProxy e, route := e.routeId, key := e.key, entrance := d.entrance, exit := d.exit }

/-- Put entry `i` into the directory. -/
def listRoute (cx : Ctx) (i : Nat) (x : DieSt) : DieSt :=
  { x with directory := (x.directory.filter (fun p => decide (p.1 < i))) ++ [(i, dirEntry cx x (getRoute x i))] ++
      x.directory.filter (fun p => decide (i < p.1)) }

/-- Take entry `i` out of the directory. -/
def unlistRoute (i : Nat) (x : DieSt) : DieSt := { x with directory := x.directory.filter (fun p => decide (p.1 ≠ i)) }

/-- Rebuild the directory from the route table (06 R218, 12 R367). -/
def rebuildDirectory (cx : Ctx) (x : DieSt) : DieSt :=
  { x with directory := (liveRoutes x).map (fun i => (i, dirEntry cx x (getRoute x i))) }

/-- ENTRANCE of a live route, or FIRST of a live proxy: where its replies go. Without a record a reply of cell `n` goes no
further than the cell, and the engines ignore it. -/
def entranceOf (x : DieSt) (fg : Bool) (r : BitVec 13) (n : Nat) : Nat :=
  match dirOf x fg r with
  | some q => q.entrance
  | none => n

end Sys2Proof.Machine
end

