-- ==== Sys2Proof/Machine/Fabric.lean ====
section
/-!
DEFINITION. The route fabric's tokens (03 Tables 3.8 to 3.13): what a cell does with each token, and what the
route engines do with each reply.
-/

namespace Sys2Proof.Machine

/-! ## Token types and reasons (03 Tables 3.9, 3.14) -/

def tyPROBE : BitVec 4 := 0x1
def tyHOLD : BitVec 4 := 0x2
def tyNACK : BitVec 4 := 0x3
def tyCOMMIT : BitVec 4 := 0x4
def tyACK : BitVec 4 := 0x5
def tySEEK : BitVec 4 := 0x6
def tyFOUND : BitVec 4 := 0x7
def tyNONE : BitVec 4 := 0x8
def tyRELEASE : BitVec 4 := 0x9
def tyCANCEL : BitVec 4 := 0xA

def kPATH : BitVec 2 := 0
def kOVERLAP : BitVec 2 := 1
def kFLANK : BitVec 2 := 2
def kFOREIGN : BitVec 2 := 3

def hopQuery : BitVec 6 := 0x3E
def hopAll : BitVec 6 := 0x3F

def rnNONE : BitVec 8 := 0x00
def rnCONFLICT : BitVec 8 := 0x01
def rnLOCKED : BitVec 8 := 0x02
def rnBLOCKED : BitVec 8 := 0x03
def rnUNKNOWN : BitVec 8 := 0x04
def rnOCCUPIED : BitVec 8 := 0x05
def rnIMMOVABLE : BitVec 8 := 0x06
def rnZONE : BitVec 8 := 0x07
def rnFLANKCONFLICT : BitVec 8 := 0x08
def rnFLANKLIMIT : BitVec 8 := 0x09
def rnFLANKEDGE : BitVec 8 := 0x0A
def rnOVERLAP : BitVec 8 := 0x0B
def rnTOPOLOGY : BitVec 8 := 0x0C
def rnDESCRIPTOR : BitVec 8 := 0x0D
def rnCAPACITY : BitVec 8 := 0x0E
def rnSTEPFULL : BitVec 8 := 0x0F
def rnBUDGET : BitVec 8 := 0x10
def rnREMOTETIMEOUT : BitVec 8 := 0x11
def rnREMOTELOST : BitVec 8 := 0x12
def rnDUPLICATE : BitVec 8 := 0x13
def rnMODE : BitVec 8 := 0x14
def rnREFUSED : BitVec 8 := 0x15
def rnCANCELLED : BitVec 8 := 0x16
def rnCALLFAILED : BitVec 8 := 0x17
def rnLOCKLOST : BitVec 8 := 0x18
def rnNOTALLOWED : BitVec 8 := 0x19

/-- A retryable reason (03 Table 3.14); every other code is a final refusal. -/
def retryable (r : BitVec 8) : Bool :=
  [rnCONFLICT, rnLOCKED, rnUNKNOWN, rnOCCUPIED, rnFLANKCONFLICT, rnFLANKLIMIT, rnOVERLAP, rnSTEPFULL, rnBUDGET].contains r

/-- The reason that stands of two that a route received in one wave: a final one prevails (00 R520), else the lower code. -/
def joinReason (a : Option (BitVec 8)) (b : BitVec 8) : BitVec 8 :=
  match a with
  | none => b
  | some a =>
    if retryable a && !retryable b then b else if retryable b && !retryable a then a
    else if b.toNat < a.toNat then b else a

/-- A token's kind is FOREIGN. -/
def isForeign (t : Token) : Bool := decide (t.kind = kFOREIGN)

/-! ## Tokens -/

/-- The engine entry a token names. -/
def tokRoute (x : DieSt) (t : Token) : Option Nat := findRoute x (isForeign t) t.route

/-- A reply of cell `n` to the entrance of the token's route, by the route directory (03 R109). -/
def replyTok (x : DieSt) (n : Nat) (t : Token) (typ : BitVec 4) (reason : BitVec 8) : Token :=
  { t with typ := typ, dest := BitVec.ofNat 12 (entranceOf x (isForeign t) t.route n), reason := reason,
           origin := BitVec.ofNat 12 n }

/-- A NACK to another route, of whose marks one stands in the way. -/
def nackTo (x : DieSt) (n : Nat) (fg : Bool) (r : BitVec 13) (reason : BitVec 8) : Token :=
  { typ := tyNACK, route := r, dest := BitVec.ofNat 12 (entranceOf x fg r n), dport := 0,
    kind := if fg then kFOREIGN else kPATH, hop := 0, pos := 0, alt := 0, reason := reason,
    origin := BitVec.ofNat 12 n }

/-! ## Marks and locks of a cell -/

/-- A mark belongs to the route (11 R343: FOREIGN and local marks apart). -/
def markOfRoute (fg : Bool) (r : BitVec 13) (m : Half) : Bool :=
  markValid m && (decide (markKind m = kFOREIGN) == fg) && decide (markRoute m = r)

/-- Ports of the cell that carry a valid mark of the route. -/
def marksOf (c : CellRec) (fg : Bool) (r : BitVec 13) : List Nat :=
  (numsFrom 0 4).filter (fun p => markOfRoute fg r (markOf c p))

/-- The other routes with a valid mark on the cell. -/
def otherMarks (c : CellRec) (fg : Bool) (r : BitVec 13) : List (Bool × BitVec 13) :=
  (((numsFrom 0 4).map (markOf c)).filter (fun m => markValid m && !markOfRoute fg r m)).map
    (fun m => (decide (markKind m = kFOREIGN), markRoute m))

/-- Clear every mark of a route on a cell. -/
def clearMarks (fg : Bool) (r : BitVec 13) (c : CellRec) : CellRec :=
  (numsFrom 0 4).foldl (fun c p => if markOfRoute fg r (markOf c p) then putMark p 0 c else c) c

/-- Clear the marks of one KIND of a route on a cell. -/
def clearMarksKind (fg : Bool) (r : BitVec 13) (k : BitVec 2) (c : CellRec) : CellRec :=
  (numsFrom 0 4).foldl (fun c p =>
    if markOfRoute fg r (markOf c p) && decide (markKind (markOf c p) = k) then putMark p 0 c else c) c

/-- The cell is locked by the route: owned, with the token's side of W4.FOREIGN (11 R343). -/
def lockedBy (c : CellRec) (fg : Bool) (r : BitVec 13) : Bool :=
  c.owned && (c.foreign == fg) && decide (c.ownerRoute = r)

/-- LEVEL_CROSSING or POWER_SECTION: a shared class (03 Table 3.11). -/
def sharedCls (c : CellRec) : Bool := isCls .levelCrossing c || isCls .powerSection c

/-- POS as a POS_CODE. -/
def posCodeOf (p : BitVec 2) : Half := if p = 1 then posNORMAL else posREVERSE

/-- The cell is a point and lies in the required position. -/
def inPos (c : CellRec) (p : BitVec 2) : Bool := decide (coded .pos c = posCodeOf p)

/-- The route ID in the fourth test of R64: of a proxy, REQ_ROUTE (11 R343). -/
def tieId (cx : Ctx) (x : DieSt) (fg : Bool) (r : BitVec 13) : Nat :=
  if fg then (readDesc cx x true r.toNat).1.routeId.toNat else r.toNat

/-- How another route's mark stands to this route: none where it has no live entry, else whether it is older. -/
def otherOlder (cx : Ctx) (x : DieSt) (fg : Bool) (r : BitVec 13) (o : Bool × BitVec 13) : Option Bool :=
  match findRoute x fg r, findRoute x o.1 o.2 with
  | some i, some j =>
    some (olderKey (getRoute x j).key (tieId cx x o.1 o.2) (getRoute x i).key (tieId cx x fg r))
  | _, _ => none

/-- Another route's mark bars this one: it has no live entry or is older (Table 3.11, R523). -/
def barred (cx : Ctx) (x : DieSt) (fg : Bool) (r : BitVec 13) (c : CellRec) : Bool :=
  (otherMarks c fg r).any (fun o => match otherOlder cx x fg r o with | none => true | some b => b)

/-- Overwrite the marks of the younger routes on cell `n`: the cell and the NACKs to them. -/
def ousted (x : DieSt) (n : Nat) (fg : Bool) (r : BitVec 13) (c : CellRec) : CellRec × List Token :=
  let os := (otherMarks c fg r).eraseDups
  (os.foldl (fun c o => clearMarks o.1 o.2 c) c, os.map (fun o => nackTo x n o.1 o.2 rnCONFLICT))

/-- The fabric reads a cell: its CHECK and codewords are verified (02 R73, R76). A halted region's cells stay as they are. -/
def fabricTouch (x : DieSt) (n : Nat) : DieSt := if regHalted x (regionOf n) then x else modCell x n fabricRead

/-! ## PROBE (03 R114, R115) -/

/-- EXIT of the route that owns the cell, by the route directory; none without a live entry. -/
def ownerExit (x : DieSt) (c : CellRec) : Option Nat := (dirOf x c.foreign c.ownerRoute).map (·.exit)
/-- ENTRANCE of the route that owns the cell, by the route directory. -/
def ownerEntrance (x : DieSt) (c : CellRec) : Option Nat := (dirOf x c.foreign c.ownerRoute).map (·.entrance)

/-- The cell is OVERLAP_LOCKED by a route whose EXIT is the ENTRANCE of route `r` (03 Table 3.11, R133). -/
def takeoverOf (x : DieSt) (fg : Bool) (r : BitVec 13) (c : CellRec) : Bool :=
  c.owned && decide (c.lock = lockOVERLAP) && !lockedBy c fg r &&
    (match dirOf x fg r with
     | some q => decide (ownerExit x c = some q.entrance)
     | none => false)

/-- What the mark-only rows of Table 3.11 do with the mark that stands on the port by which the token enters: nothing in the
way, an older or dead mark, or a younger one (01 R26). -/
inductive PortMark where
  | clear
  | older
  | younger (fg : Bool) (r : BitVec 13)

/-- The mark on port `p` against the route. -/
def portMark (cx : Ctx) (x : DieSt) (fg : Bool) (r : BitVec 13) (c : CellRec) (p : Nat) : PortMark :=
  let m := markOf c p
  if !markValid m || markOfRoute fg r m then .clear
  else
    let o := (decide (markKind m = kFOREIGN), markRoute m)
    match otherOlder cx x fg r o with
    | some false => .younger o.1 o.2
    | _ => .older

/-- The topology row: the next track entry is joined to a port that the token may leave by. -/
def topologyOk (c : CellRec) (s : StepRec) (dport : BitVec 2) : Bool :=
  s.side ||
    (match s.nextTrack with
     | none => true
     | some (m, q) =>
       (reach c s.pos dport.toNat).any (fun p =>
         isTrackLink (portOf c p) && decide (adjCell (portOf c p) = m) && decide (adjPort (portOf c p) = q.toNat)))

/-- The rows of Table 3.11 whose action is Mark alone: locked by this route, shared, takeover. -/
def markOnly (x : DieSt) (t : Token) (s : StepRec) (c : CellRec) : Bool :=
  lockedBy c (isForeign t) t.route || (c.owned && sharedCls c) ||
    (takeoverOf x (isForeign t) t.route c && (inPos c s.pos || !isPointLike c))

/-- The refusal that Table 3.11 gives after the topology and BOUNDARY rows, if any; `none` means mark. In the rows whose action
is Mark alone, an older request's mark on the port prevails (01 R26). -/
def probeRefusal (cx : Ctx) (x : DieSt) (n : Nat) (t : Token) (s : StepRec) (c : CellRec) : Option (BitVec 8) :=
  let fg := isForeign t
  let movable := isPointLike c && !inPos c s.pos
  if getA false x.zoneOut n then some rnZONE
  else if coded .lock c = lockBLOCKED then some rnBLOCKED
  else if coded .lock c = lockUNKNOWN then some rnUNKNOWN
  else if markOnly x t s c then
    (match portMark cx x fg t.route c t.dport.toNat with
     | .older => some rnCONFLICT
     | _ => none)
  else if c.owned then some rnLOCKED
  else if movable && (supplyOrOutput c || hasFault c fCALL) then some rnIMMOVABLE
  else if movable && decide (coded .occ c ≠ occCLEAR) then some rnOCCUPIED
  else if barred cx x fg t.route c then some rnCONFLICT
  else none

/-- The marks that a marking PROBE overwrites, with the NACKs to their routes: on a cell that is not locked those of every younger
route (Table 3.11), in the rows whose action is Mark alone the younger mark on the port itself (01 R26). -/
def probeOusts (cx : Ctx) (x : DieSt) (n : Nat) (t : Token) (s : StepRec) (c : CellRec) : CellRec × List Token :=
  if markOnly x t s c then
    match portMark cx x (isForeign t) t.route c t.dport.toNat with
    | .younger fg r => (c, [nackTo x n fg r rnCONFLICT])
    | _ => (c, [])
  else ousted x n (isForeign t) t.route c

/-- Leave cell `c` (number `n`) through port `p` on a flank search (03 R121, Table 3.12). -/
def seekOut (x : DieSt) (n : Nat) (c : CellRec) (t : Token) (p hop depth : Nat) : Token :=
  let w := portOf c p
  let depthR := BitVec.ofNat 8 depth
  if adjLink w = 1 then
    { t with typ := tySEEK, dest := BitVec.ofNat 12 (adjCell w), dport := BitVec.ofNat 2 (adjPort w),
             kind := if isForeign t then kFOREIGN else kFLANK, hop := BitVec.ofNat 6 hop, pos := 0,
             reason := depthR, origin := BitVec.ofNat 12 n }
  else if adjLink w = 3 then replyTok x n t tyNONE rnFLANKEDGE
  else replyTok x n t tyFOUND depthR

/-- Unused legs of a point passed under `pos` (03 R120); for a SWITCHED_DIAMOND entered at `p`. -/
def unusedLegs (c : CellRec) (pos : BitVec 2) (p : Nat) : List Nat :=
  if isCls .point c then (if pos = 1 then [2] else if pos = 2 then [1] else [])
  else if isCls .switchedDiamond c then (numsFrom 0 4).filter (fun q => q ≠ p && !(reach c pos p).contains q)
  else []

/-- The PROBE goes on: to the next entry, or as HOLD to the entrance. -/
def forwardProbe (x : DieSt) (n : Nat) (t : Token) (s : StepRec) (flags : BitVec 8) : Token :=
  match s.next with
  | some (m, q, pos) =>
    let intoOverlap := s.exit
    { t with dest := BitVec.ofNat 12 m, dport := q, pos := pos,
             kind := if isForeign t then kFOREIGN else if intoOverlap then kOVERLAP else t.kind,
             hop := if intoOverlap then 0 else t.hop + 1, reason := flags, origin := BitVec.ofNat 12 n }
  | none => replyTok x n t tyHOLD flags

/-- A cell that receives PROBE (03 Table 3.11): the die afterwards and the tokens the cell emits. -/
def probeAt (cx : Ctx) (n : Nat) (t : Token) (x0 : DieSt) : DieSt × List Token :=
  let x := modCell x0 n fabricRead
  let c := getCell x n
  let fg := isForeign t
  if (clsOf c.cls).isNone then (x, [replyTok x n t tyNACK rnUNKNOWN]) else
  match findStep x fg t.route n t.alt with
  | none => (x, [replyTok x n t tyNACK rnTOPOLOGY])
  | some s =>
    if !topologyOk c s t.dport then (x, [replyTok x n t tyNACK rnTOPOLOGY])
    else if isCls .boundary c then (x, [replyTok x n t tyHOLD (t.reason ||| 2)])
    else if s.exit && !isCls .lineBlock c then (x, [forwardProbe x n t s t.reason])
    else
      match probeRefusal cx x n t s c with
      | some r => (x, [replyTok x n t tyNACK r])
      | none =>
        let o := probeOusts cx x n t s c
        let c1 := putMark t.dport.toNat (mkMark t.kind t.route) o.1
        let moves := isPointLike c && !inPos c s.pos
        let flags := t.reason ||| (if moves then (if s.kind = 1 then 5 else 1) else 0)
        let seeks := if s.kind = 0 && !s.noflank then
            (unusedLegs c s.pos t.dport.toNat).map (fun p => seekOut x n c t p 1 0) else []
        (setCell x n c1, o.2 ++ [forwardProbe x n t s flags] ++ seeks)

/-! ## FLANK_SEEK (03 R121, R523) -/

/-- A result of Table 3.12. -/
inductive SeekRes where
  | fail (reason : BitVec 8)
  | found
  | mark (call : Bool) (away : BitVec 2)
  | onward (ports : List (Nat × Nat))   -- port and depth of each branch

/-- The position of a POINT that does not join leg `p` to the toe. -/
def awayPos (p : Nat) : BitVec 2 := if p = 1 then 2 else 1

/-- Ports a fork leads to: those the cell can join to port `p`. -/
def forkPorts (c : CellRec) (p : Nat) : List Nat :=
  if isCls .point c then [1, 2]
  else (reach c 1 p ++ reach c 2 p)

/-- Table 3.12 at a cell entered at port `p` at fork depth `d`; the rows for the hop limit and STOP entries come first. The rows
about the port by which the search would leave a cell (NONE, ASSOC, EDGE) apply where it would leave: at a signal or a point that
protects, the rows of its class decide first (DEDUCED, log entry 48). 'FREE or locked' in the row of a point in its away position is read
as FREE or one of the three owned locks; a BLOCKED or LOCKED_UNKNOWN point there is passed through its toe (DEDUCED, log entry
48). -/
def seekRes (x : DieSt) (n : Nat) (c : CellRec) (t : Token) (stop : Bool) : SeekRes :=
  let p := t.dport.toNat
  let d := (t.reason.extractLsb' 0 3).toNat
  let fg := isForeign t
  let lk := coded .lock c
  let pos := coded .pos c
  let further := (numsFrom 0 4).filter (fun q => q ≠ p && isTrackLink (portOf c q))
  let ownTrack := (marksOf c fg t.route).any (fun q => decide (markKind (markOf c q) ≠ kFLANK)) ||
    (lockedBy c fg t.route && (decide (lk = lockROUTE) || decide (lk = lockOVERLAP)))
  if 17 ≤ t.hop.toNat then .fail rnFLANKLIMIT
  else if stop then .found
  else if ownTrack && !fg then .found
  else if ownTrack && (findStep x fg t.route n t.alt).isSome then .found
  else
    match clsOf c.cls with
    | none => .fail rnFLANKCONFLICT
    | some .buffer => .found
    | some .boundary => .fail rnFLANKEDGE
    | some .mainSignal | some .shuntSignal =>
      if p = 1 && (decide (lk = lockFREE) || decide (lk = lockFLANK)) then .mark false 0
      else if p = 1 && decide (lk = lockROUTE) then .fail rnFLANKCONFLICT
      else .onward [(1 - p, d)]
    | some .point =>
      if p = 0 then (if d ≤ 6 then .onward [(1, d + 1), (2, d + 1)] else .fail rnFLANKLIMIT)
      else
        let zone := getA false x.zoneOut n
        let away := posCodeOf (awayPos p)
        if !zone && decide (pos = away) && (decide (lk = lockFREE) || lockOwnedCode lk) then .mark false (awayPos p)
        else if !zone && decide (lk = lockFREE) && decide (coded .occ c = occCLEAR) && decide (pos ≠ away) &&
            !supplyOrOutput c && !hasFault c fCALL then .mark true (awayPos p)
        else if c.owned && !lockedBy c fg t.route && decide (pos ≠ away) then .fail rnFLANKCONFLICT
        else .onward [(0, d)]
    | some .lineBlock => if pos = posNORMAL then .mark false 0 else .fail rnFLANKCONFLICT
    | some .switchedDiamond =>
      if d ≤ 6 then .onward ((forkPorts c p).map (fun q => (q, d + 1))) else .fail rnFLANKLIMIT
    | some .virtual =>
      match further with
      | [] => .found
      | [q] => .onward [(q, d)]
      | [q1, q2] => if d ≤ 6 then .onward [(q1, d + 1), (q2, d + 1)] else .fail rnFLANKLIMIT
      | q1 :: rest => if d ≤ 5 then .onward ((q1, d + 1) :: rest.map (fun q => (q, d + 2))) else .fail rnFLANKLIMIT
    | some _ =>
      match reach c 1 p with
      | [] => .found
      | q :: _ => .onward [(q, d)]

/-- Own the cell for a route (02 R77, 03 R126): the lock value with the owner fields; CHECK is recomputed. -/
def ownCell (fg : Bool) (module : BitVec 6) (r : BitVec 13) (lk : Half) (c : CellRec) : CellRec :=
  { c with lock := lk, owned := true, foreign := fg, ownerModule := module, ownerRoute := r, checkErr := 0 }

/-- MODULE of the key of a live route or proxy. -/
def moduleOf (x : DieSt) (fg : Bool) (r : BitVec 13) : BitVec 6 :=
  match findRoute x fg r with
  | some i => keyModule (getRoute x i).key
  | none => 0

/-- The call that a lock writes (03 R127): the call, or NONE in the required position, under R79. -/
def lockCall (cx : Ctx) (x : DieSt) (pos : BitVec 2) (c : CellRec) : CellRec :=
  if isPointLike c && decide (pos ≠ 0) then
    let pr := cellProf cx x c
    if inPos c pos then writeCmdCode pr cmdNONE c
    else
      let v := if pos = 1 then cmdNORMAL else cmdREVERSE
      if cmdCond v c then writeCmdCode pr v (putCoded .cmd cmdNONE c) else writeCmdCode pr cmdNONE c
  else c

/-- The searching route's FLANK mark. -/
def flankMark (fg : Bool) (r : BitVec 13) : Half := mkMark (if fg then kFOREIGN else kFLANK) r

/-- The flank list of the route names cell `n`, port `p` as STOP. -/
def stopEntry (cx : Ctx) (x : DieSt) (fg : Bool) (r : BitVec 13) (n p : Nat) : Bool :=
  (flankEntries x (readDesc cx x fg r.toNat).1).any (fun f => f.1 = 1 && f.2.1 = p && f.2.2 = n)

/-- A cell entered by FLANK_SEEK (03 Table 3.12). HOP 0 marks the start cell: the search leaves it through DPORT. -/
def seekAt (cx : Ctx) (n : Nat) (t : Token) (x0 : DieSt) : DieSt × List Token :=
  let x := modCell x0 n fabricRead
  let c := getCell x n
  let fg := isForeign t
  let p := t.dport.toNat
  let d := (t.reason.extractLsb' 0 3).toNat
  if (clsOf c.cls).isNone then (x, [replyTok x n t tyNONE rnFLANKCONFLICT])
  else if t.hop = 0 then (x, [seekOut x n c t p 1 d]) else
  match seekRes x n c t (stopEntry cx x fg t.route n p) with
  | .fail r => (x, [replyTok x n t tyNONE r])
  | .found => (x, [replyTok x n t tyFOUND (BitVec.ofNat 8 d)])
  | .onward qs => (x, qs.map (fun q => seekOut x n c t q.1 (t.hop.toNat + 1) q.2))
  | .mark call away =>
    let callBit : BitVec 8 := if call then 0x80 else 0
    let plain := replyTok x n t tyFOUND (BitVec.ofNat 8 d)
    if x.wave = .refresh then
      if c.lock = lockFREE then
        let o := ousted x n fg t.route c
        let c1 := putMark p (flankMark fg t.route) (ownCell fg (moduleOf x fg t.route) t.route lockFLANK o.1)
        (setCell x n (lockCall cx x away c1), o.2 ++ [replyTok x n t tyFOUND (BitVec.ofNat 8 d ||| callBit ||| 0x40)])
      else (setCell x n (putMark p (flankMark fg t.route) c), [replyTok x n t tyFOUND (BitVec.ofNat 8 d ||| 0x40)])
    else if c.lock ≠ lockFREE then (x, [plain])
    else if barred cx x fg t.route c then (x, [replyTok x n t tyNONE rnCONFLICT])
    else
      let o := ousted x n fg t.route c
      (setCell x n (putMark p (flankMark fg t.route) o.1),
        o.2 ++ [replyTok x n t tyFOUND (BitVec.ofNat 8 d ||| callBit ||| 0x40)])

/-! ## LOCKED_ACK (03 Table 3.13) -/

/-- STATE of Table 3.13. -/
def ackState (c : CellRec) (pos : BitVec 2) : BitVec 8 :=
  match clsOf c.cls with
  | some .point | some .switchedDiamond =>
    if coded .pos c = posUNPROVEN then 2 else if inPos c pos || pos = 0 then 0 else 1
  | some .levelCrossing => if coded .pos c = posCLOSED then 0 else 1
  | some .powerSection =>
    let p := coded .pos c
    if p = posAC25 then 0 else if p = posAC15 then 1 else if p = posDC3000 then 2 else if p = posDC1500 then 3
    else if p = posDC750 then 4 else if p = posDEAD then 5 else 7
  | some .lineBlock => if coded .pos c = posNORMAL then 0 else 1
  | _ => 0

/-- OCC of Table 3.13: neither CLEAR nor NONE. -/
def occSet (c : CellRec) : Bool := decide (coded .occ c ≠ occCLEAR) && decide (coded .occ c ≠ occNONE)

/-- FAULT of Table 3.13. -/
def ackFault (c : CellRec) : Bool :=
  [fSUPPLY, fOUTPUT, fCHECK, fCODE, fINPUT, fDISC, fREMOTE, fCALL, fCLOSE, fPROVING].any (hasFault c)

/-- REASON of a LOCKED_ACK with bits [7:6] given. -/
def ackReason (x : DieSt) (n : Nat) (c : CellRec) (pos : BitVec 2) (top : BitVec 2) : BitVec 8 :=
  (top ++ b2v (getA false x.zoneOut n) ++ b2v (ackFault c) ++ b2v (occSet c) ++ 0#3 : BitVec 8) ||| ackState c pos

def topHELD : BitVec 2 := 0
def topLOST : BitVec 2 := 1
def topSHARED : BitVec 2 := 2
def topTAKEN : BitVec 2 := 3

/-- Bits [7:6] of a reply to a refresh: how the cell stands to the route (03 Table 3.13, R133). -/
def ackTop (x : DieSt) (c : CellRec) (fg : Bool) (r : BitVec 13) : BitVec 2 :=
  if lockedBy c fg r then topHELD
  else if c.owned && sharedCls c then topSHARED
  else if c.owned && (match dirOf x fg r with
      | some q => decide (ownerEntrance x c = some q.exit)
      | none => false) then topTAKEN
  else topLOST

/-! ## COMMIT (03 R126 to R128) -/

/-- Strength of a mark on a cell: the lock it converts to and the position it requires (03 R126, R127, 11 R343). -/
def convertTo (s : Option StepRec) (fg : Bool) (c : CellRec) (ports : List Nat) : Half × BitVec 2 :=
  let kinds := ports.map (fun p => markKind (markOf c p))
  let flankPos := match ports with
    | p :: _ => if isCls .point c && p ≠ 0 then awayPos p else 0
    | [] => 0
  match s with
  | some s =>
    if fg then ((if s.kind = 0 then lockROUTE else lockOVERLAP), s.pos)
    else if kinds.contains kPATH then (lockROUTE, s.pos)
    else if kinds.contains kOVERLAP then (lockOVERLAP, s.pos)
    else (lockFLANK, flankPos)
  | none => (lockFLANK, flankPos)

/-- What a cell does with a broadcast COMMIT of a route (03 R126, R127): record and replies. A cell that an earlier COMMIT of the
route has converted, before a cut (03 R110), answers again. A takeover cell becomes ROUTE_LOCKED. -/
def commitCell (cx : Ctx) (x : DieSt) (n : Nat) (t : Token) (c0 : CellRec) : CellRec × List Token :=
  let fg := isForeign t
  let c := fabricRead c0
  let ports := marksOf c fg t.route
  let s := findStep x fg t.route n t.alt
  let kindOut : BitVec 2 := match s with
    | some s => s.kind
    | none => kFLANK
  let hopOut : BitVec 6 := match s with
    | some s => s.hop
    | none => 0
  let t1 := { t with kind := if fg then kFOREIGN else kindOut, hop := hopOut }
  if ports.isEmpty then
    match s with
    | none => (c, [])
    | some s =>
      if s.exit && !isCls .lineBlock c then (c, [])
      else if lockedBy c fg t.route then (c, [replyTok x n t1 tyACK (ackReason x n c s.pos topHELD)])
      else if c.owned && sharedCls c then (c, [replyTok x n t1 tyACK (ackReason x n c s.pos topSHARED)])
      else (c, [replyTok x n t1 tyNACK rnCONFLICT])
  else
    let lk := coded .lock c
    let bare := clearMarks fg t.route c
    if lk = lockBLOCKED then (bare, [replyTok x n t1 tyNACK rnBLOCKED])
    else if lk = lockUNKNOWN then (bare, [replyTok x n t1 tyNACK rnUNKNOWN])
    else
      let tgt := convertTo s fg c ports
      if c.owned && !lockedBy c fg t.route && sharedCls c then
        (bare, [replyTok x n t1 tyACK (ackReason x n bare tgt.2 topSHARED)])
      else if c.owned && !lockedBy c fg t.route && !takeoverOf x fg t.route c then
        (bare, [replyTok x n t1 tyNACK rnLOCKED])
      else
        let stronger := if lockedBy c fg t.route && decide (tgt.1 = lockFLANK) then c.lock
          else if (lockedBy c fg t.route && decide (lk = lockROUTE)) || takeoverOf x fg t.route c then lockROUTE else tgt.1
        let c1 := ownCell fg (moduleOf x fg t.route) t.route stronger bare
        let c2 := lockCall cx x tgt.2 c1
        (c2, [replyTok x n t1 tyACK (ackReason x n c2 tgt.2 topHELD)])

/-- An addressed COMMIT: refresh of a held cell, or a state query (03 R128). -/
def refreshAt (n : Nat) (t : Token) (x0 : DieSt) : DieSt × List Token :=
  let x := modCell x0 n fabricRead
  let c := getCell x n
  let fg := isForeign t
  if t.hop = hopQuery then (x, [replyTok x n t tyACK (ackReason x n c 0 topHELD)])
  else
    let c1 := if sharedCls c && decide (coded .lock c = lockFREE) then
        ownCell fg (moduleOf x fg t.route) t.route (if t.kind = kOVERLAP then lockOVERLAP else lockROUTE) c
      else c
    (setCell x n c1, [replyTok x n t tyACK (ackReason x n c1 t.pos (ackTop x c1 fg t.route))])

/-! ## RELEASE and CANCEL (03 R136, R137) -/

/-- Free a cell that the route owns. -/
def freeCell (c : CellRec) : CellRec := clearOwner (putCoded .lock lockFREE c)

/-- A broadcast RELEASE at a cell (03 R137): KIND PATH or OVERLAP, or every path and overlap lock with `all`. -/
def releaseCell (fg : Bool) (r : BitVec 13) (all : Bool) (kind : BitVec 2) (c0 : CellRec) : CellRec :=
  let c := fabricRead c0
  if lockedBy c fg r then
    if c.lock = lockROUTE && (all || kind = kPATH) then freeCell c
    else if c.lock = lockOVERLAP && (all || kind = kOVERLAP) then freeCell c
    else c
  else c

/-- An addressed RELEASE at a cell (03 R136): conditional with REASON[0]; answered with LOCKED_ACK. -/
def releaseAt (n : Nat) (t : Token) (x0 : DieSt) : DieSt × List Token :=
  let x := modCell x0 n fabricRead
  let c := getCell x n
  let fg := isForeign t
  if !lockedBy c fg t.route || c.lock = lockFLANK then (x, [replyTok x n t tyACK (ackReason x n c t.pos topLOST)])
  else if bitOf t.reason 0 && occSet c then (x, [replyTok x n t tyACK (ackReason x n c t.pos topHELD)])
  else
    let c1 := freeCell c
    (setCell x n c1, [replyTok x n t tyACK (ackReason x n c1 t.pos topLOST)])

/-- CANCEL at a cell: marks of the route of one KIND, or of all kinds with HOP 0x3F (Table 3.9). -/
def cancelCell (t : Token) (c : CellRec) : CellRec :=
  if t.hop = hopAll || isForeign t then clearMarks (isForeign t) t.route c
  else clearMarksKind false t.route t.kind c

/-- Apply a broadcast to every cell of the regions that are not halted. -/
def broadcastCells (f : Nat → CellRec → CellRec) (x : DieSt) : DieSt :=
  mapCells x (fun n c => if regHalted x (regionOf n) then c else f n c)

/-- Apply a broadcast COMMIT: records and replies of all cells, and how many replies there are. -/
def broadcastCommit (cx : Ctx) (t : Token) (x : DieSt) : DieSt × Nat :=
  let cells := (x.cells.map (·.1)).eraseDups
  cells.foldl (fun q n =>
    if regHalted q.1 (regionOf n) then q
    else
      let r := commitCell cx q.1 n t (getCell q.1 n)
      (emitFrom n r.2 (setCell q.1 n r.1), q.2 + r.2.length)) (x, 0)

end Sys2Proof.Machine
end

