-- ==== Sys2Proof/Machine/Engine.lean ====
section
/-!
DEFINITION. The route engines: replies (03 R118 to R129), the waves of PROPAGATE (03 Table 3.10) and EVALUATE (03 Table
3.15, R134 to R136; 11 Tables 11.7, 11.8 for crossing routes and proxies).
-/

namespace Sys2Proof.Machine

/-! ## What an engine reads of its route -/

/-- Descriptor of the route of an entry; ENTRANCE and EXIT are those of the route directory (03 R109, R522). -/
def entryDesc (cx : Ctx) (x : DieSt) (e : RouteEntry) : Desc :=
  let d := (readDesc cx x (isProxy e) e.routeId.toNat).1
  match dirOf x (isProxy e) e.routeId with
  | some q => { d with entrance := q.entrance, exit := q.exit }
  | none => d

/-- KIND of the tokens of an entry: FOREIGN for a proxy, else the given one. -/
def entKind (e : RouteEntry) (k : BitVec 2) : BitVec 2 := if isProxy e then kFOREIGN else k

/-- ENTRANCE of an entry, or FIRST of a proxy, by the route directory (03 R109). -/
def entryEntrance (x : DieSt) (e : RouteEntry) : Nat := entranceOf x (isProxy e) e.routeId 0

/-- Region that an entry belongs to: of its ENTRANCE (03 R107) or FIRST (11 R342). -/
def entryRegion (x : DieSt) (e : RouteEntry) : Nat := regionOf (entryEntrance x e)

/-- Live entries whose engine runs: those of regions that are not halted (01 R38). -/
def activeRoutes (x : DieSt) : List Nat := (liveRoutes x).filter (fun i => !regHalted x (entryRegion x (getRoute x i)))

/-- A token of an engine. -/
def engTok (e : RouteEntry) (typ : BitVec 4) (dest : Nat) (dport : BitVec 2) (kind : BitVec 2) (hop : BitVec 6)
    (pos : BitVec 2) (reason : BitVec 8) : Token :=
  { typ := typ, route := e.routeId, dest := BitVec.ofNat 12 dest, dport := dport, kind := entKind e kind, hop := hop,
    pos := pos, alt := e.alt, reason := reason, origin := BitVec.ofNat 12 dest }

/-- Port by which the walk enters cell `n`: from the step record that leads there. -/
def enterPort (x : DieSt) (fg : Bool) (r : BitVec 13) (n : Nat) : BitVec 2 :=
  match (x.steps.filter (fun s => (s.foreign == fg) && decide (s.route = r))).findSome? (fun s =>
      match s.next with
      | some (m, q, _) => if m = n then some q else none
      | none => none) with
  | some q => q
  | none => 0

/-- Port by which FIRST of a proxy is entered: its EDGE port (11 R338). -/
def firstPort (c : CellRec) : BitVec 2 :=
  BitVec.ofNat 2 (((numsFrom 0 4).find? (fun p => decide (adjLink (portOf c p) = 3))).getD 0)

/-- The port an entry's walk starts at. -/
def startPort (x : DieSt) (e : RouteEntry) (d : Desc) : BitVec 2 :=
  if isProxy e then firstPort (getCell x d.entrance) else 0

/-! ## Flank searches an engine starts (03 R120, R123) -/

/-- The searches of one point: start cell and port. -/
def pointStarts (x : DieSt) (s : StepRec) : List (Nat × Nat) :=
  if s.noflank then []
  else (unusedLegs (getCell x s.cell) s.pos (enterPort x s.foreign s.route s.cell).toNat).map (fun p => (s.cell, p))

/-- Searches of the path points at or beyond `from_`. -/
def pathStarts (x : DieSt) (e : RouteEntry) (from_ : Nat) : List (Nat × Nat) :=
  (x.steps.filter (fun s => (s.foreign == isProxy e) && decide (s.route = e.routeId) && decide (s.kind = 0) && !s.exit &&
    decide (from_ ≤ s.hop.toNat))).flatMap (pointStarts x)

/-- Searches of the overlap points of the selected alternative whose bit is set in `held`. -/
def ovlStarts (x : DieSt) (e : RouteEntry) (held : BitVec 8) : List (Nat × Nat) :=
  (x.steps.filter (fun s => (s.foreign == isProxy e) && decide (s.route = e.routeId) && decide (s.kind = 1) &&
    decide (s.alt = e.alt) && bitOf held s.hop.toNat)).flatMap (pointStarts x)

/-- START entries of the flank list. -/
def listStarts (cx : Ctx) (x : DieSt) (e : RouteEntry) : List (Nat × Nat) :=
  ((flankEntries x (entryDesc cx x e)).filter (fun f => f.1 = 0)).map (fun f => (f.2.2, f.2.1))

/-- A FLANK_SEEK addressed to its start cell (HOP 0). -/
def seekStart (e : RouteEntry) (p : Nat × Nat) : Token :=
  engTok e tySEEK p.1 (BitVec.ofNat 2 p.2) kFLANK 0 0 0

/-- Add weight for `n` starts to FLANK_OPEN. -/
def openFlank (n : Nat) (e : RouteEntry) : RouteEntry :=
  { e with flankOpen := e.flankOpen + BitVec.ofNat 15 (128 * n) }

/-! ## Requests: selection, PROBED, refusals -/

/-- A route becomes PROBED once HOLD is there, its alternative is selected and its flank is complete; a route held at an
edge waits for its grant (Table 3.15). -/
def tryProbed (i : Nat) (x : DieSt) : DieSt :=
  let e := getRoute x i
  let w := getWork x i
  if e.state = rsPROBING && w.hold.isSome && w.selected && w.flankStarted && e.flankOpen = 0 && w.nack.isNone &&
      !w.remote then
    setRoute x i { e with state := rsPROBED }
  else x

/-- The end of the walk is selected: the engine starts the searches of overlap points and START entries (03 R120). -/
def selectAlt (cx : Ctx) (i : Nat) (hasOvl : Bool) (x : DieSt) : DieSt :=
  let e0 := getRoute x i
  let w := getWork x i
  let e := { e0 with alt := BitVec.ofNat 2 w.alt, altValid := hasOvl || e0.altValid }
  let starts := (if hasOvl then ovlStarts x e 0xFF else []) ++ listStarts cx x e
  let x1 := setRoute x i (openFlank starts.length e)
  let x2 := setWork x1 i { w with selected := true, flankStarted := true }
  tryProbed i (emitEngine (entryRegion x e) (starts.map (seekStart e)) x2)

/-- A refusal received by the route (03 R118): recorded until the wave closes; ALT_VALID is cleared. -/
def setNack (i : Nat) (r : BitVec 8) (x : DieSt) : DieSt :=
  let e := getRoute x i
  if e.state = rsPROBING || e.state = rsPROBED then
    let w := getWork x i
    setWork (setRoute x i { e with state := rsPROBING, altValid := false }) i { w with nack := some (joinReason w.nack r) }
  else x

/-- The tokens that clear the marks of a failed attempt: a CANCEL of KIND OVERLAP, or for a proxy addressed ones. -/
def cancelAttempt (x : DieSt) (e : RouteEntry) (a : Nat) : List Token :=
  if isProxy e then
    (x.steps.filter (fun s => s.foreign && decide (s.route = e.routeId) && decide (s.kind = 1) &&
      decide (s.alt = BitVec.ofNat 2 a))).map (fun s => engTok e tyCANCEL s.cell 0 kOVERLAP 0 0 0)
  else [engTok e tyCANCEL 0 0 kOVERLAP 0 0 0]

/-- PROBE of a later attempt, with alternative `a`: addressed to EXIT with REASON 0. DESIGN CHOICE (log entry 49): the spec does
not say where the probe of a later alternative starts; from EXIT it walks the overlap alone, and CALL of the path points is not in
its HOLD. -/
def probeExit (cx : Ctx) (x : DieSt) (e : RouteEntry) (a : Nat) : Token :=
  let d := entryDesc cx x e
  { engTok e tyPROBE d.exit (enterPort x (isProxy e) e.routeId d.exit) kPATH (BitVec.ofNat 6 (d.pathLen - 1)) 0 0 with
    alt := BitVec.ofNat 2 a }

/-- Go on with alternative `a`: first the CANCEL between attempts, then the probe (03 R119). -/
def tryAlt (cx : Ctx) (i a : Nat) (x : DieSt) : DieSt :=
  let e := getRoute x i
  let w := getWork x i
  let ts := cancelAttempt x e w.alt
  let x1 := setWork x i { w with nextProbe := some a }
  if ts.isEmpty then
    emitEngine (entryRegion x e) [probeExit cx x e a] (setWork x i { w with nextProbe := none, alt := a })
  else emitEngine (entryRegion x e) ts x1

/-- The present overlap attempt has ended without being selected (03 R119). -/
def nextAlternative (cx : Ctx) (i : Nat) (x : DieSt) : DieSt :=
  let e := getRoute x i
  let w := getWork x i
  let count := (alternatives x (entryDesc cx x e)).length
  if e.altValid || w.selected then setNack i rnOVERLAP x
  else if w.alt + 1 < count then tryAlt cx i (w.alt + 1) x
  else match w.firstHold with
    | some f => tryAlt cx i f (setWork x i { w with selected := true })
    | none => setNack i rnOVERLAP x

/-- The route engine takes a HOLD (03 R108, R119; 11 R344). -/
def engHold (cx : Ctx) (t : Token) (x : DieSt) : DieSt :=
  match tokRoute x t with
  | none => x
  | some i =>
    let e := getRoute x i
    let w := getWork x i
    if e.state ≠ rsPROBING || w.nack.isSome then x
    else
      let w1 := { w with hold := some t.reason, remote := w.remote || bitOf t.reason 1 }
      let count := (alternatives x (entryDesc cx x e)).length
      let x1 := setWork x i w1
      if bitOf t.reason 1 || count = 0 then selectAlt cx i false x1
      else if !bitOf t.reason 2 || e.altValid || w.selected then selectAlt cx i true x1
      else
        let fh := match w.firstHold with
          | some f => some f
          | none => some w.alt
        nextAlternative cx i (setWork x i { w1 with hold := none, firstHold := fh })

/-- The route engine takes a NACK (03 R118, R119, R127). -/
def engNack (cx : Ctx) (t : Token) (x : DieSt) : DieSt :=
  match tokRoute x t with
  | none => x
  | some i =>
    let w := getWork x i
    let e := getRoute x i
    let inOverlap := x.steps.any (fun s => (s.foreign == isForeign t) && decide (s.route = t.route) &&
      decide (s.cell = t.origin.toNat) && decide (s.kind = 1) && decide (s.alt = BitVec.ofNat 2 w.alt))
    if x.wave = .request && e.state = rsPROBING && inOverlap && w.hold.isNone && w.nack.isNone then
      nextAlternative cx i x
    else setNack i t.reason x

/-- The route engine takes a FLANK_FOUND (03 R123). -/
def engFound (t : Token) (x : DieSt) : DieSt :=
  match tokRoute x t with
  | none => x
  | some i =>
    let e := getRoute x i
    let wt := 2 ^ (7 - (t.reason.extractLsb' 0 3).toNat)
    tryProbed i (setRoute x i { e with flankOpen := BitVec.ofNat 15 (e.flankOpen.toNat - wt) })

/-- The route engine takes a FLANK_NONE (03 R123). -/
def engFlankNone (t : Token) (x : DieSt) : DieSt :=
  match tokRoute x t with
  | none => x
  | some i =>
    let e := getRoute x i
    if e.state = rsPROBING || e.state = rsPROBED then setNack i t.reason x
    else modWork x i (fun w => { w with flankBad := some (joinReason w.flankBad t.reason) })

/-- PROGRESS past every entry that has answered LOST (03 R136). -/
def advance (acked : List Nat) : Nat → Nat → Nat
  | 0, p => p
  | f + 1, p => if acked.contains p then advance acked f (p + 1) else p

/-- The addressed RELEASE of a path entry; all but the entrance's carry REASON[0] (03 R136). -/
def pathRelease (e : RouteEntry) (d : Desc) (h : Nat) : Token :=
  engTok e tyRELEASE (entCell (d.path.getD h 0)) 0 kPATH (BitVec.ofNat 6 h) (entPos (d.path.getD h 0))
    (if h = 0 && !isProxy e then 0 else 1)

/-- An answer to an addressed RELEASE of path entry `h`: LOST takes the entry out of the decision, advances PROGRESS and lets the
next entry of the decision go; a refusal ends the decision (03 R136). -/
def releaseAnswer (cx : Ctx) (i h : Nat) (lost : Bool) (x : DieSt) : DieSt :=
  let e := getRoute x i
  let w := getWork x i
  if !lost then setWork x i { w with relPath := [] }
  else
    let acked := h :: w.relAcked
    let rest := w.relPath.filter (fun k => k ≠ h)
    let y := setWork (setRoute x i { e with progress := BitVec.ofNat 6 (advance acked 64 e.progress.toNat) }) i
      { w with relAcked := acked, relPath := rest }
    if w.relPath.contains h then emitEngine (entryRegion y e) ((rest.take 1).map (pathRelease e (entryDesc cx x e))) y else y

/-- The route engine takes a LOCKED_ACK (03 R129, R136). A cell that has been taken over still counts as held (03 R133). DEDUCED (log
entry 51): the reply to a state query is no reply of R130's 'every reply of the cycle': only its OCC is used. -/
def engAck (cx : Ctx) (t : Token) (x : DieSt) : DieSt :=
  match tokRoute x t with
  | none => x
  | some i =>
    let e := getRoute x i
    let w := getWork x i
    let top := t.reason.extractLsb' 6 2
    if t.hop = hopQuery then
      setWork x i { w with approach := some (bitOf t.reason 3), expect := w.expect - 1 }
    else if x.wave = .release then
      let isPath := if isForeign t then
          x.steps.all (fun s => !(s.foreign && decide (s.route = t.route) && decide (s.cell = t.origin.toNat) &&
            decide (s.kind = 1) && decide (s.alt = e.alt)))
        else decide (t.kind = kPATH)
      if isPath then releaseAnswer cx i t.hop.toNat (decide (top = topLOST)) x
      else
        setWork x i { w with ovlHeld := if top = topLOST then setBitOf w.ovlHeld t.hop.toNat false else w.ovlHeld }
    else
      let k := if isForeign t then
          (match x.steps.find? (fun s => s.foreign && decide (s.route = t.route) && decide (s.cell = t.origin.toNat) &&
              (decide (s.kind = 0) || decide (s.alt = e.alt))) with
           | some s => s.kind
           | none => kFLANK)
        else t.kind
      let a : Ack := { cell := t.origin.toNat, hop := t.hop, kind := k, reason := t.reason }
      let moving := isPointLike (getCell x t.origin.toNat) && decide (t.reason.extractLsb' 0 3 ≠ 0)
      let w1 := { w with acks := w.acks ++ [a], expect := w.expect - 1,
                         called := if x.wave = .commit && moving then t.origin.toNat :: w.called else w.called,
                         ovlHeld := if k = kOVERLAP && x.wave = .commit then setBitOf w.ovlHeld t.hop.toNat true
                           else w.ovlHeld,
                         ovlTaken := if k = kOVERLAP then setBitOf w.ovlTaken t.hop.toNat (decide (top = topTAKEN))
                           else w.ovlTaken }
      setWork x i w1

/-- A CANCEL has acted: the probe that waited for it is sent once no CANCEL of the route is in flight (03 R119). -/
def afterCancel (cx : Ctx) (t : Token) (x : DieSt) : DieSt :=
  match tokRoute x t with
  | none => x
  | some i =>
    let w := getWork x i
    let e := getRoute x i
    let more := x.flights.any (fun f => decide (f.tok.typ = tyCANCEL) && decide (f.tok.route = t.route) &&
      (isForeign f.tok == isForeign t))
    match w.nextProbe with
    | none => x
    | some a =>
      if more then x
      else emitEngine (entryRegion x e) [probeExit cx x e a] (setWork x i { w with nextProbe := none, alt := a })

/-! ## Token delivery -/

/-- A broadcast token acts in every cell of the regions that are not halted (03 R109). -/
def actBroadcast (cx : Ctx) (t : Token) (y : DieSt) : DieSt :=
  let work := fun (z : DieSt) (f : RouteWork → RouteWork) =>
    match tokRoute z t with
    | none => z
    | some i => modWork z i f
  if t.typ = tyCOMMIT then
    let z := broadcastCommit cx t y
    work z.1 (fun w => { w with expect := z.2 })
  else if t.typ = tyRELEASE then
    if t.hop = hopAll then
      work (broadcastCells (fun _ c => releaseCell (isForeign t) t.route true t.kind c) y)
        (fun w => { w with released := true, ovlHeld := 0, ovlTaken := 0, relOverlap := false, relPath := [] })
    else
      work (broadcastCells (fun _ c => releaseCell false t.route false kOVERLAP c) y)
        (fun w => { w with ovlHeld := 0, ovlTaken := 0, relOverlap := false })
  else afterCancel cx t (broadcastCells (fun _ c => cancelCell t c) y)

/-- What a cell does with a token that it has accepted, where the action emits further tokens (03 Table 3.9). -/
def cellAction (cx : Ctx) (t : Token) (y : DieSt) : Option (DieSt × List Token) :=
  let n := destCell t
  if t.typ = tyPROBE then some (probeAt cx n t y)
  else if t.typ = tyCOMMIT then some (refreshAt n t y)
  else if t.typ = tySEEK then some (seekAt cx n t y)
  else if t.typ = tyRELEASE then some (releaseAt n t y)
  else none

/-- What the other tokens do at the cell they are addressed to: a reply is taken by the route engine of its region, an addressed
CANCEL clears marks, and a token of undefined TYPE is discarded and counted. -/
def arriveAction (cx : Ctx) (t : Token) (y : DieSt) : DieSt :=
  if t.typ = tyHOLD then engHold cx t y
  else if t.typ = tyNACK then engNack cx t y
  else if t.typ = tyACK then engAck cx t y
  else if t.typ = tyFOUND then engFound t y
  else if t.typ = tyNONE then engFlankNone t y
  else if t.typ = tyCANCEL then afterCancel cx t (modCell y (destCell t) (cancelCell t))
  else { y with undefTokens := y.undefTokens + 1 }

/-- A token that has arrived at its cell acts; a stalled cell takes no action that would emit (01 R30). -/
def actArrived (cx : Ctx) (t : Token) (x : DieSt) : DieSt :=
  let n := destCell t
  let y := { x with flights := dropFlight { tok := t, place := .cell n } x.flights }
  match cellAction cx t y with
  | none => arriveAction cx t y
  | some r => if cellStalled y n then x else emitFrom n r.2 r.1

/-- Deliver one token (03 Table 3.9): a broadcast acts at once, an addressed token once the transport has brought it to its cell. -/
def deliver (cx : Ctx) (t : Token) (x : DieSt) : DieSt :=
  if isBroadcast t then
    match takeBroadcast t x.flights with
    | none => x
    | some rest => actBroadcast cx t (unstall (netFuel x) { x with flights := rest })
  else
    let y := carry t (netFuel x) x
    if hasArrived y t then actArrived cx t y else y

/-! ## LOAD (03 R112) -/

/-- Older route of two live entries (01 R64). -/
def entryOlder (cx : Ctx) (x : DieSt) (i j : Nat) : Bool :=
  let a := getRoute x i
  let b := getRoute x j
  olderKey a.key (tieId cx x (isProxy a) a.routeId) b.key (tieId cx x (isProxy b) b.routeId)

/-- Insert an entry index into a list ordered oldest first. -/
def insertOlder (cx : Ctx) (x : DieSt) (i : Nat) : List Nat → List Nat
  | [] => [i]
  | j :: t => if entryOlder cx x i j then i :: j :: t else j :: insertOlder cx x i t

/-- Entry indexes oldest first. -/
def oldestFirst (cx : Ctx) (x : DieSt) (l : List Nat) : List Nat := l.foldr (insertOlder cx x) []

/-- A route with work in waves 5 and 6. -/
def hasRequestWork (e : RouteEntry) : Bool := decide (e.state = rsPROBING) || decide (e.state = rsPROBED)

/-- A set route: it holds locks (03 R125, R128). -/
def isSetRoute (e : RouteEntry) : Bool :=
  [rsCALLING, rsLOCKED, rsPROVEN, rsENTERED, rsAPPROACH, rsFAILED, rsRELEASING].contains e.state

/-- The engine's work at the start of PROPAGATE: what belongs to one cycle is cleared. -/
def freshWork (w : RouteWork) : RouteWork :=
  let keep := w.waiting || w.granted
  { w with loaded := false, nack := w.nack, flankBad := none, expect := 0, acks := [], approach := none,
           nextProbe := none, released := false,
           alt := if keep then w.alt else 0, selected := keep && w.selected, firstHold := none,
           hold := if keep then w.hold else none, remote := keep && w.remote,
           flankStarted := keep && w.flankStarted }

/-- Load one route into the step stores, or give its refusal. -/
def loadRoute (cx : Ctx) (x : DieSt) (i : Nat) : DieSt :=
  let e := getRoute x i
  let ok := allChecks cx x (isProxy e) e.routeId.toNat
  let d := entryDesc cx x e
  if !ok || !d.valid then
    if hasRequestWork e then setNack i rnDESCRIPTOR x else modWork x i (fun w => { w with descBad := true, descNew := !w.descBad })
  else
    let steps := routeSteps x (isProxy e) e.routeId d
    if hasRequestWork e then
      if stepsFit (x.steps.filter (fun s => (findRoute x s.foreign s.route).any (fun j => hasRequestWork (getRoute x j))))
          steps then
        modWork { x with steps := x.steps ++ steps } i (fun w => { w with loaded := true })
      else setNack i rnSTEPFULL x
    else modWork { x with steps := x.steps ++ steps } i (fun w => { w with loaded := true, descBad := false, descNew := false })

/-- ZONE_OUT latches (03 R112). -/
def latchZones (x : DieSt) : DieSt :=
  let latches := fun (c : CellRec) => isCls .zone c || isCls .keyLock c
  let y := mapCells x (fun n c => if latches c && !regHalted x (regionOf n) then fabricRead c else c)
  let zones := y.cells.filter (fun p => latches p.2 && (decide (p.2.pos ≠ posNORMAL) || decide (p.2.cmd = cmdKEY)))
  let covered := zones.flatMap (fun p =>
    ((numsFrom 0 4).filter (fun q => decide (adjLink (portOf p.2 q) = 2))).map (fun q => adjCell (portOf p.2 q)))
  { y with zoneOut := covered.foldl (fun m n => putA false n true m) [] }

/-- PROPAGATE begins (03 R110, 01 R35): shadow copy, LOAD. -/
def startPropagate (cx : Ctx) (x : DieSt) : DieSt :=
  let live := activeRoutes x
  let x1 := { x with shadow := x.cells, wave := .load, propDone := false, waveCut := false, refreshCut := false,
                     steps := [] }
  let bad := x.routes.filter (fun p => !entryReadable p.2 && !regHalted x (entryRegion x p.2))
  let x2 := live.foldl (fun y i => modWork y i freshWork) (bad.foldl (fun y p => setFailed y p.1 p.2 rnLOCKLOST) x1)
  let reqs := oldestFirst cx x2 (live.filter (fun i => hasRequestWork (getRoute x2 i)))
  let sets := live.filter (fun i => isSetRoute (getRoute x2 i))
  latchZones ((reqs ++ sets).foldl (fun y i => loadRoute cx y i) x2)

/-! ## Entering the waves -/

/-- A proxy whose requesting territory is lost: it keeps every lock (11 R352). -/
def isFrozen (cx : Ctx) (x : DieSt) (e : RouteEntry) : Bool := isProxy e && cx.lostTerr.contains (entryDesc cx x e).reqTerr

/-- RELEASE wave: the tokens decided at the previous evaluation (03 R136); of a path decision the first entry goes, and every answer
sends the next. From a descriptor that fails nothing but the broadcast of RELEASING is sent (03 R522). -/
def releaseTokens (cx : Ctx) (x : DieSt) (i : Nat) : List Token :=
  let e := getRoute x i
  let w := getWork x i
  let d := entryDesc cx x e
  if isFrozen cx x e then []
  else if e.state = rsRELEASING then [engTok e tyRELEASE 0 0 kPATH hopAll 0 0]
  else if w.descBad then []
  else
    let path := (w.relPath.take 1).map (pathRelease e d)
    let ovl := if !w.relOverlap then []
      else if isProxy e then
        ((numsFrom 0 8).filter (bitOf w.ovlHeld)).map (fun k =>
          let h := ((alternatives x d).getD e.alt.toNat []).getD k 0
          engTok e tyRELEASE (entCell h) 0 kOVERLAP (BitVec.ofNat 6 k) (entPos h) 0)
      else [engTok e tyRELEASE 0 0 kOVERLAP 0 0 0]
    path ++ ovl

def enterRelease (cx : Ctx) (x : DieSt) : DieSt :=
  (liveRoutes x).foldl (fun y i =>
    if regHalted y (entryRegion y (getRoute y i)) then y
    else emitEngine (entryRegion y (getRoute y i)) (releaseTokens cx y i) y) { x with wave := .release }

/-- REFRESH wave: addressed COMMITs, flank searches and state queries of one set route (03 R128). -/
def refreshRoute (cx : Ctx) (x : DieSt) (i : Nat) : DieSt :=
  let e0 := getRoute x i
  let w := getWork x i
  if regHalted x (entryRegion x e0) then x
  else if !isSetRoute e0 || w.released || !w.loaded then setRoute x i { e0 with refreshed := false }
  else
    let d := entryDesc cx x e0
    let e := { e0 with refreshed := false, flankOpen := 0 }
    let idx := (numsFrom 0 d.pathLen).filter (fun h => decide (e.progress.toNat ≤ h) &&
      (decide (h + 1 < d.pathLen) || isCls .lineBlock (getCell x d.exit)))
    let path := idx.map (fun h => engTok e tyCOMMIT (entCell (d.path.getD h 0)) 0 kPATH (BitVec.ofNat 6 h)
      (entPos (d.path.getD h 0)) 0)
    let alt := (alternatives x d).getD e.alt.toNat []
    let ovl := ((numsFrom 0 8).filter (bitOf w.ovlHeld)).map (fun k =>
      engTok e tyCOMMIT (entCell (alt.getD k 0)) 0 kOVERLAP (BitVec.ofNat 6 k) (entPos (alt.getD k 0)) 0)
    let query := match d.approach with
      | some a => if e.state = rsPROVEN || (e.wasProven && e.state ≠ rsENTERED) then
          [engTok e tyCOMMIT a 0 kPATH hopQuery 0 0] else []
      | none => []
    let starts := pathStarts x e e.progress.toNat ++ ovlStarts x e (w.ovlHeld &&& ~~~w.ovlTaken) ++ listStarts cx x e
    let toks := path ++ ovl ++ query
    let x1 := setRoute x i (openFlank starts.length e)
    let x2 := setWork x1 i { w with expect := toks.length, acks := [], flankBad := none, flankStarted := true }
    emitEngine (entryRegion x e) (toks ++ starts.map (seekStart e)) x2

def enterRefresh (cx : Ctx) (x : DieSt) : DieSt :=
  (liveRoutes x).foldl (fun y i => refreshRoute cx y i) { x with wave := .refresh }

/-- REFRESHED: every reply has arrived, and FLANK_OPEN, opened in this cycle, has reached 0 (03 R124, R128). The entries of a halted
region stay as they are (01 R38). -/
def settleRefresh (x : DieSt) : DieSt :=
  (liveRoutes x).foldl (fun y i =>
    let e := getRoute y i
    let w := getWork y i
    let done := isSetRoute e && w.loaded && !w.released && w.flankStarted && decide (w.expect = 0) && decide (e.flankOpen = 0) &&
      w.flankBad.isNone
    if regHalted y (entryRegion y e) then y else setRoute y i { e with refreshed := done }) x

/-- The mark is a FLANK mark of a set route, placed in the REFRESH wave. -/
def refreshMark (x : DieSt) (m : Half) : Bool :=
  markValid m && (decide (markKind m = kFLANK) || decide (markKind m = kFOREIGN)) &&
    (match findRoute x (decide (markKind m = kFOREIGN)) (markRoute m) with
     | some i => isSetRoute (getRoute x i)
     | none => true)

/-- SWEEP at one cell (03 R125): handover or release of a flank lock, then the refresh marks are cleared. -/
def sweepCell (x : DieSt) (c0 : CellRec) : CellRec :=
  let c := fabricRead c0
  let ps := (numsFrom 0 4).filter (fun p => refreshMark x (markOf c p))
  let c1 :=
    if c.owned && decide (c.lock = lockFLANK) then
      if ps.any (fun p => markOfRoute c.foreign c.ownerRoute (markOf c p)) then c
      else match ps with
        | [] => freeCell c
        | p :: _ =>
          let m := markOf c p
          let fg := decide (markKind m = kFOREIGN)
          ownCell fg (moduleOf x fg (markRoute m)) (markRoute m) lockFLANK c
    else c
  ps.foldl (fun c p => putMark p 0 c) c1

def enterSweep (x : DieSt) : DieSt :=
  let y := { x with wave := .sweep }
  broadcastCells (fun _ c => sweepCell y c) y

/-- REQUEST wave: PROBE to the ENTRANCE of every route in PROBING (03 R114); a waiting route is sent none (11 R344). -/
def requestRoute (cx : Ctx) (x : DieSt) (i : Nat) : DieSt :=
  let e0 := getRoute x i
  let w := getWork x i
  if e0.state ≠ rsPROBING || w.nack.isSome || w.waiting || w.granted || !w.loaded ||
      regHalted x (entryRegion x e0) then x
  else
    let d := entryDesc cx x e0
    let a := if e0.altValid then e0.alt.toNat else 0
    let e := { e0 with flankOpen := 0, alt := BitVec.ofNat 2 a }
    let n := (pathStarts x e 0).length
    let t := { engTok e tyPROBE d.entrance (startPort x e d) kPATH 0 (entPos (d.path.getD 0 0)) 0 with
      alt := BitVec.ofNat 2 a }
    emitEngine (entryRegion x e) [t] (setWork (setRoute x i (openFlank n e)) i { w with alt := a })

def enterRequest (cx : Ctx) (x : DieSt) : DieSt :=
  (liveRoutes x).foldl (fun y i => requestRoute cx y i) { x with wave := .request }

/-- COMMIT wave: broadcast COMMIT for every PROBED route; for a proxy only once its COMMIT entry has been taken. -/
def enterCommit (x : DieSt) : DieSt :=
  (liveRoutes x).foldl (fun y i =>
    let e := getRoute y i
    let w := getWork y i
    if e.state = rsPROBED && (!isProxy e || w.granted) && !regHalted y (entryRegion y e) then
      emitEngine (entryRegion y e) [engTok e tyCOMMIT 0 0 kPATH hopAll 0 0]
        (setWork y i { w with acks := [], expect := 1 })
    else y) { x with wave := .commit }

/-! ## Refusals (03 R117, R118; 11 R343) -/

/-- A reply or CANCEL that is sent once to the other territory. -/
def pushTerr (region terr : Nat) (op : BitVec 4) (reason : BitVec 8) (route : BitVec 13) (key : Word) (x : DieSt) : DieSt :=
  { x with terrOut := x.terrOut ++ [{ region := region, terr := terr, op := op, reason := reason, route := route, key := key }] }

/-- Territory that owns the cell a crossing route ends at (11 R336). -/
def exitTerr (cx : Ctx) (x : DieSt) (d : Desc) : Option Nat :=
  let c := getCell x d.exit
  if isCls .boundary c && decide ((ownerAddr c).extractLsb' 18 12 = BitVec.ofNat 12 cx.station) then
    some (getA 0 cx.territory ((ownerAddr c).extractLsb' 12 6).toNat)
  else none

/-- Clear every mark of a route in the die and forget its request. -/
def cancelMarks (e : RouteEntry) (x : DieSt) : DieSt :=
  broadcastCells (fun _ c => clearMarks (isProxy e) e.routeId c) x

/-- The entry returns to IDLE with a reason. -/
def toIdle (i : Nat) (r : BitVec 8) (x : DieSt) : DieSt :=
  unlistRoute i (setWork (modRoute x i (fun e => { e with state := rsIDLE, reason := r })) i workNone)

/-- A CANCEL entry for a crossing route that leaves waiting without a grant (11 Table 11.6). -/
def cancelRemote (cx : Ctx) (i : Nat) (x : DieSt) : DieSt :=
  let e := getRoute x i
  let w := getWork x i
  if !isProxy e && (w.waiting || w.remote) && !w.granted then
    match exitTerr cx x (entryDesc cx x e) with
    | some tr => pushTerr (entryRegion x e) tr 0x5 0 e.routeId e.key x
    | none => x
  else x

/-- R118 for a refused route: another try, or IDLE; a proxy ends at once with a NACK report. -/
def afterNack (cx : Ctx) (i : Nat) (r : BitVec 8) (x0 : DieSt) : DieSt :=
  let x := cancelRemote cx i x0
  let e := getRoute x i
  if isProxy e then
    let d := entryDesc cx x e
    toIdle i r (pushTerr (entryRegion x e) d.reqTerr 0x9 r d.routeId e.key x)
  else if !retryable r then toIdle i r x
  else if e.retry = 20 then toIdle i rnREFUSED x
  else
    setWork (setRoute x i { e with state := rsPROBING, altValid := false, retry := e.retry + 1, reason := r }) i
      { getWork x i with nack := none, hold := none, selected := false, firstHold := none, remote := false,
                         waiting := false, granted := false, flankStarted := false }

/-- The closing CANCEL of the REQUEST wave for every route that received NACK (03 R117), and what becomes of it. -/
def closeRequest (cx : Ctx) (x : DieSt) : DieSt :=
  (activeRoutes x).foldl (fun y i =>
    match (getWork y i).nack with
    | none => y
    | some r => afterNack cx i r (cancelMarks (getRoute y i) y)) x

/-- A COMMIT wave that met a NACK: RELEASE of all kinds and CANCEL, then R118 (03 R127). -/
def closeCommit (cx : Ctx) (x : DieSt) : DieSt :=
  (activeRoutes x).foldl (fun y i =>
    match (getWork y i).nack with
    | none => y
    | some r =>
      let e := getRoute y i
      let z := broadcastCells (fun _ c => releaseCell (isProxy e) e.routeId true kPATH c) (cancelMarks e y)
      afterNack cx i r (modWork z i (fun w => { w with ovlHeld := 0, ovlTaken := 0, called := [] }))) x

end Sys2Proof.Machine
end

