-- ==== Sys2Proof/Machine/Evaluate.lean ====
section
/-!
DEFINITION. EVALUATE: the route state transitions (03 Table 3.15, R130, R134 to R136; 11 R341 to R345, R352), and the order
and the cuts of the waves (03 R110, Table 3.10; 01 R47).
-/

namespace Sys2Proof.Machine

/-! ## What the replies of a cycle say -/

def ackTopOf (a : Ack) : BitVec 2 := a.reason.extractLsb' 6 2
def ackZoneOf (a : Ack) : Bool := bitOf a.reason 5
def ackFaultOf (a : Ack) : Bool := bitOf a.reason 4
def ackOccOf (a : Ack) : Bool := bitOf a.reason 3
def ackStateOf (a : Ack) : Nat := (a.reason.extractLsb' 0 3).toNat

/-- The reply of path entry `h`. -/
def pathAck (w : RouteWork) (h : Nat) : Option Ack :=
  w.acks.find? (fun a => decide (a.kind = kPATH) && decide (a.hop.toNat = h))

/-- A point of the route reads other than STATE 0. -/
def pointOff (x : DieSt) (w : RouteWork) : Bool :=
  w.acks.any (fun a => isPointLike (getCell x a.cell) && decide (ackStateOf a ≠ 0))

/-- Every point entry of the path at or beyond PROGRESS and of the held overlap has answered with STATE 0 (Table 3.15, CALLING). -/
def pointsHome (x : DieSt) (e : RouteEntry) (w : RouteWork) (d : Desc) : Bool :=
  let home := fun (k : BitVec 2) (h : Nat) => w.acks.any (fun a => decide (a.kind = k) && decide (a.hop.toNat = h) &&
    decide (ackStateOf a = 0))
  let isPoint := fun (g : Half) => isPointLike (getCell x (entCell g))
  let alt := (alternatives x d).getD e.alt.toNat []
  ((numsFrom 0 (d.pathLen - 1)).filter (fun h => decide (e.progress.toNat ≤ h) && isPoint (d.path.getD h 0))).all (home kPATH) &&
    ((numsFrom 0 8).filter (fun k => bitOf w.ovlHeld k && isPoint (alt.getD k 0))).all (home kOVERLAP) && !pointOff x w

/-- A cell that the route holds answered LOST. -/
def anyLost (w : RouteWork) : Bool := w.acks.any (fun a => decide (ackTopOf a = topLOST) && decide (a.kind ≠ kFLANK))

/-- Index of a traction system (03 R130, 02 Table 2.23); none for a word that is no codeword of the table. -/
def systemIndex (p : Half) : Option Nat :=
  if p = posAC25 then some 0 else if p = posAC15 then some 1 else if p = posDC3000 then some 2 else if p = posDC1500 then some 3
  else if p = posDC750 then some 4 else if p = posDEAD then some 5 else none

/-- Path index of the CHG entry. -/
def chgIndex (d : Desc) : Nat := (d.path.findIdx? entChg).getD d.pathLen

/-- One reply meets R130. -/
def ackProves (x : DieSt) (d : Desc) (a : Ack) : Bool :=
  let c := getCell x a.cell
  let k := clsOf c.cls
  let needState0 := isPointLike c || k = some .levelCrossing || k = some .lineBlock
  let power := decide (k = some .powerSection)
  let callOnFree := decide (d.kind = 2) && decide (a.kind = kPATH) &&
    (k = some .trackSection || k = some .diamond || k = some .virtual)
  let chg := chgIndex d
  let h := a.hop.toNat
  let powerOk :=
    if h < chg then decide (some (ackStateOf a) = systemIndex d.traction)
    else if h = chg then decide (some (ackStateOf a) = systemIndex d.traction) ||
      decide (some (ackStateOf a) = systemIndex d.tractionExit) || decide (ackStateOf a = 5)
    else decide (some (ackStateOf a) = systemIndex d.tractionExit)
  if a.kind = kFLANK then true
  else
    decide (ackTopOf a ≠ topLOST) && !ackZoneOf a && !ackFaultOf a && (!needState0 || decide (ackStateOf a = 0)) &&
      (power || callOnFree || !ackOccOf a) && (!power || powerOk)

/-- The newest HELD entry for the key, taken within T_max, shows PROVEN and not FAILED (11 R344); a route that crosses no
edge needs none. -/
def remoteProves (cx : Ctx) (x : DieSt) (e : RouteEntry) (d : Desc) : Bool :=
  match exitTerr cx x d with
  | none => true
  | some _ =>
    if isProxy e then true
    else
      match x.regions.toList[entryRegion x e]? with
      | none => false
      | some g =>
        match g.sup.terrs.find? (fun t => !t.forProxy && decide (t.route = e.routeId) && decide (t.key = e.key)) with
        | some t => decide (t.op = 0xA) && t.proven && !t.failed &&
            decide ((x.cycleNo - t.taken).toNat * cx.periodMs ≤ t.leftMs)
        | none => false

/-- R130, with the addition of R344. -/
def routeProves (cx : Ctx) (x : DieSt) (e : RouteEntry) (w : RouteWork) (d : Desc) : Bool :=
  e.refreshed && !e.replaced && w.acks.all (ackProves x d) && remoteProves cx x e d

/-! ## Transitions -/

/-- Start T0 of ENTRANCE for approach locking (03 R135, R522): the descriptor's profile, or the entrance cell's where the
descriptor fails. The route is APPROACH_LOCKED, or RELEASING for a time of 0. -/
def toApproach (cx : Ctx) (i : Nat) (x : DieSt) : DieSt :=
  let e := getRoute x i
  let w := getWork x i
  let d := entryDesc cx x e
  let c := fabricRead (getCell x d.entrance)
  let pn := if w.descBad then c.profile.toNat else d.profile.toNat
  let ok := profOk cx x pn
  let ms := if ok then profApprLock (getProfile x pn) else 0
  let x1 := setCell x d.entrance (addFaultIf (!ok) fCODE (putTimer 0 (startTimer ms) c))
  setRoute x1 i { e with state := if ms = 0 then rsRELEASING else rsAPPROACH }

/-- The route becomes ENTERED (03 R135, R136): the release of entry 0 is decided; a proxy has no entrance rule (11 R343).
Entries without occupancy before the first entry that has it go with entry 0. -/
def toEntered (cx : Ctx) (i : Nat) (x : DieSt) : DieSt :=
  let e := getRoute x i
  let d := entryDesc cx x e
  let lead := (d.path.drop 1).takeWhile (fun h =>
    match clsOf (getCell x (entCell h)).cls with
    | some k => !hasOcc k
    | none => false)
  let n := min lead.length (d.pathLen - 2)
  let x1 := setRoute x i { e with state := rsENTERED }
  if isProxy e then x1 else modWork x1 i (fun w => { w with relPath := numsFrom 0 (1 + n) })

/-- A command's result for the window (17 R472), kept by the region of the route. -/
def putResult (r : Nat) (q : ReqResult) (x : DieSt) : DieSt :=
  match x.regions.toList[r]? with
  | some g => { x with regions := x.regions.setIfInBounds r { g with results := g.results ++ [q] } }
  | none => x

/-- The result codes of 17 Table 17.8 that the dies give. -/
def resDONE : BitVec 8 := 0x01
def resREFUSED : BitVec 8 := 0x04

/-- One event row of Table 3.15 (and 11 Table 11.8) from the state the entry holds; none applies: `none`. A row to FAILED
comes first, then one to ENTERED, then any other (03 R134). A route that entered APPROACH_LOCKED on a failed descriptor is released
without it (R522): the DESCRIPTOR row takes it only where the check fails for the first time. -/
def eventRow (cx : Ctx) (i : Nat) (x : DieSt) : Option DieSt :=
  let e := getRoute x i
  let w := getWork x i
  let d := entryDesc cx x e
  let st := e.state
  let put := fun (s : BitVec 8) => some (setRoute x i { e with state := s })
  let fail := fun (r : BitVec 8) => some (setFailed x i e r)
  let lostState := [rsCALLING, rsLOCKED, rsPROVEN, rsAPPROACH].contains st
  let entry1Occ := match pathAck w (if isProxy e then 0 else 1) with
    | some a => ackOccOf a
    | none => false
  if lostState && (anyLost w || (w.descBad && (decide (st ≠ rsAPPROACH) || w.descNew))) then fail rnLOCKLOST
  else if st = rsCALLING && w.acks.any (fun a => w.called.contains a.cell && ackFaultOf a) then fail rnCALLFAILED
  else if st = rsPROVEN && !isProxy e && (if d.kind = 2 then w.approachSeen && w.approach = some false else entry1Occ) then
    some (toEntered cx i x)
  else if st = rsAPPROACH && !isProxy e && e.progress = 0 && entry1Occ then some (toEntered cx i x)
  else if st = rsPROBED && w.expect = 0 && !w.acks.isEmpty && w.nack.isNone then
    some (setWork (setRoute x i { e with state := if pointOff x w then rsCALLING else rsLOCKED }) i
      { w with proxyHeld := w.granted && !isProxy e })
  else if st = rsCALLING && !w.descBad && pointsHome x e w d then put rsLOCKED
  else if st = rsLOCKED && routeProves cx x e w d then
    some (setRoute x i { e with state := rsPROVEN, wasProven := true })
  else if st = rsPROVEN && !routeProves cx x e w d then put rsLOCKED
  else if st = rsAPPROACH && !isFrozen cx x e && decide ((getCell x d.entrance).t0.tstate = tEXPIRED) then put rsRELEASING
  else if st = rsENTERED && anyLost w && e.reason ≠ rnLOCKLOST then
    some (setRoute x i { e with reason := rnLOCKLOST })
  else none

/-- Event rows until none applies (the chains of R134 are at most four long). -/
def eventRows (cx : Ctx) (i : Nat) : Nat → DieSt → DieSt
  | 0, x => x
  | f + 1, x =>
    match eventRow cx i x with
    | none => x
    | some y => eventRows cx i f y

/-- A command that was taken for the route (03 R134 step 2, Table 3.15). A confirmed EMERG_RELEASE takes a FAILED proxy to RELEASING
at once (11 R353), and a proxy in LOCKED, PROVEN or ENTERED to APPROACH_LOCKED as it does a route: R343 names no difference. -/
def commandRow (cx : Ctx) (i : Nat) (x : DieSt) : DieSt :=
  let e := getRoute x i
  let w := getWork x i
  let r := entryRegion x e
  let done := fun (slot : Nat) (y : DieSt) => putResult r { slot := slot, result := resDONE, reason := 0, info := 0 } y
  let refused := fun (slot : Nat) => putResult r { slot := slot, result := resREFUSED, reason := rnNOTALLOWED, info := 0 } x
  match w.cmd with
  | none => x
  | some (.cancel slot) =>
    if isProxy e then refused slot
    else if e.state = rsPROBING || e.state = rsPROBED then
      let y := broadcastCells (fun _ c => releaseCell false e.routeId true kPATH c) (cancelMarks e (cancelRemote cx i x))
      done slot (toIdle i rnCANCELLED y)
    else if [rsCALLING, rsLOCKED, rsFAILED].contains e.state && !e.wasProven then
      done slot (setRoute x i { e with state := rsRELEASING })
    else if [rsLOCKED, rsPROVEN, rsFAILED].contains e.state && e.wasProven then
      let occOrFail := match w.approach with
        | some b => b
        | none => true
      done slot (if occOrFail || w.descBad then toApproach cx i x else setRoute x i { e with state := rsRELEASING })
    else refused slot
  | some (.replace slot) =>
    if e.state = rsPROVEN && !isProxy e then
      done slot (setRoute x i { e with state := rsLOCKED, replaced := true })
    else refused slot
  | some (.emergency slot) =>
    if isProxy e && decide (e.state = rsFAILED) then done slot (setRoute x i { e with state := rsRELEASING })
    else if [rsLOCKED, rsPROVEN, rsFAILED, rsENTERED].contains e.state then done slot (toApproach cx i x)
    else refused slot

/-! ## Releases (03 R136) -/

/-- The entry's cell has occupancy. -/
def entHasOcc (x : DieSt) (h : Half) : Bool :=
  match clsOf (getCell x (entCell h)).cls with
  | some k => hasOcc k
  | none => false

/-- Decide the sectional and overlap releases of an ENTERED route. DESIGN CHOICE (log entry 50): a LINE_BLOCK EXIT has no cell on
port 1 that could read OCC, so the last track entry before it is never released sectionally, and such a route stays ENTERED until an
EMERG_RELEASE. -/
def decideReleases (cx : Ctx) (i : Nat) (x0 : DieSt) : DieSt :=
  let e := getRoute x0 i
  let w := getWork x0 i
  let d := entryDesc cx x0 e
  if w.descBad || isFrozen cx x0 e then x0
  else
    let alt := (alternatives x0 d).getD e.alt.toNat []
    let x := ((d.path ++ alt).map entCell ++ [d.exit, adjCell (portOf (getCell x0 d.exit) 1)]).foldl fabricTouch x0
    let h := e.progress.toNat
    let lastIdx := d.pathLen - 2
    let occAt := fun (k : Nat) => (pathAck w k).map ackOccOf
    let tail_ := d.path.drop (h + 1)
    let between := tail_.takeWhile (fun g => !entHasOcc x g)
    let nextIdx := h + 1 + between.length
    let isLast := decide (lastIdx < nextIdx)
    let exitC := getCell x d.exit
    let beyond := adjCell (portOf exitC 1)
    let nextOcc :=
      if !isLast then occAt nextIdx = some true
      else if isCls .boundary exitC then occSet exitC
      else if isTrackLink (portOf exitC 1) then occSet (getCell x beyond)
      else false
    let hereClear := entHasOcc x (d.path.getD h 0) && occAt h = some false
    let run := if isLast && isCls .buffer exitC && hereClear then w.clearRun + 1 else 0
    let sectional := hereClear && (nextOcc || decide (2 ≤ run)) && decide (h ≤ lastIdx)
    let upTo := min nextIdx (d.pathLen - 1)
    let rel := if sectional then numsFrom h (upTo - h) else w.relPath
    let lastReleased := decide (lastIdx < h)
    let lastOcc := !lastReleased && (numsFrom 0 (lastIdx + 1)).getLast?.isSome &&
      (match (numsFrom 0 (lastIdx + 1)).reverse.find? (fun k => entHasOcc x (d.path.getD k 0)) with
       | some k => occAt k = some true
       | none => false)
    let heldIdx := (numsFrom 0 8).filter (bitOf w.ovlHeld)
    let ovlClear := heldIdx.all (fun k => !occSet (getCell x (entCell (alt.getD k 0))))
    let t1Done := decide (exitC.t1.tstate = tEXPIRED)
    let relOvl := decide (w.ovlHeld &&& ~~~w.ovlTaken ≠ 0) && ovlClear && (t1Done || lastReleased)
    let w1 := { w with relPath := rel, clearRun := run, relOverlap := w.relOverlap || relOvl }
    let x1 := setWork x i w1
    if lastOcc && !e.ovlTimer && isSignal exitC then
      let ok := profOk cx x d.profile.toNat
      let ms := if ok then profOvlRel (getProfile x d.profile.toNat) else 0
      setRoute (setCell x1 d.exit (addFaultIf (!ok) fCODE (putTimer 1 (startTimer ms) exitC))) i
        { e with ovlTimer := true }
    else x1

/-- The entry holds nothing: every path entry below EXIT released (a LINE_BLOCK EXIT included), and the overlap released or
taken (03 R135); a crossing route waits for RELEASED (11 R344). From a descriptor that fails nothing is concluded (03 R522), and a
frozen proxy stays (11 R352). -/
def holdsNothing (cx : Ctx) (x : DieSt) (e : RouteEntry) (w : RouteWork) : Bool :=
  let d := entryDesc cx x e
  let last := if isCls .lineBlock (getCell x d.exit) then d.pathLen else d.pathLen - 1
  !w.descBad && !isFrozen cx x e && decide (last ≤ e.progress.toNat) && decide (w.ovlHeld &&& ~~~w.ovlTaken = 0) &&
    !w.proxyHeld

/-- A committed proxy that returns to IDLE reports RELEASED (11 Table 11.6). -/
def leaveTable (cx : Ctx) (i : Nat) (x : DieSt) : DieSt :=
  let e := getRoute x i
  if isProxy e then
    let d := entryDesc cx x e
    toIdle i e.reason (pushTerr (entryRegion x e) d.reqTerr 0xB 0 d.routeId e.key x)
  else toIdle i e.reason x

/-- WAIT of a crossing route (11 R344, R345); reaching 5 ends it with REMOTE_TIMEOUT. -/
def countWait (cx : Ctx) (i : Nat) (x : DieSt) : DieSt :=
  let e := getRoute x i
  let w := getWork x i
  if e.state = rsPROBING && w.remote && !isProxy e then
    if !w.waiting then setWork (setRoute x i { e with wait := 0 }) i { w with waiting := true }
    else if e.wait.toNat + 1 < 5 then setRoute x i { e with wait := e.wait + 1 }
    else toIdle i rnREMOTETIMEOUT (cancelMarks e (cancelRemote cx i (setRoute x i { e with wait := 5 })))
  else x

/-- The owning territory of a crossing route is lost (11 Table 11.8). -/
def remoteLostRow (cx : Ctx) (i : Nat) (x : DieSt) : DieSt :=
  let e := getRoute x i
  let w := getWork x i
  if isProxy e then
    if (e.state = rsPROBING || e.state = rsPROBED) && cx.lostTerr.contains (entryDesc cx x e).reqTerr then
      toIdle i rnREMOTELOST (cancelMarks e x)
    else x
  else
    match exitTerr cx x (entryDesc cx x e) with
    | none => x
    | some tr =>
      if !cx.lostTerr.contains tr then x
      else if e.state = rsPROBING && w.waiting then toIdle i rnREMOTELOST (cancelMarks e (cancelRemote cx i x))
      else if [rsCALLING, rsLOCKED, rsPROVEN, rsAPPROACH].contains e.state then
        setFailed x i e rnREMOTELOST
      else if e.state = rsENTERED then setRoute x i { e with reason := rnREMOTELOST }
      else x

/-- A command whose route has left the table in the same evaluation has no row: refused with NOT_ALLOWED (03 R134). -/
def commandLost (cmd : Option RouteCmd) (r : Nat) (x : DieSt) : DieSt :=
  let slot := match cmd with
    | some (.cancel s) => some s
    | some (.replace s) => some s
    | some (.emergency s) => some s
    | none => none
  match slot with
  | some s => putResult r { slot := s, result := resREFUSED, reason := rnNOTALLOWED, info := 0 } x
  | none => x

/-- EVALUATE for one entry (03 R134). -/
def evalEntry (cx : Ctx) (x : DieSt) (i : Nat) : DieSt :=
  let cmd := (getWork x i).cmd
  let r := entryRegion x (getRoute x i)
  let x0 := countWait cx i (remoteLostRow cx i x)
  let x1 := eventRows cx i 4 x0
  let st := (getRoute x1 i).state
  if st = rsIDLE then commandLost cmd r x1
  else
    let seen := modWork x1 i (fun w => { w with approachSeen :=
      w.approachSeen || (decide (st = rsPROVEN) && decide (w.approach = some true)) })
    let x2 := if st = rsENTERED then decideReleases cx i seen else seen
    let e := getRoute x2 i
    let w := getWork x2 i
    let x3 := if st = rsENTERED && holdsNothing cx x2 e w then leaveTable cx i x2
      else if st = rsRELEASING && w.released && !w.proxyHeld && !isFrozen cx x2 e then leaveTable cx i x2
      else x2
    if (getRoute x3 i).state = rsIDLE then commandLost cmd r x3
    else modWork (commandRow cx i x3) i (fun w => { w with cmd := none })

/-- EVALUATE: every live entry of a region that runs, in order of entry index (01 R38). -/
def enterEvaluate (cx : Ctx) (x : DieSt) : DieSt :=
  let y := closeCommit cx { x with wave := .evaluate }
  (activeRoutes y).foldl (evalEntry cx) y

/-! ## The order of the waves (03 R110) -/

/-- A wave ends: the die has been quiet for 16 clocks. -/
def waveEnd (cx : Ctx) (x : DieSt) : DieSt :=
  if !isQuiet x then x
  else
    match x.wave with
    | .none => x
    | .load => enterRelease cx x
    | .release => enterRefresh cx x
    | .refresh => enterSweep (settleRefresh x)
    | .sweep => enterRequest cx x
    | .request => enterCommit (closeRequest cx x)
    | .commit => enterEvaluate cx x
    | .evaluate => { discardTokens x with wave := .none, propDone := true }

/-- A wave's budget is spent (03 Table 3.10, 01 R47). `loaded`: the routes that a cut LOAD had loaded. -/
def waveCut (cx : Ctx) (loaded : List Nat) (x : DieSt) : DieSt :=
  let busy := ((tokensOf x).filterMap (tokRoute x)).eraseDups
  let y := { discardTokens x with waveCut := true }
  match x.wave with
  | .load =>
    let z := (activeRoutes y).foldl (fun z i =>
      if loaded.contains i then z
      else
        let z1 := { z with steps := z.steps.filter (fun s => !(findRoute z s.foreign s.route == some i)) }
        let z2 := modWork z1 i (fun w => { w with loaded := false })
        if hasRequestWork (getRoute z2 i) && !(getWork z2 i).waiting then setNack i rnBUDGET z2 else z2) y
    enterRelease cx z
  | .release => enterRefresh cx y
  | .refresh =>
    let z := settleRefresh y
    let z1 := busy.foldl (fun z i => modRoute z i (fun e => { e with refreshed := false })) z
    let z2 := broadcastCells (fun _ c =>
      ((numsFrom 0 4).filter (fun p => refreshMark z1 (markOf c p))).foldl (fun c p => putMark p 0 c) c) z1
    enterRequest cx { z2 with refreshCut := true }
  | .request =>
    let z := (activeRoutes y).foldl (fun z i =>
      let e := getRoute z i
      let w := getWork z i
      if e.state = rsPROBING && !w.waiting && !(w.remote && w.hold.isSome && e.flankOpen = 0) && !w.granted then
        setNack i rnBUDGET z else z) y
    enterCommit (closeRequest cx z)
  | .commit =>
    let z := (activeRoutes y).foldl (fun z i =>
      let e := getRoute z i
      let w := getWork z i
      if e.state = rsPROBED && w.nack.isNone && (busy.contains i || w.expect ≠ 0) then
        if e.retry = 20 then toIdle i rnREFUSED (cancelMarks e z)
        else setWork (setRoute z i { e with retry := e.retry + 1 }) i { w with acks := [] }
      else z) y
    enterEvaluate cx z
  | _ => x

end Sys2Proof.Machine
end

