-- ==== Sys2Proof/Machine/Regions.lean ====
section
/-!
DEFINITION. Region pairs (05): region memory, registers, the die status area, tasks and traps, the event controller and
performance counters; and the cell steps of RULES_IN, RULES_OUT and COMMIT over a whole die (02 Table 2.19).
-/

namespace Sys2Proof.Machine

/-! ## Region states -/

/-- Performance counters at reset (19 Table 19.2). -/
def pmcReset : PmcSt :=
  { cyc := 0, cycHi := 0, cnt := [], selA := 0x04030201, selB := 0x16151412, stat := 0, reload := [],
    ring := [], lost := 0 }

/-- Supervisor data at start (05 R180, R193; 06 R524). -/
def supReset : SupData :=
  { shares := 0, initDone := false, regs := 0, snap := 0, forces := [], pendings := [], terrs := [], appLen := 0 }

/-- A byte of the supervisor data area: of the supervisor register area (05 R173), or of the other items (06 R524). -/
def supByte (u : SupData) (k : Nat) : Byte :=
  if Config.supervisorRegs ≤ k && k < Config.supervisorRegs + 60 then u.regs.extractLsb' (8 * (k - Config.supervisorRegs)) 8
  else Config.supervisorByte u k

/-- A region at reset (05 Tables 5.4 to 5.6). -/
def regionReset : RegionSt :=
  { mem := [], sup := supReset, g := [], rg := [], pc := 0, rpc := 0, task := 0, revert := false, revertPhase := 0, revertBank := false,
    trap := 0, trapPc := 0, charge := 0, rcharge := 0, evtCur := 0xFF, revCur := 0xFF, halted := false,
    haltCycle := false, forceNext := false, overIn := false, overOut := false, revOver := false, errLeft := [],
    pend := 0, posted := 0, postedPrev := 0, revDiscards := 0, dacc := crc64Ones, daccN := 0, map := [], spare := 16,
    eccCorrected := 0, eccAddr := 0, pairFault := none, pmc := pmcReset, results := [], dirty := [], sent := [] }

/-- Region `r` of a die. -/
def reg (x : DieSt) (r : Nat) : RegionSt := x.regions.toList.getD r regionReset
/-- Replace region `r`. -/
def setReg (x : DieSt) (r : Nat) (g : RegionSt) : DieSt := { x with regions := x.regions.setIfInBounds r g }
/-- Change region `r`. -/
def modReg (x : DieSt) (r : Nat) (f : RegionSt → RegionSt) : DieSt := setReg x r (f (reg x r))
/-- Change every region. -/
def mapRegs (x : DieSt) (f : Nat → RegionSt → RegionSt) : DieSt :=
  (numsFrom 0 16).foldl (fun y r => modReg y r (f r)) x

/-! ## Phases (04 Table 4.2) -/

def phIDLE : BitVec 4 := 0x0
def phWAKE : BitVec 4 := 0x1
def phSAMPLE : BitVec 4 := 0x2
def phRULESIN : BitVec 4 := 0x3
def phPROPAGATE : BitVec 4 := 0x4
def phRULESOUT : BitVec 4 := 0x5
def phCOMMIT : BitVec 4 := 0x6

/-! ## Region memory (05 Table 5.2) -/

/-- A byte of region memory; a byte that nothing has written reads 0. -/
def memByte (m : List Host.Cell) (a : Nat) : Byte := getA (0 : Byte) m a
/-- The canonical form of region memory: addresses strictly rising, no byte that an unlisted address reads as. -/
def Memory.wf (m : List Host.Cell) : Bool := canonA (0 : Byte) m
/-- Write a byte. -/
def memPut (m : List Host.Cell) (a : Nat) (b : Byte) : List Host.Cell := putA (0 : Byte) a b m
/-- A little-endian word. -/
def memWord (m : List Host.Cell) (a : Nat) : Word :=
  leWord (memByte m a) (memByte m (a + 1)) (memByte m (a + 2)) (memByte m (a + 3))
/-- Write a little-endian word. -/
def memPutWord (m : List Host.Cell) (a : Nat) (w : Word) : List Host.Cell :=
  memPut (memPut (memPut (memPut m a (w.extractLsb' 0 8)) (a + 1) (w.extractLsb' 8 8)) (a + 2) (w.extractLsb' 16 8))
    (a + 3) (w.extractLsb' 24 8)
/-- Write a list of words from an address on. -/
def memPutWords : List Host.Cell → Nat → List Word → List Host.Cell
  | m, _, [] => m
  | m, a, w :: t => memPutWords (memPutWord m a w) (a + 4) t
/-- Remove every listed byte of a range: it reads 0. -/
def memClear (m : List Host.Cell) (lo hi : Nat) : List Host.Cell := m.filter (fun c => c.1 < lo || hi ≤ c.1)

def memDATA : Nat := 0x40000
def memTX : Nat := 0x6C000
def memRX : Nat := 0x6D000
def memSUP : Nat := 0x6E000
def memSAVE : Nat := 0x6F000
def memSCRATCH : Nat := 0x6F400

/-! ## Tasks (05 Tables 5.2, 5.8) -/

def tkINIT : BitVec 4 := 0x1
def tkCYCIN : BitVec 4 := 0x2
def tkCYCOUT : BitVec 4 := 0x3
def tkREVERT : BitVec 4 := 0x4
def tkERROR : BitVec 4 := 0x5

/-- Save block of a task: INIT, CYCLIC_IN, CYCLIC_OUT, ERROR (05 Table 5.2). -/
def saveBlock (t : BitVec 4) : Nat :=
  memSAVE + (if t = tkINIT then 0 else if t = tkCYCIN then 64 else if t = tkCYCOUT then 128 else 192)

/-- Offset of a task's entry point in the entry table (05 R181). -/
def entryOffset (t : BitVec 4) : Nat :=
  if t = tkINIT then 0x0 else if t = tkCYCIN then 0x4 else if t = tkCYCOUT then 0x8
  else if t = tkREVERT then 0xC else 0x10

/-- Base of a code bank. -/
def bankBase (b : Bool) : Nat := if b then 0x20000 else 0
/-- Base of the active code bank. -/
def codeBase (x : DieSt) : Nat := bankBase x.active
/-- REVERT is running in the region. -/
def inRevert (x : DieSt) (r : Nat) : Bool := (reg x r).revert
/-- Base of the code bank that the region's running set fetches from: a REVERT run keeps the bank it started in (05 R198). -/
def runBase (x : DieSt) (r : Nat) : Nat := if inRevert x r then bankBase (reg x r).revertBank else codeBase x

/-- Entry point of a task; 0 where it is absent. -/
def entryPoint (x : DieSt) (r : Nat) (t : BitVec 4) : Word := memWord (reg x r).mem (codeBase x + entryOffset t)

/-- Code length of the bank that runs. -/
def codeLen (x : DieSt) (r : Nat) : Nat := (memWord (reg x r).mem (runBase x r + 0x14)).toNat

/-- Put a register of a set, in the die's encoding (05 R172). -/
def putG (strap : BitVec 2) (k : Nat) (w : Word) (g : List (Nat × Word)) : List (Nat × Word) :=
  putA (encodeWord strap 0) k (encodeWord strap w) g
/-- The true-form value of a register of a set. -/
def getG (strap : BitVec 2) (g : List (Nat × Word)) (k : Nat) : Word := decodeWord strap (getA (encodeWord strap 0) g k)

/-- Load g1 to g15 from a save block. -/
def loadSaved (strap : BitVec 2) (m : List Host.Cell) (t : BitVec 4) : List (Nat × Word) :=
  (numsFrom 1 15).foldl (fun g k => putG strap k (memWord m (saveBlock t + 4 * k)) g) []

/-- Write g1 to g15 and the status word back to the save block (05 R173, R174). -/
def storeSaved (strap : BitVec 2) (m : List Host.Cell) (t : BitVec 4) (g : List (Nat × Word)) (status : Word) : List Host.Cell :=
  memPutWord ((numsFrom 1 15).foldl (fun m k => memPutWord m (saveBlock t + 4 * k) (getG strap g k)) m) (saveBlock t) status

def svENDED : Word := 1
def svOVERRUN : Word := 2
def svTRAP : Word := 3

/-- Start a task of a region (05 R173, R179). -/
def startTask (r : Nat) (t : BitVec 4) (x : DieSt) : DieSt :=
  modReg x r (fun g => { g with g := loadSaved x.strap g.mem t, pc := (entryPoint x r t).setWidth 17, task := t, evtCur := 0xFF })

/-- A task ends or is stopped: registers to the save block, the supervisor runs. -/
def closeTask (r : Nat) (status : Word) (x : DieSt) : DieSt :=
  modReg x r (fun g => { g with mem := storeSaved x.strap g.mem g.task g.g status, g := [], task := 0, dirty := putA false 188 true g.dirty })

/-- ERROR sources of the event snapshot (05 R186), ascending. -/
def errorSources (snap : BitVec 256) : List Nat := [0xC1, 0xC2, 0xC3, 0xC4].filter (fun s => bitOf snap s)

/-- The tasks of RULES_IN from stage `k` on (05 R179, R180): 0 INIT, 1 ERROR, 2 CYCLIC_IN. The first that is due and present
starts; an absent one ends at once. -/
def runTasksIn (r : Nat) (k : Nat) (x : DieSt) : DieSt :=
  let g := reg x r
  let present := fun (t : BitVec 4) => decide (entryPoint x r t ≠ 0)
  let cyc := fun (y : DieSt) => if present tkCYCIN then startTask r tkCYCIN y else y
  let err := fun (y : DieSt) =>
    let es := errorSources (reg y r).sup.snap
    if es.isEmpty || !present tkERROR then cyc y
    else startTask r tkERROR (modReg y r (fun g => { g with errLeft := es }))
  if g.halted || g.haltCycle then x
  else if k = 0 then
    if g.sup.initDone then err x
    else if present tkINIT then startTask r tkINIT x
    else err (modReg x r (fun g => { g with sup := { g.sup with initDone := true } }))
  else if k = 1 then err x
  else if k = 2 then cyc x
  else x

/-- What follows a task of a phase that ended by EWAIT, or was stopped by a trap. -/
def afterTask (r : Nat) (t : BitVec 4) (ended : Bool) (x : DieSt) : DieSt :=
  if t = tkINIT then
    if ended then runTasksIn r 1 (modReg x r (fun g => { g with sup := { g.sup with initDone := true } })) else x
  else if t = tkERROR then runTasksIn r 2 x
  else x

/-! ## Events (05 R183 to R186) -/

/-- Post a source with the present cycle number. -/
def postEvent (r src : Nat) (x : DieSt) : DieSt :=
  modReg x r (fun g => { g with posted := setBitOf g.posted src true })

/-- Post a source to every region. -/
def postAll (src : Nat) (x : DieSt) : DieSt := (numsFrom 0 16).foldl (fun y r => postEvent r src y) x

/-- UNIT of a die in tail records (18 Table 18.2): 1, 2, 3 from its strap identity. -/
def dieUnit (x : DieSt) : BitVec 4 := x.strap.setWidth 4

/-- A tail record of the die. -/
def dieLog (code : BitVec 16) (place : Nat) (data : BitVec 64) (x : DieSt) : DieSt :=
  { x with logOut := x.logOut ++ [{ code := code, unit_ := dieUnit x, place := BitVec.ofNat 4 place, index := 0,
                                    data := data }] }

/-! ## Performance counters (19 R494 to R498) -/

/-- Selector of PMCn. -/
def pmcSel (p : PmcSt) (n : Nat) : Nat :=
  if n < 4 then (p.selA.extractLsb' (8 * n) 8).toNat else (p.selB.extractLsb' (8 * (n - 4)) 8).toNat

/-- PMCn wraps (19 R497): to 0, or to its reload value when it samples; OVF is set. -/
def pmcWrap (n : Nat) (p : PmcSt) : PmcSt :=
  { p with cnt := putA 0 n (if bitOf p.stat (16 + n) then getA 0 p.reload n else 0) p.cnt,
           stat := setBitOf p.stat n true }

/-- Count one event of a code; PMC n that stands at 0xFFFF_FFFF wraps and posts 0xC8 + n. -/
def pmcCount (r code : Nat) (x : DieSt) : DieSt :=
  if code = 0 || x.pmcFreeze || (reg x r).halted then x
  else
    (numsFrom 0 8).foldl (fun y n =>
      let p := (reg y r).pmc
      if pmcSel p n ≠ code then y
      else if getA 0 p.cnt n = 0xFFFFFFFF then
        postEvent r (0xC8 + n) (modReg y r (fun g => { g with pmc := pmcWrap n p }))
      else modReg y r (fun g => { g with pmc := { p with cnt := putA 0 n (getA 0 p.cnt n + 1) p.cnt } })) x

/-- Count `k` events of a code. -/
def pmcCounts (r code : Nat) : Nat → DieSt → DieSt
  | 0, x => x
  | k + 1, x => pmcCounts r code k (pmcCount r code x)

/-- TOKENS_OUT: each region counts the tokens that have left its outboxes in the clocks of token `t`, from die `x` (19 Table 19.1). -/
def countOut (t : Token) (x y : DieSt) : DieSt :=
  let z := transportFor t x
  (numsFrom 0 16).foldl (fun y r => pmcCounts r 0x11 (outboxTokens x r - outboxTokens z r) y) y

/-! ## REVERT (04 R161, R162; 05 R182, R184) -/

/-- In IDLE the fast clock stops unless a REVERT run lasts or a slice runs (04 R148). -/
def idleClock (x : DieSt) : DieSt :=
  if x.phase = phIDLE && x.sliceRun.isNone && (numsFrom 0 16).all (fun k => !(reg x k).revert) then { x with fastClock := false } else x

/-- Start a REVERT run, if an input event is pending and none lasts; a halted pair executes nothing (05 R171). -/
def startRevert (r : Nat) (x : DieSt) : DieSt :=
  let g := reg x r
  if g.pend = 0 || g.revert || g.halted || g.haltCycle || entryPoint x r tkREVERT = 0 then x
  else
    let y := { x with fastClock := true }
    pmcCount r 0x0B (modReg y r (fun g =>
      { g with revert := true, revertPhase := x.phase, revertBank := x.active, rg := [], rcharge := 0, revCur := 0xFF,
               rpc := (entryPoint x r tkREVERT).setWidth 17 }))

/-- A REVERT run ends: its registers and scratch area are cleared (05 R182). Events left over are discarded with a run that
was stopped, and counted (04 R162). -/
def endRevert (r : Nat) (stopped : Bool) (x : DieSt) : DieSt :=
  let y := modReg x r (fun g =>
    { g with revert := false, rg := [], rpc := 0, rcharge := 0, revCur := 0xFF,
             mem := memClear g.mem memSCRATCH (memSCRATCH + 0x400),
             revDiscards := if stopped then g.revDiscards + popCount g.pend 192 else g.revDiscards,
             pend := if stopped then 0 else g.pend })
  idleClock y

/-! ## Registers of the running set -/

/-- Task code of what runs (05 Table 5.5). -/
def runningTask (x : DieSt) (r : Nat) : BitVec 4 := if inRevert x r then tkREVERT else (reg x r).task

/-- A register of the running set; g0 reads 0. -/
def rget (x : DieSt) (r n : Nat) : Word :=
  if n = 0 then 0 else getG x.strap (if inRevert x r then (reg x r).rg else (reg x r).g) n

/-- Write a register of the running set; a write to g0 is discarded (05 R172). -/
def rset (r n : Nat) (v : Word) (x : DieSt) : DieSt :=
  if n = 0 then x
  else if inRevert x r then modReg x r (fun g => { g with rg := putG x.strap n v g.rg })
  else modReg x r (fun g => { g with g := putG x.strap n v g.g })

/-- PC of the running set. -/
def curPc (x : DieSt) (r : Nat) : Nat := if inRevert x r then (reg x r).rpc.toNat else (reg x r).pc.toNat

/-- Set PC of the running set. -/
def setPc (r n : Nat) (x : DieSt) : DieSt :=
  if inRevert x r then modReg x r (fun g => { g with rpc := BitVec.ofNat 17 n })
  else modReg x r (fun g => { g with pc := BitVec.ofNat 17 n })

/-- Charged clocks of the running phase or run, and its budget (04 R145, R162). -/
def curCharge (x : DieSt) (r : Nat) : Nat := if inRevert x r then (reg x r).rcharge else (reg x r).charge
def curBudget (cx : Ctx) (x : DieSt) (r : Nat) : Nat :=
  if inRevert x r then 25000 else if x.phase = phRULESIN then cx.budgetIn
  else if x.phase = phRULESOUT then cx.budgetOut else 0

/-- Add charged clocks. -/
def addCharge (r n : Nat) (x : DieSt) : DieSt :=
  if inRevert x r then modReg x r (fun g => { g with rcharge := g.rcharge + n })
  else modReg x r (fun g => { g with charge := g.charge + n })

/-! ## Stops -/

def cILLEGAL : BitVec 8 := 0x01
def cPCRANGE : BitVec 8 := 0x02
def cALIGN : BitVec 8 := 0x03
def cADDR : BitVec 8 := 0x04
def cCELLPHASE : BitVec 8 := 0x05
def cCELLFOREIGN : BitVec 8 := 0x06
def cCELLRANGE : BitVec 8 := 0x07
def cFIELD : BitVec 8 := 0x08
def cTIMERRO : BitVec 8 := 0x09
def cIOBIND : BitVec 8 := 0x0A
def cVALUE : BitVec 8 := 0x0B
def cREVERT : BitVec 8 := 0x0C
def cREG : BitVec 8 := 0x0D

/-- Record a trap in RR.TRAP and RR.TRAP_PC: the first since VALID was cleared stands (05 Table 5.6). -/
def recordTrap (task : BitVec 4) (cause : BitVec 8) (pc : Nat) (g : RegionSt) : RegionSt :=
  if bitOf g.trap 31 then g
  else { g with trap := (1#1 ++ 0#19 ++ task ++ cause : BitVec 32), trapPc := BitVec.ofNat 32 pc }

/-- A trap (05 R194): the task stops, the trap is recorded, the next block is forced and 0xC3 is posted. The tasks that
follow in the phase still run. -/
def doTrap (r : Nat) (cause : BitVec 8) (x : DieSt) : DieSt :=
  let t := runningTask x r
  let pc := curPc x r
  let y := modReg x r (fun g => { recordTrap t cause pc g with forceNext := true })
  let y := postEvent r 0xC3 (dieLog 0x407 r (BitVec.ofNat 32 pc ++ (1#1 ++ 0#19 ++ t ++ cause : BitVec 32)) y)
  if inRevert x r then endRevert r true y else afterTask r t false (closeTask r svTRAP y)

/-- A phase overrun (04 R151): the task stops at this instruction and the region is marked, which forces the block of this cycle. The
tasks that would follow in the phase do not start: the budget of the phase is spent (log entry 56). -/
def doOverrun (r : Nat) (x : DieSt) : DieSt :=
  let y := modReg x r (fun g =>
    { g with overIn := g.overIn || decide (x.phase = phRULESIN),
             overOut := g.overOut || decide (x.phase = phRULESOUT) })
  closeTask r svOVERRUN (postEvent r 0xC4 y)

/-- A REVERT overrun (04 R162). -/
def doRevertOverrun (r : Nat) (x : DieSt) : DieSt :=
  endRevert r true (postEvent r 0xC4 (modReg x r (fun g => { g with forceNext := true, revOver := true })))

/-- The instruction word that a region's running set fetches at PC. -/
def fetchedWord (x : DieSt) (r : Nat) : Word := memWord (reg x r).mem (runBase x r + curPc x r)

/-- The region's pair can execute rule code now. -/
def canRun (x : DieSt) (r : Nat) : Bool :=
  let g := reg x r
  decide (r < 16) && !g.halted && !g.haltCycle &&
    (g.revert || (decide (g.task ≠ 0) && x.runsPhases &&
      (decide (x.phase = phRULESIN) || decide (x.phase = phRULESOUT))))

/-- What an instruction does once its charge is taken: a next die state, or a trap cause. -/
inductive InsRes where
  | ok (x : DieSt)            -- effect taken, PC moves on
  | jump (x : DieSt)          -- effect taken, PC already set
  | trap (cause : BitVec 8)

/-- Run one instruction of a region (05 R188, R194; 04 R151, R162): nothing where no task runs; an overrun where the charge
would pass the budget; otherwise the charge, the effect and the next PC, or the trap. -/
def runIns (cx : Ctx) (r charge : Nat) (kind : Nat) (f : DieSt → InsRes) (x : DieSt) : DieSt :=
  if !canRun x r then x
  else if curBudget cx x r < curCharge x r + charge then
    if inRevert x r then doRevertOverrun r x else doOverrun r x
  else
    let y := addCharge r charge x
    match f y with
    | .trap c => doTrap r c y
    | .ok z =>
      let z := pmcCount r kind (pmcCount r 0x01 z)
      if curPc z r + 4 < 0x20 || codeLen z r < curPc z r + 8 then doTrap r cPCRANGE z
      else setPc r (curPc z r + 4) z
    | .jump z => pmcCount r kind (pmcCount r 0x01 z)

/-! ## What tasks read (05 Tables 5.3, 5.4) -/

/-- Words E0 to E3 of a route entry (03 Table 3.6). -/
def routeWords (e : RouteEntry) : List Word :=
  [ (e.state ++ e.alt ++ b2v e.altValid ++ e.origin ++ 0#6 ++ e.routeId : BitVec 32), e.key,
    (e.progress ++ e.retry ++ 0#5 ++ e.reason ++ b2v e.wasProven ++ b2v e.replaced ++ b2v e.ovlTimer ++
      b2v e.refreshed ++ 0#4 : BitVec 32),
    (e.flankOpen ++ e.wait ++ 0#14 : BitVec 32) ]

/-- Word `w` of a 192-bit vector. -/
def vec192Word (v : BitVec 192) (w : Nat) : Word := v.extractLsb' (32 * w) 32

/-- The word at byte offset `off` (a multiple of 4) of the die status area (05 Table 5.3). -/
def dsWord (x : DieSt) (off : Nat) : Word :=
  if off = 0 then x.dsCycle
  else if off = 4 then x.dsMode
  else if 0x10 ≤ off && off ≤ 0x24 then vec192Word x.image.read ((off - 0x10) / 4)
  else if 0x30 ≤ off && off ≤ 0x44 then vec192Word x.image.fault ((off - 0x30) / 4)
  else if off = 0x50 then x.image.group.setWidth 32
  else if 0x60 ≤ off && off ≤ 0x74 then vec192Word x.image.disc ((off - 0x60) / 4)
  else if 0x100 ≤ off && off ≤ 0x1FF then
    let p := getProfile x ((off - 0x100) / 32)
    (profWords p ++ [p.p7]).getD ((off - 0x100) / 4 % 8) 0
  else if 0x4000 ≤ off && off ≤ 0x7FFF then
    (routeWords (getRoute x ((off - 0x4000) / 16))).getD ((off - 0x4000) / 4 % 4) 0
  else 0

/-- Word at offset `off` of the task part of the region registers (05 Table 5.4). -/
def rrWord (cx : Ctx) (x : DieSt) (r off : Nat) : Word :=
  let g := reg x r
  if off = 0 then
    (0#12 ++ (if g.revert then g.revertPhase else x.phase) ++ 0#4 ++ runningTask x r ++ 0#4 ++ BitVec.ofNat 4 r : BitVec 32)
  else if off = 4 then g.trap
  else if off = 8 then g.trapPc
  else if off = 0xC then BitVec.ofNat 32 (curCharge x r)
  else if off = 0x10 then BitVec.ofNat 32 (curBudget cx x r - curCharge x r)
  else if 0x20 ≤ off && off ≤ 0x3C then g.sup.snap.extractLsb' (32 * ((off - 0x20) / 4)) 32
  else if off = 0x40 then (if g.revert then g.revCur else g.evtCur)
  else 0

/-- Byte of a word. -/
def byteOf (w : Word) (k : Nat) : Byte := w.extractLsb' (8 * (k % 4)) 8

/-- Where a data access of a task falls. -/
inductive Area where
  | mem | rr | ds | sup | none
  deriving DecidableEq, Repr

/-- Area of a load (05 Table 5.2). -/
def loadArea (x : DieSt) (r a : Nat) : Area :=
  if memDATA ≤ a && a < memSUP then .mem
  else if inRevert x r && memSCRATCH ≤ a && a < memSCRATCH + 0x400 then .mem
  else if 0x200000 ≤ a && a < 0x200800 then .rr
  else if 0x200800 ≤ a && a < 0x201000 then .sup
  else if 0x210000 ≤ a && a < 0x218000 then .ds
  else .none

/-- Area of a store (05 Table 5.2, R178). -/
def storeArea (x : DieSt) (r a : Nat) : Area :=
  if inRevert x r then (if memSCRATCH ≤ a && a < memSCRATCH + 0x400 then .mem else .none)
  else if memDATA ≤ a && a < memRX then .mem
  else if 0x200000 ≤ a && a < 0x201000 then .rr
  else .none

/-- The byte that region memory holds at an address, in the die's encoding (01 R20); code banks hold instruction words unencoded. -/
def heldByte (x : DieSt) (r a : Nat) : Byte :=
  if a < memDATA then memByte (reg x r).mem a else memByte (reg x r).mem a ^^^ maskByte x.strap a

/-- A byte as a load reads it, decoded with its part of the mask (05 R172). -/
def loadByte (cx : Ctx) (x : DieSt) (r a : Nat) : Byte :=
  match loadArea x r a with
  | .mem => heldByte x r a ^^^ maskByte x.strap a
  | .rr => byteOf (rrWord cx x r (a / 4 * 4 - 0x200000)) a
  | .ds => byteOf (dsWord x (a / 4 * 4 - 0x210000)) a
  | _ => 0

/-- A load of `n` bytes, zero-extended (05 R188). -/
def loadN (cx : Ctx) (x : DieSt) (r a n : Nat) : Word :=
  leWord (loadByte cx x r a) (if 1 < n then loadByte cx x r (a + 1) else 0)
    (if 2 < n then loadByte cx x r (a + 2) else 0) (if 3 < n then loadByte cx x r (a + 3) else 0)

/-- A load: the lowest cause that applies, or the value into rd. -/
def insLoad (cx : Ctx) (r rd ra : Nat) (imm : BitVec 18) (n : Nat) (x : DieSt) : InsRes :=
  let a := (rget x r ra + imm.signExtend 32).toNat
  if a % n ≠ 0 then .trap cALIGN
  else match loadArea x r a with
    | .none => .trap cADDR
    | .sup => .trap cREG
    | _ => .ok (rset r rd (loadN cx x r a n) x)

/-- Store `n` bytes into region memory. -/
def storeMem (m : List Host.Cell) (a n : Nat) (w : Word) : List Host.Cell :=
  (numsFrom 0 n).foldl (fun m k => memPut m (a + k) (byteOf w k)) m

/-- The 205 dirty blocks of a region (12 R366): retained memory in blocks of 1 KiB, then the cell records. -/
def markDirty (a : Nat) (g : RegionSt) : RegionSt :=
  if memDATA ≤ a && a < memSCRATCH then { g with dirty := putA false ((a - memDATA) / 1024) true g.dirty } else g

/-- A store: the lowest cause that applies; REVERT outside its scratch area meets REVERT_ACCESS (05 R194). -/
def insStore (r rd ra : Nat) (imm : BitVec 18) (n : Nat) (x : DieSt) : InsRes :=
  let a := (rget x r ra + imm.signExtend 32).toNat
  let v := rget x r rd
  let area := storeArea x r a
  if inRevert x r && area = .none then .trap cREVERT
  else if a % n ≠ 0 then .trap cALIGN
  else match area with
    | .none => .trap cADDR
    | .rr =>
      if 0x200004 ≤ a && a < 0x200008 then
        let w1c := bitOf (v <<< (8 * (a - 0x200004))) 31 && decide (0x200007 < a + n)
        .ok (if w1c then modReg x r (fun g => { g with trap := setBitOf g.trap 31 false }) else x)
      else .trap cREG
    | _ => .ok (modReg x r (fun g => markDirty a { g with mem := storeMem g.mem a n v }))

end Sys2Proof.Machine
end

