-- ==== Sys2Proof/Machine/CellIns.lean ====
section
/-!
DEFINITION. What a die's cells sense (02 R521, 08 R286, 11 R349), the aspects their routes allow (02 R95, 03 R131), the cell
instructions of rule code (05 R189 to R193, R35, R36), branches, EWAIT and DACC.
-/

namespace Sys2Proof.Machine

/-! ## Sensing -/

/-- Group of an output: twelve outputs each (08 R258). -/
def groupOf (out : Nat) : Nat := out / 12

/-- A FIELD record that has not been taken. -/
def fieldNone : FieldRec := { cut := 0, read := 0, fault := 0, disc := 0, status := [], taken := 0, leftMs := 0 }

/-- A FIELD record is taken and within T_max (11 R349). -/
def fieldFresh (cx : Ctx) (x : DieSt) (m : Nat) : Bool :=
  x.fields.any (fun p => decide (p.1 = m)) &&
    decide ((x.cycleNo - (getA fieldNone x.fields m).taken).toNat * cx.periodMs ≤ (getA fieldNone x.fields m).leftMs)

/-- Reading, fault and discrepancy of input `n` as the cell sees it: the image, or the FIELD record of a remote binding. -/
def inputOn (cx : Ctx) (x : DieSt) (c : CellRec) (n : Nat) : Bool :=
  if bindRemote c then fieldFresh cx x (remoteModule c) && bitOf (getA fieldNone x.fields (remoteModule c)).read n
  else bitOf x.image.read n
def inputFaulty (cx : Ctx) (x : DieSt) (c : CellRec) (n : Nat) : Bool :=
  if bindRemote c then fieldFresh cx x (remoteModule c) && bitOf (getA fieldNone x.fields (remoteModule c)).fault n
  else bitOf x.image.fault n
def inputDisc (cx : Ctx) (x : DieSt) (c : CellRec) (n : Nat) : Bool :=
  if bindRemote c then fieldFresh cx x (remoteModule c) && bitOf (getA fieldNone x.fields (remoteModule c)).disc n
  else bitOf x.image.disc n

/-- Status word of output `n` as the cell sees it; none where no FIELD record stands in for it (11 R349). -/
def outStatusOf (cx : Ctx) (x : DieSt) (c : CellRec) (n : Nat) : Option Word :=
  if bindRemote c then
    if fieldFresh cx x (remoteModule c) then some (getA 0 (getA fieldNone x.fields (remoteModule c)).status n) else none
  else some (getA 0xFF x.image.outStatus n)

/-- The outputs of a cell are shown: its own, or by a FIELD record within T_max. -/
def outShown (cx : Ctx) (x : DieSt) (c : CellRec) : Bool := !bindRemote c || fieldFresh cx x (remoteModule c)

/-- The group of output `n` is cut, as the cell sees it. -/
def outCut (x : DieSt) (c : CellRec) (n : Nat) : Bool :=
  if bindRemote c then bitOf (getA fieldNone x.fields (remoteModule c)).cut (groupOf n) else bitOf x.image.group (groupOf n)

/-- LOAD of a status word that counts for FAULT.LOAD (08 R286). -/
def loadBad (w : Word) : Bool :=
  let cls := w.extractLsb' 22 2
  if bitOf w 10 then decide (cls = 0) || decide (cls = 3) else decide (cls = 0)

/-- Output numbers bound to a cell. -/
def boundOuts (c : CellRec) : List Nat := numsFrom (outBase c) (outCount c)
/-- Input numbers bound to a cell. -/
def boundIns (c : CellRec) : List Nat := numsFrom (inBase c) (inCount c)

/-- What a cell senses at base derivation. -/
def senseOf (cx : Ctx) (x : DieSt) (c : CellRec) : Sense :=
  let ins := boundIns c
  let outs := boundOuts c
  let on := (numsFrom 0 8).foldl (fun (v : BitVec 8) k =>
    if k < inCount c && inputOn cx x c (inBase c + k) then setBitOf v k true else v) 0
  { on := on, inFault := ins.any (inputFaulty cx x c), inDisc := ins.any (inputDisc cx x c),
    outFault := outs.any (fun n => (outStatusOf cx x c n).any (fun w => decide (w.extractLsb' 16 4 ≠ 0))),
    outLoad := outs.any (fun n => (outStatusOf cx x c n).any loadBad),
    outSupply := outShown cx x c && outs.any (outCut x c),
    remoteLost := bindRemote c && cx.lostFields.contains (remoteModule c) }

/-- Mirrored values of a BOUNDARY cell that are not past T_max (02 R101). -/
def freshMirror (cx : Ctx) (x : DieSt) (n : Nat) : Option Mirror :=
  match x.mirrors.find? (fun p => decide (p.1 = n)) with
  | none => none
  | some p =>
    if (x.cycleNo - p.2.taken).toNat * cx.periodMs ≤ p.2.leftMs then some p.2.mirror else none

/-- The module that owns the cell a BOUNDARY cell mirrors is lost (02 R101). -/
def ownerLost (cx : Ctx) (c : CellRec) : Bool := cx.lostOwners.contains ((ownerAddr c).extractLsb' 12 18).toNat

/-! ## Aspects (02 R95, 03 R131) -/

/-- The owning route of a cell is PROVEN and allows the aspect. -/
def routeAllows (cx : Ctx) (x : DieSt) (c : CellRec) (v : Half) : Bool :=
  match (if c.owned then findRoute x c.foreign c.ownerRoute else none) with
  | none => false
  | some i =>
    let e := getRoute x i
    let k := (entryDesc cx x e).kind
    decide (e.state = rsPROVEN) &&
      (if k = 0 then [aspPROCEED1, aspPROCEED2, aspPROCEED3, aspPROCEED4, aspPROCEED5].contains v
       else if k = 1 then decide (v = aspSHUNT)
       else if k = 2 then decide (v = aspCALLON) else false)

/-- The line-clear input of a LINE_BLOCK reads ON. -/
def lineClear (cx : Ctx) (x : DieSt) (c : CellRec) : Bool := inputOn cx x c (inBase c)

/-- The aspect cap at one cell of a die. -/
def capCell (cx : Ctx) (x : DieSt) (c : CellRec) : CellRec :=
  let v := coded .aspect c
  capAspect (routeAllows cx x c v || decide (v = aspDANGER)) (lineClear cx x c) c

/-! ## Cell instructions -/

/-- PROPAGATE is running: cell reads meet the shadow (01 R35). -/
def inPropagate (x : DieSt) : Bool := decide (x.phase = phPROPAGATE) && decide (x.wave ≠ .none)

/-- The value CRD returns for a selector (05 Table 5.12), with the record after the read; none: FIELD undefined. -/
def crdValue (id f : Nat) (c0 : CellRec) : Option (Word × CellRec) :=
  let c := verifyCell c0
  let code := fun (k : Coded) => some ((readCoded k c).1.setWidth 32, (readCoded k c).2)
  let plain := fun (w : Word) => some (w, c)
  let ws := cellWords id c
  if f = 0 then plain (c.cls.setWidth 32)
  else if f = 1 then plain (c.profile.setWidth 32)
  else if f = 2 then plain (BitVec.ofNat 32 id)
  else if f = 3 then code .occ
  else if f = 4 then code .pos
  else if f = 5 then code .lock
  else if f = 6 then code .aspect
  else if f = 7 then code .cmd
  else if f = 8 then plain (c.fault.setWidth 32)
  else if f = 9 then plain (ws.getD 4 0)
  else if f ≤ 0xD then plain ((markOf c (f - 0xA)).setWidth 32)
  else if f ≤ 0x11 then
    let t := timerOf c (f - 0xE)
    if t.tstate = 3 then some (timerWord { t with tstate := tRUNNING }, addFault fTIMER c) else plain (timerWord t)
  else if f ≤ 0x15 then plain ((portOf c (f - 0x12)).setWidth 32)
  else if f = 0x16 then plain (maskBind c.cls c.bind)
  else if f = 0x17 then plain (c.app.setWidth 32)
  else if f = 0x18 then plain (c.ext.setWidth 32)
  else none

/-- Cell ID in a register: bits [31:12] must be 0 (05 R187). -/
def cellIdOf (w : Word) : Option Nat := if w.extractLsb' 12 20 = 0 then some w.toNat else none

/-- CRD (05 R189). -/
def insCrd (r rd ra f : Nat) (x : DieSt) : InsRes :=
  let w := rget x r ra
  let id := (w.extractLsb' 0 12).toNat
  if inPropagate x && regionOf id ≠ r && (cellIdOf w).isSome then .trap cCELLFOREIGN
  else if (cellIdOf w).isNone then .trap cCELLRANGE
  else
    let src := if inPropagate x then getA cellUnused x.shadow id else getCell x id
    match crdValue id f src with
    | none => .trap cFIELD
    | some (v, c) => .ok (rset r rd v (if inPropagate x then x else setCell x id c))

/-- The common causes of a cell write (05 Table 5.11), lowest first; none: allowed. -/
def cellWriteCause (x : DieSt) (r : Nat) (w : Word) : Option (BitVec 8) :=
  let id := (w.extractLsb' 0 12).toNat
  if inRevert x r && !inPropagate x then some cREVERT
  else if inPropagate x then some cCELLPHASE
  else if (cellIdOf w).isSome && regionOf id ≠ r then some cCELLFOREIGN
  else if (cellIdOf w).isNone || isCls .unused (getCell x id) then some cCELLRANGE
  else none

/-- The field that CWR may write (05 Table 5.12). -/
def cwrField : Nat → Option Coded
  | 3 => some .occ
  | 4 => some .pos
  | 6 => some .aspect
  | 7 => some .cmd
  | _ => none

/-- CWR (05 R190). -/
def insCwr (cx : Ctx) (r rd ra rb f : Nat) (x : DieSt) : InsRes :=
  let w := rget x r ra
  let id := (w.extractLsb' 0 12).toNat
  let v := rget x r rb
  match cellWriteCause x r w with
  | some c => .trap c
  | none =>
    if f = 0x17 then
      let c := verifyCell (getCell x id)
      if (clsOf c.cls).isNone then .ok (rset r rd stRESTRICTED (setCell x id c))
      else .ok (rset r rd stSTORED (setCell x id { c with app := v.extractLsb' 0 16, checkErr := 0 }))
    else match cwrField f with
      | none => .trap cFIELD
      | some k =>
        let c := (readCoded k (verifyCell (getCell x id))).2
        let p := appWrite k v (cellProf cx x c) (routeAllows cx x c (v.extractLsb' 0 16)) (lineClear cx x c) c
        .ok (rset r rd p.1 (setCell x id p.2))

/-- Cause of a state bit is absent in the present image (02 R91). -/
def causeAbsent (cx : Ctx) (x : DieSt) (c : CellRec) (n : Nat) : Bool :=
  let s := senseOf cx x c
  let shown := outShown cx x c
  if n = fINPUT then !s.inFault && shown
  else if n = fDISC then !s.inDisc && shown
  else if n = fOUTPUT then !s.outFault && shown
  else if n = fLOAD then !s.outLoad && shown
  else if n = fSUPPLY then
    shown && !s.outSupply && (boundOuts c).all (fun o =>
      let key := if bindRemote c then 8 * (remoteModule c + 1) + groupOf o else groupOf o
      decide (max 1 (profReclear (getProfile x c.profile.toNat)) ≤ getA 0 x.restoredRun key))
  else if n = fPROVING then decide (inCount c = 0) || bitOf s.on 0
  else if n = fREMOTE then
    if isCls .boundary c then !ownerLost cx c else !s.remoteLost
  else true

/-- W1C of FAULT by the application (02 R91): what of the mask the rules allow. Clearing CALL_TIMEOUT also stops T0. -/
def clearFaults (cx : Ctx) (x : DieSt) (mask : BitVec 16) (c : CellRec) : CellRec :=
  let hits := (numsFrom 4 12).filter (fun n => bitOf mask n && hasFault c n && causeAbsent cx x c n)
  let c1 := hits.foldl (fun c n => { c with fault := setBitOf c.fault n false, checkErr := 0 }) c
  if hits.contains fCALL && isPointLike c then putTimer 0 (stopTimer c1.t0) c1 else c1

/-- CFC (02 R91, 05 Table 5.7). -/
def insCfc (cx : Ctx) (r rd ra rb f : Nat) (x : DieSt) : InsRes :=
  let w := rget x r ra
  let id := (w.extractLsb' 0 12).toNat
  match cellWriteCause x r w with
  | some c => .trap c
  | none =>
    if f ≠ 8 then .trap cFIELD
    else
      let c := clearFaults cx x ((rget x r rb).extractLsb' 0 16) (verifyCell (getCell x id))
      .ok (rset r rd (c.fault.setWidth 32) (setCell x id c))

/-- IRD (05 R193). -/
def insIrd (cx : Ctx) (r rd ra k : Nat) (x : DieSt) : InsRes :=
  let w := rget x r ra
  let id := (w.extractLsb' 0 12).toNat
  let c := verifyCell (getCell x id)
  let y := if inPropagate x then x else setCell x id c
  if (cellIdOf w).isNone then .trap cCELLRANGE
  else if inCount c ≤ k then .trap cIOBIND
  else .ok (rset r rd (b2w (inputOn cx x c (inBase c + k))) y)

/-- OWR (05 R193). -/
def insOwr (r ra rb k : Nat) (x : DieSt) : InsRes :=
  let w := rget x r ra
  let id := (w.extractLsb' 0 12).toNat
  let c := verifyCell (getCell x id)
  let y := if inPropagate x then x else setCell x id c
  if inRevert x r then .trap cREVERT
  else if (cellIdOf w).isSome && regionOf id ≠ r then .trap cCELLFOREIGN
  else if (cellIdOf w).isNone then .trap cCELLRANGE
  else if outCount c ≤ k || bindRemote c then .trap cIOBIND
  else .ok (modReg y r (fun g =>
    { g with sup := { g.sup with shares := setBitOf g.sup.shares (outBase c + k) (bitOf (rget x r rb) 0) } }))

/-- TST and TSP share their checks (05 Table 5.11). -/
def timerCause (x : DieSt) (r ra k : Nat) : Option (BitVec 8) :=
  let w := rget x r ra
  match cellWriteCause x r w with
  | some c => some c
  | none => if timerRo (getCell x (w.extractLsb' 0 12).toNat) k then some cTIMERRO else none

/-- TST (02 R82, R86). -/
def insTst (r ra rb k : Nat) (x : DieSt) : InsRes :=
  let id := ((rget x r ra).extractLsb' 0 12).toNat
  let v := rget x r rb
  match timerCause x r ra k with
  | some c => .trap c
  | none =>
    if 16777215 < v.toNat then .trap cVALUE
    else .ok (modCell x id (fun c => putTimer k (startTimer (v.extractLsb' 0 24)) (verifyCell c)))

/-- TSP (02 R86). -/
def insTsp (r ra k : Nat) (x : DieSt) : InsRes :=
  let id := ((rget x r ra).extractLsb' 0 12).toNat
  match timerCause x r ra k with
  | some c => .trap c
  | none => .ok (modCell x id (fun c => let c := verifyCell c; putTimer k (stopTimer (timerOf c k)) c))

/-- The output a DROP names, or the cause it meets (04 R163, R164). -/
def dropTarget (x : DieSt) (r ra k : Nat) : Nat ⊕ BitVec 8 :=
  let w := rget x r ra
  let id := (w.extractLsb' 0 12).toNat
  let c := getCell x id
  if (cellIdOf w).isSome && regionOf id ≠ r then .inr cCELLFOREIGN
  else if (cellIdOf w).isNone then .inr cCELLRANGE
  else if outCount c ≤ k || bindRemote c then .inr cIOBIND
  else .inl (outBase c + k)

/-! ## Branches and jumps (05 R188) -/

/-- Go to byte offset `t` if it is a place of the code; otherwise PC_RANGE. -/
def goTo (r : Nat) (t : Int) (x : DieSt) : InsRes :=
  if t < 0x20 ∨ (codeLen x r : Int) - 4 < t then .trap cPCRANGE
  else .jump (pmcCount r 0x0A (setPc r t.toNat x))

/-- A branch by `off` words if its condition holds. -/
def insBranch (r : Nat) (taken : Bool) (off : BitVec 18) (x : DieSt) : InsRes :=
  if taken then goTo r ((curPc x r : Int) + 4 * off.toInt) x else .ok x

/-- JAL: rd is written only when the target is a place of the code. -/
def insJal (r rd : Nat) (imm : BitVec 18) (x : DieSt) : InsRes :=
  let link : Word := BitVec.ofNat 32 (curPc x r + 4)
  match goTo r ((curPc x r : Int) + 4 * imm.toInt) x with
  | .jump y => .jump (rset r rd link y)
  | z => z

/-- JR: PC_RANGE before ALIGN, the lower code first (05 R194). -/
def insJr (r ra : Nat) (x : DieSt) : InsRes :=
  let v := (rget x r ra).toNat
  match goTo r v x with
  | .jump y => if v % 4 ≠ 0 then .trap cALIGN else .jump y
  | z => z

/-! ## EWAIT and DACC -/

/-- The lowest pending input source. -/
def lowestPending (p : BitVec 192) : Option Nat := (numsFrom 0 192).find? (bitOf p)

/-- EWAIT (05 R191): deliver the next source, or end the task or run. -/
def insEwait (r rd : Nat) (x : DieSt) : InsRes :=
  let g := reg x r
  if g.revert then
    match lowestPending g.pend with
    | some s =>
      .ok (rset r rd (BitVec.ofNat 32 s)
        (modReg x r (fun g => { g with pend := setBitOf g.pend s false, revCur := BitVec.ofNat 32 s })))
    | none => .jump (endRevert r false x)
  else if g.task = tkERROR then
    match g.errLeft with
    | s :: t =>
      .ok (rset r rd (BitVec.ofNat 32 s) (modReg x r (fun g => { g with errLeft := t, evtCur := BitVec.ofNat 32 s })))
    | [] => .jump (afterTask r g.task true (closeTask r svENDED x))
  else .jump (afterTask r g.task true (closeTask r svENDED x))

/-- DACC (05 R192, 06 R205): four bytes, little-endian, into the sub-digest. -/
def insDacc (r ra : Nat) (x : DieSt) : InsRes :=
  if inRevert x r then .trap cREVERT
  else .ok (modReg x r (fun g =>
    { g with dacc := crc64Feed g.dacc (leBytes (rget x r ra)), daccN := g.daccN + 1 }))

/-- A register result of an arithmetic or logic instruction. -/
def insAlu (r rd : Nat) (v : Word) (x : DieSt) : InsRes := .ok (rset r rd v x)

/-! ## Instruction words (05 R187, R188) -/

/-- Charge of CRD (05 Table 5.7): 14 in the own region, 48 across the spine; the region is taken from ra[11:0] also where ra[31:12] is
not 0 and the access traps (log entry 59). -/
def crdCharge (x : DieSt) (r ra : Nat) : Nat :=
  if regionOf ((rget x r ra).extractLsb' 0 12).toNat = r then 14 else 48

/-- An instruction word that traps ILLEGAL: undefined opcode, a field that must be 0, or 0x0000_0000. -/
def illegalWord (w : Word) : Bool :=
  let op := (w.extractLsb' 26 6).toNat
  let rd := w.extractLsb' 22 4
  let ra := w.extractLsb' 18 4
  let rb := w.extractLsb' 14 4
  let field := w.extractLsb' 9 5
  let mid := w.extractLsb' 3 6
  let k := (w.extractLsb' 0 3).toNat
  let low14 := w.extractLsb' 0 14
  if op = 0 then true
  else if op ≤ 0x06 then false
  else if op = 0x08 then decide (ra ≠ 0) || decide (w.extractLsb' 16 2 ≠ 0)
  else if op = 0x09 then false
  else if op = 0x0A || op = 0x0B || op = 0x0C || op = 0x1D || op = 0x1E then decide (w.extractLsb' 16 2 ≠ 0)
  else if 0x10 ≤ op && op ≤ 0x1C && op ≠ 0x19 then decide (low14 ≠ 0)
  else if 0x20 ≤ op && op ≤ 0x23 then false
  else if op = 0x24 then decide (ra ≠ 0)
  else if op = 0x25 then decide (low14 ≠ 0) || decide (rd ≠ 0) || decide (rb ≠ 0)
  else if op = 0x28 then decide (mid ≠ 0)
  else if op = 0x29 || op = 0x2A then decide (mid ≠ 0)
  else if op = 0x2B then decide (mid ≠ 0) || decide (field ≠ 0)
  else if op = 0x2C then decide (mid ≠ 0) || decide (field ≠ 0) || decide (rd ≠ 0)
  else if op = 0x2D then decide (mid ≠ 0) || decide (field ≠ 0) || decide (rd ≠ 0) || decide (3 < k)
  else if op = 0x2E then
    decide (mid ≠ 0) || decide (field ≠ 0) || decide (rd ≠ 0) || decide (rb ≠ 0) || decide (3 < k)
  else if op = 0x2F then decide (mid ≠ 0) || decide (field ≠ 0) || decide (rd ≠ 0) || decide (rb ≠ 0)
  else if op = 0x30 then decide (low14 ≠ 0) || decide (ra ≠ 0) || decide (rb ≠ 0)
  else if op = 0x31 then decide (low14 ≠ 0) || decide (rd ≠ 0) || decide (rb ≠ 0)
  else true

end Sys2Proof.Machine
end

