-- ==== Sys2Proof/Machine/Tail.lean ====
section
/-!
DEFINITION. The tail recorder (18): records, rate limiting, the staging spool, the log in the tail memory, and the time base.
-/

namespace Sys2Proof.Machine

/-! ## Event codes (18 Table 18.3) -/

def cdLOGSTART : BitVec 16 := 0x001
def cdCLEAR : BitVec 16 := 0x002
def cdSUPPRESSED : BitVec 16 := 0x003
def cdTIMESTEP : BitVec 16 := 0x004
def cdMODECHANGE : BitVec 16 := 0x101
def cdOVERLAY : BitVec 16 := 0x102
def cdSTARTREFUSED : BitVec 16 := 0x103
def cdRESET : BitVec 16 := 0x104
def cdAOLOST : BitVec 16 := 0x105
def cdSHUTDOWNBIST : BitVec 16 := 0x106
def cdTRIP : BitVec 16 := 0x201
def cdPOWERLOSS : BitVec 16 := 0x202
def cdEXCLUDED : BitVec 16 := 0x301
def cdREJOINSTART : BitVec 16 := 0x302
def cdREJOINDONE : BitVec 16 := 0x303
def cdREJOINABANDON : BitVec 16 := 0x304
def cdPAIRFAULT : BitVec 16 := 0x305
def cdECC : BitVec 16 := 0x306
def cdDIECLOCK : BitVec 16 := 0x307
def cdSLICEFAIL : BitVec 16 := 0x308
def cdMISSED : BitVec 16 := 0x401
def cdWAKELATE : BitVec 16 := 0x402
def cdABANDONED : BitVec 16 := 0x403
def cdOVERRUNIN : BitVec 16 := 0x404
def cdOVERRUNOUT : BitVec 16 := 0x405
def cdREVERTOVER : BitVec 16 := 0x406
def cdTXEXCESS : BitVec 16 := 0x502
def cdINFAULTSET : BitVec 16 := 0x601
def cdINFAULTCLEAR : BitVec 16 := 0x602
def cdLOCKSET : BitVec 16 := 0x701
def cdLOCKCLEAR : BitVec 16 := 0x702
def cdGROUPCUT : BitVec 16 := 0x703
def cdGROUPRESTORED : BitVec 16 := 0x704
def cdDISCARD : BitVec 16 := 0x801
def cdLINKLOST : BitVec 16 := 0x802
def cdNETDOWN : BitVec 16 := 0x803
def cdCYCLEAPART : BitVec 16 := 0x804
def cdYIELD : BitVec 16 := 0x901
def cdYIELDREFUSED : BitVec 16 := 0x902
def cdIMAGEDIFF : BitVec 16 := 0x903
def cdDUALCLAIM : BitVec 16 := 0x904
def cdPARTNERSILENT : BitVec 16 := 0x905
def cdHANDOVERABORT : BitVec 16 := 0x906
def cdPREFCONFLICT : BitVec 16 := 0x907
def cdCLAIMOUTFAULT : BitVec 16 := 0x908
def cdCLAIMLINE : BitVec 16 := 0x909
def cdTRANSFER : BitVec 16 := 0x90A
def cdCHANGE : BitVec 16 := 0xA01
def cdCARRYOVER : BitVec 16 := 0xA02
def cdFORCE : BitVec 16 := 0xA03
def cdCOMMITENTRY : BitVec 16 := 0xA04
def cdVERSIONLOST : BitVec 16 := 0xA05
def cdCARRIER : BitVec 16 := 0xA06
def cdSIGNEDACCEPT : BitVec 16 := 0xB01
def cdGATEWAYFAULT : BitVec 16 := 0xB02
def cdSPOOLSTATUS : BitVec 16 := 0xC01
def cdSEALCHANGED : BitVec 16 := 0xD01
def cdCOVER : BitVec 16 := 0xD02

/-- Codes that are never limited (18 R485). -/
def codeUnlimited (c : BitVec 16) : Bool :=
  decide ((c.extractLsb' 8 8).toNat ≤ 2) || c == cdCOMMITENTRY || c == cdSIGNEDACCEPT

/-! ## Records -/

/-- A record in the staging spool: all of 18 Table 18.2 but SEQ, MARK and CHECK. -/
structure StageRec where
  utc : BitVec 48
  req : LogReq
  suppressed : BitVec 16
  timeValid : Bool
  mode : BitVec 3
  cycle : BitVec 24
  deriving DecidableEq, Repr

/-- A complete record of the log, with its SEQ. `complete`: MARK and CHECK stand (an erased slot reads false). -/
structure TailRec where
  rec_ : StageRec
  seq : Word
  complete : Bool
  deriving DecidableEq, Repr

/-- A rate table entry (18 Table 18.4). -/
structure Rate where
  burst : Nat
  refill : Nat
  deriving DecidableEq, Repr

/-- The default of 18 R486. -/
def rateDefault : Rate := { burst := 16, refill := 10 }

/-- An erased slot. -/
def stageNone : StageRec :=
  { utc := 0, req := { code := 0, unit_ := 0, place := 0, index := 0, data := 0 }, suppressed := 0, timeValid := false,
    mode := 0, cycle := 0 }
def slotErased : TailRec := { rec_ := stageNone, seq := 0, complete := false }

/-- The tail recorder (18): the staging spool, the log by slot, the slot and SEQ of the newest record, the block whose erase is
due, the level taken from each code's bucket (full: 0), the suppressed counts with the time at which each rose from 0, the
SEQ of the latest CLEAR record, the slots skipped at start, and the time of the latest load from or write to the RTC. -/
structure TailSt where
  staging : Spool StageRec
  log : List (Nat × TailRec)
  newest : Option (Nat × Word)
  eraseDue : Option Nat
  taken : List (Nat × Nat)
  suppressed : List (Nat × Nat)
  supSince : List (Nat × Nat)
  clearSeq : Option Word
  skipped : Nat
  rtcAt : Nat
  running : Bool
  /-- Time base: µs, half µs of the slew accumulator, TIME_VALID, the target being slewed to. -/
  utc : BitVec 48
  utcHalf : Bool
  timeValid : Bool
  target : Option (BitVec 48)
  deriving DecidableEq, Repr

/-- An empty tail memory and recorder at reset. -/
def tailReset : TailSt :=
  { staging := spEmpty stageNone, log := [], newest := none, eraseDue := none, taken := [], suppressed := [], supSince := [],
    clearSeq := none, skipped := 0, rtcAt := 0, running := false, utc := 0, utcHalf := false, timeValid := false, target := none }

def stagingDepth : Nat := 128
def stagingWm : Nat := 96
/-- Slots of the log (18 R481). -/
def logSlots : Nat := 16711680
/-- Slots of one block. -/
def blockSlots : Nat := 2048

/-- Words G0 to G7 of a record in a slot (18 Table 18.2). -/
def recordWords (slot : Nat) (t : TailRec) : List Word :=
  let r := t.rec_
  let g : List Word :=
    [ r.utc.extractLsb' 0 32, (r.req.code ++ r.utc.extractLsb' 32 16 : BitVec 32),
      (r.req.unit_ ++ r.req.place ++ r.req.index ++ r.suppressed : BitVec 32), t.seq, r.req.data.extractLsb' 0 32,
      r.req.data.extractLsb' 32 32, (b2v r.timeValid ++ r.mode ++ 0#4 ++ r.cycle : BitVec 32) ]
  let crc := crc32c (leBytes (BitVec.ofNat 32 (0x200000 + 32 * slot)) ++ g.flatMap leBytes)
  if t.complete then g ++ [(0x5AC3#16 ++ crc.extractLsb' 0 16 : BitVec 32)] else List.replicate 8 (-1)

/-! ## The limiter (18 R485, R487) -/

/-- Rate of a code. -/
def rateOf (rates : List (Nat × Rate)) (c : BitVec 16) : Rate := getA rateDefault rates c.toNat

/-- What a record takes from the moment it enters the staging spool. -/
structure Stamp where
  mode : BitVec 3
  cycle : Word
  ms : Nat
  rates : List (Nat × Rate)
  deriving DecidableEq, Repr

/-- One more record of a code suppressed. -/
def suppress (ms : Nat) (c : BitVec 16) (t : TailSt) : TailSt :=
  let n := getA 0 t.suppressed c.toNat
  { t with suppressed := putA 0 c.toNat (n + 1) t.suppressed,
           supSince := if n = 0 then putA 0 c.toNat (ms + 1) t.supSince else t.supSince }

/-- The record as it enters the spool, carrying the suppressed count of its code. -/
def stageOf (s : Stamp) (q : LogReq) (sup : BitVec 16) (t : TailSt) : StageRec :=
  { utc := t.utc, req := q, suppressed := sup, timeValid := t.timeValid, mode := s.mode, cycle := s.cycle.extractLsb' 0 24 }

/-- A record reaches the limiter. `hw`: its producer is hardware and never waits (18 R487). `extra`: the SUPPRESSED field of an
unlimited code. -/
def tailPut (hw : Bool) (s : Stamp) (q : LogReq) (extra : BitVec 16) (t : TailSt) : TailSt :=
  let c := q.code
  let k := c.toNat
  let put := fun (r : StageRec) (t : TailSt) =>
    { t with staging := if hw then spCredit stagingDepth stagingWm r t.staging else spBack stagingDepth stagingWm r t.staging }
  if !t.running then t
  else if hw && spFull stagingDepth t.staging then suppress s.ms c t
  else if codeUnlimited c then put (stageOf s q extra t) t
  else
    let b := (rateOf s.rates c).burst * 10000
    let u := getA 0 t.taken k
    if b < u + 10000 then suppress s.ms c t
    else
      let r := stageOf s q (BitVec.ofNat 16 (min (getA 0 t.suppressed k) 65535)) t
      put r { t with taken := putA 0 k (u + 10000) t.taken, suppressed := putA 0 k 0 t.suppressed,
                     supSince := putA 0 k 0 t.supSince }

/-- One millisecond refills every bucket (18 R485). -/
def tailRefill (rates : List (Nat × Rate)) (t : TailSt) : TailSt :=
  { t with taken := mapA 0 (fun k u => u - (rateOf rates (BitVec.ofNat 16 k)).refill) t.taken }

/-- Write a code's count as a SUPPRESSED record; the count returns to 0. -/
def supSummary (s : Stamp) (k : Nat) (t : TailSt) : TailSt :=
  let n := getA 0 t.suppressed k
  if n = 0 then t
  else
    tailPut true s { code := cdSUPPRESSED, unit_ := 8, place := 0, index := 0,
                     data := (0#16 ++ BitVec.ofNat 16 (min n 65535) ++ 0#16 ++ BitVec.ofNat 16 k : BitVec 64) } 0
      { t with suppressed := putA 0 k 0 t.suppressed, supSince := putA 0 k 0 t.supSince }

/-- The summary of a code that has stood for 60 s (18 R485). -/
def supDue (s : Stamp) (k : Nat) (t : TailSt) : TailSt :=
  if 0 < getA 0 t.supSince k && decide (getA 0 t.supSince k - 1 + 60000 ≤ s.ms) then supSummary s k t else t

/-- The summaries of every code whose count has stood for 60 s. -/
def supDueAll (s : Stamp) (t : TailSt) : TailSt := (t.suppressed.map (·.1)).foldl (fun t k => supDue s k t) t

/-- Every count is written before the recorder stops (18 R485). -/
def supAll (s : Stamp) (t : TailSt) : TailSt := (t.suppressed.map (·.1)).foldl (fun t k => supSummary s k t) t

/-! ## The log (18 R483, R487) -/

/-- Slot and SEQ of the next record. -/
def nextSlot (t : TailSt) : Nat × Word :=
  match t.newest with
  | none => (0, 0)
  | some (s, q) => ((s + 1) % logSlots, q + 1)

/-- The tail controller completes programming one record. It waits for the erase of the block it would enter. -/
def tailWrite (t : TailSt) : TailSt :=
  let p := nextSlot t
  if !t.running || spIsEmpty t.staging || t.eraseDue = some (p.1 / blockSlots) then t
  else
    let q := spTake stagingDepth stagingWm t.staging
    { t with staging := q.2, newest := some p,
             log := putA slotErased p.1 { rec_ := q.1, seq := p.2, complete := true } t.log,
             clearSeq := if q.1.req.code = cdCLEAR then some p.2 else t.clearSeq,
             eraseDue := if p.1 % blockSlots = 0 then some ((p.1 / blockSlots + 1) % 8160) else t.eraseDue }

/-- Remove the records of a block. -/
def eraseBlock (b : Nat) (t : TailSt) : TailSt :=
  { t with log := t.log.filter (fun p => decide (p.1 / blockSlots ≠ b)) }

/-- The erase of the log block ahead completes (18 R487). -/
def tailErased (t : TailSt) : TailSt :=
  match t.eraseDue with
  | none => t
  | some b => { eraseBlock b t with eraseDue := none }

/-- Write every record of the staging spool: the hold-up of a supply loss and step 1 of the shutdown (18 R492). -/
def tailFlush : Nat → TailSt → TailSt
  | 0, t => t
  | n + 1, t => if spIsEmpty t.staging then t else tailFlush n (tailWrite (tailErased t))

/-- The recorder starts (18 R493): buckets full, counts 0, LOG_START. `skipped`: slots left incomplete by a loss. -/
def tailStart (s : Stamp) (skipped : Nat) (t : TailSt) : TailSt :=
  let t1 := { t with staging := { spEmpty stageNone with faults := t.staging.faults }, taken := [], suppressed := [], supSince := [], skipped := skipped, rtcAt := s.ms, running := true,
                     timeValid := false, target := none,
                     newest := match t.newest with
                       | some (n, q) => some ((n + skipped) % logSlots, q)
                       | none => none }
  let t2 := match t.newest with
    | some (n, _) => { eraseBlock ((n / blockSlots + 1) % 8160) t1 with eraseDue := none }
    | none => t1
  let d : BitVec 64 := match t.newest with
    | some (_, q) => (0#15 ++ 0#1 ++ BitVec.ofNat 16 skipped ++ q : BitVec 64)
    | none => (0#15 ++ 1#1 ++ BitVec.ofNat 16 skipped ++ 0#32 : BitVec 64)
  tailPut true s { code := cdLOGSTART, unit_ := 8, place := 0, index := 0, data := d } 0 t2

/-- Valid records in ascending SEQ order: the log from the oldest on. -/
def logOrdered (t : TailSt) : List (Nat × TailRec) :=
  match t.newest with
  | none => []
  | some (n, _) => (t.log.filter (fun p => n < p.1)) ++ t.log.filter (fun p => p.1 ≤ n)

/-! ## Time (18 R488) -/

/-- A target for the time base: the first after start and a far one step it, every other is slewed to. The tail record is
TIME_STEP with the signed difference. -/
def timeTarget (s : Stamp) (tgt : BitVec 48) (t : TailSt) : TailSt :=
  let diff : Int := (tgt.toNat : Int) - t.utc.toNat
  if !t.timeValid || 10000000 < diff.natAbs then
    tailPut true s { code := cdTIMESTEP, unit_ := 4, place := 0, index := 0, data := BitVec.ofInt 64 diff } 0
      { t with utc := tgt, utcHalf := false, timeValid := true, target := none }
  else { t with target := some tgt }

/-- One millisecond of the time base: 1,000 µs, and 0.5 µs more or less while it slews. The target advances with it. -/
def timeTick (t : TailSt) : TailSt :=
  match t.target with
  | none => { t with utc := t.utc + 1000 }
  | some g =>
    let g1 := g + 1000
    if t.utc = g then { t with utc := g1, target := none }
    else if t.utc.toNat < g.toNat then
      (if t.utcHalf then { t with utc := t.utc + 1001, utcHalf := false, target := some g1 }
       else { t with utc := t.utc + 1000, utcHalf := true, target := some g1 })
    else
      (if t.utcHalf then { t with utc := t.utc + 1000, utcHalf := false, target := some g1 }
       else { t with utc := t.utc + 999, utcHalf := true, target := some g1 })

end Sys2Proof.Machine
end

