-- ==== Sys2Proof/Machine/AlwaysOn.lean ====
section
/-!
DEFINITION. The always-on domain (13): major modes and overlays, the millisecond count, reset sources, the seal block S1, the
claim lines, retained histories, the watchdog and the ripcord's trip record (06 R225 to R232).
-/

namespace Sys2Proof.Machine

/-! ## Modes (13 Tables 13.1, 13.3) -/

/-- The major modes. -/
inductive Mode where
  | wake | active | standby | safe | shutdown | dormant
  deriving DecidableEq, Repr

/-- Mode codes of Table 13.1. -/
def modeCode : Mode → BitVec 3
  | .wake => 1
  | .active => 2
  | .standby => 3
  | .safe => 4
  | .shutdown => 5
  | .dormant => 6

/-- The six overlays (13 Table 13.3). -/
structure Overlays where
  degraded : Bool
  forcing : Bool
  change : Bool
  substitute : Bool
  probation : Bool
  maintenance : Bool
  deriving DecidableEq, Repr

/-- No overlay. -/
def overlaysClear : Overlays :=
  { degraded := false, forcing := false, change := false, substitute := false, probation := false, maintenance := false }

/-- The overlays that a mode lets change (13 Table 13.5): SAFE and SHUTDOWN freeze all but MAINTENANCE, and set no CHANGE; WAKE sets neither FORCING nor
CHANGE. -/
def overlaysIn (m : Mode) (old new : Overlays) : Overlays :=
  match m with
  | .safe | .shutdown => { old with change := old.change && new.change, maintenance := new.maintenance }
  | .wake => { new with forcing := old.forcing && new.forcing, change := old.change && new.change }
  | _ => new

/-- The six bits of DS.MODE (13 Table 13.4). -/
def overlayBits (o : Overlays) : BitVec 6 :=
  b2v o.maintenance ++ b2v o.probation ++ b2v o.substitute ++ b2v o.change ++ b2v o.forcing ++ b2v o.degraded

/-- DS.MODE (13 Table 13.4). -/
def modeWord (m : Mode) (o : Overlays) : Word := (0#13 ++ modeCode m ++ 0#10 ++ overlayBits o : BitVec 32)

/-! ## Reset sources (13 R393 to R397) -/

/-- Which reset input. -/
inductive ResetSrc where
  | button | rst
  deriving DecidableEq, Repr

/-- SOURCE of a reset history record (13 Table 13.11). -/
def resetSrcCode : ResetSrc → BitVec 4
  | .button => 1
  | .rst => 2

/-- One source: asserted after its filter, held beyond 2 s, recorded as stuck, and the time of the assertion in ms. -/
structure ResetIn where
  asserted : Bool
  held : Bool
  stuck : Bool
  since : Nat
  deriving DecidableEq, Repr

def resetInFree : ResetIn := { asserted := false, held := false, stuck := false, since := 0 }

/-- A pending restart or shutdown request, with the boundaries seen since (13 R394, R395). -/
inductive StopReq where
  | none
  | restart (boundaries : Nat)
  | shutdown (boundaries : Nat)
  deriving DecidableEq, Repr

/-! ## The seal block (14 R411, 15 R437) -/

/-- The 32 pairs of contacts: bit n − 1 is switch n, 1 for closed. -/
structure Seal where
  a : Word
  b : Word
  deriving DecidableEq, Repr

/-- The switches on: contact A closed and B open. -/
def sealOn (s : Seal) : Word := s.a &&& ~~~s.b
/-- Every pair is antivalent. -/
def sealWhole (s : Seal) : Bool := decide (s.a ^^^ s.b = -1)
/-- Switch `n` reads on; a discrepancy of that switch reads off (14 R411). -/
def switchOn (s : Seal) (n : Nat) : Bool := bitOf (sealOn s) (n - 1)
/-- Switch `n` is in discrepancy. -/
def switchBad (s : Seal) (n : Nat) : Bool := bitOf s.a (n - 1) == bitOf s.b (n - 1)

def swPREFERRED : Nat := 19
def swCHANGE : Nat := 20
def swUPDATE : Nat := 21
def swFORCE : Nat := 22
def swAUTORESTART : Nat := 23

/-- Contacts as shipped (00 R4): switches 1 to 31 off, 32 on. -/
def sealShipped : Seal := { a := 0x80000000, b := 0x7FFFFFFF }

/-- Station number and module position of the switches (15 Table 15.6). -/
def sealStation (v : Word) : BitVec 12 := v.extractLsb' 0 12
def sealPosition (v : Word) : BitVec 6 := v.extractLsb' 12 6

/-- Three readings at the start (14 R411): the refusal code, or the value latched. -/
def sealStart (rs : List Seal) : Word ⊕ BitVec 8 :=
  match rs with
  | [] => .inr 0x01
  | r :: t =>
    if !sealWhole r || t.any (fun q => decide (q ≠ r)) then .inr 0x01
    else if popCount (sealOn r) 32 % 2 = 0 then .inr 0x02
    else .inl (sealOn r)

/-! ## Trips (06 Tables 6.7, 6.8) -/

/-- The trip causes, by their bit. -/
inductive Cause where
  | majorityLoss | hlDisagree | pumpFault | aoWatchdog | resetHeld | logicSupply | overtemp | noLoop
  deriving DecidableEq, Repr

/-- A cause line as the ripcord finds it (06 R225): 0b10 healthy, 0b01 fires; 0b00 and 0b11 fire as well. `us`: microseconds since the
latch was set (06 R230). -/
structure CauseIn where
  line : BitVec 2
  us : Nat
  deriving DecidableEq, Repr

/-- A cause that fires the ripcord for itself. -/
def causeNow : CauseIn := { line := 1, us := 0 }

/-- Bit of a cause. -/
def causeBit : Cause → Nat
  | .majorityLoss => 0
  | .hlDisagree => 1
  | .pumpFault => 2
  | .aoWatchdog => 3
  | .resetHeld => 4
  | .logicSupply => 5
  | .overtemp => 6
  | .noLoop => 7

/-- A trip history record (06 Table 6.8). -/
structure TripRec where
  kind : BitVec 4
  autoCount : BitVec 4
  secondary : BitVec 8
  first : BitVec 8
  cycle : Word
  region : BitVec 4
  detail : BitVec 8
  avail : BitVec 4
  aoTime : Word
  deriving DecidableEq, Repr

/-- Words T0 to T3. -/
def tripWords (t : TripRec) : List Word :=
  [ (0#8 ++ t.kind ++ t.autoCount ++ t.secondary ++ t.first : BitVec 32), t.cycle,
    (0#12 ++ t.region ++ t.detail ++ 0#4 ++ t.avail : BitVec 32), t.aoTime ]

/-- A reset history record (13 Table 13.11). -/
structure ResetRec where
  source : BitVec 4
  cls : BitVec 4
  duration : BitVec 16
  aoTime : Word
  deriving DecidableEq, Repr

/-- Words Y0 and Y1. -/
def resetWords (t : ResetRec) : List Word := [(0#8 ++ t.source ++ t.cls ++ t.duration : BitVec 32), t.aoTime]

/-- A qualifying trip that waits for its automatic restart (06 R232). -/
structure AutoWait where
  since : Nat
  overtemp : Bool
  deriving DecidableEq, Repr

/-! ## Claim lines (12 R356) -/

/-- What CLAIM_IN shows. -/
inductive ClaimIn where
  | static | live | invalid
  deriving DecidableEq, Repr

/-! ## The domain -/

/-- A kind of history record that the domain holds for the tail. -/
inductive HistKind where
  | trip
  | reset
  | cover
  deriving DecidableEq, Repr

/-- The always-on domain (13 Table 13.10 and the sensors and lines it holds). -/
structure AoSt where
  /-- History items that the tail has not yet taken, in the order in which they arose (13 R407, 18 R493). -/
  uncopied : List HistKind
  /-- The millisecond count and its accumulator (13 R404). -/
  ms : Nat
  acc : Nat
  tripLatch : Bool
  tripHist : List TripRec
  resetHist : List ResetRec
  autoTimes : List Nat
  /-- Re-join attempt times by copy: die × 16 + region. -/
  rejoinTimes : List (Nat × List Nat)
  rtcSec : Nat
  rtcSub : Nat
  coverEvents : List Nat
  shutMark : Bool
  markSeen : Bool
  aoLost : Bool
  /-- The check word of the retained block matches. -/
  blockOk : Bool
  wdArmed : Bool
  claimEn : Bool
  claimIn : ClaimIn
  claimOutOk : Bool
  /-- Millisecond count at which CLAIM_IN became STATIC. -/
  staticSince : Nat
  coverOpen : Bool
  /-- Millisecond count at which the cover contact was last found open. -/
  coverAt : Nat
  button : ResetIn
  rstIn : ResetIn
  shdn : Bool
  stopReq : StopReq
  contacts : Seal
  /-- Station, position and PREFERRED as latched. -/
  latched : Word
  sealShown : Seal
  tbBad : Nat
  hbHeld : Bool
  autoWait : Option AutoWait
  /-- The ripcord has fired and the pump clocks are stopped; the cause lines as dual-rail pairs (06 R225). -/
  causeLines : List (Nat × BitVec 2)
  /-- The watchdog's counters since the last heartbeat, on SLK and on XO32, in ms (06 R228). -/
  wdSlk : Nat
  wdXo : Nat
  pumpRun : Bool
  /-- A pump clock has run since the module last began a start (06 R230). -/
  pumpRan : Bool
  /-- PD2 is on, and the bridle's scan enable is locked since PD2 came on after a reset of PD1 (14 R420). -/
  pd2On : Bool
  scanLocked : Bool
  deriving DecidableEq, Repr

/-- The domain as shipped: nothing retained, every line healthy. -/
def aoReset : AoSt :=
  { uncopied := [], ms := 0, acc := 0, tripLatch := false, tripHist := [], resetHist := [], autoTimes := [], rejoinTimes := [], rtcSec := 0,
    rtcSub := 0, coverEvents := [], shutMark := false, markSeen := false, aoLost := false, blockOk := true, wdArmed := false,
    claimEn := false, claimIn := .static, claimOutOk := true, staticSince := 0, coverOpen := false, coverAt := 0,
    button := resetInFree, rstIn := resetInFree, shdn := false, stopReq := .none, contacts := sealShipped, latched := 0,
    sealShown := sealShipped, tbBad := 0, hbHeld := false, autoWait := none, causeLines := [], wdSlk := 0, wdXo := 0, pumpRun := false, pumpRan := false, pd2On := false, scanLocked := false }

/-- AO_TIME: seconds on the always-on time base. -/
def aoTime (a : AoSt) : Word := BitVec.ofNat 32 (a.ms / 1000)

def dayMs : Nat := 86400000

/-- Automatic restarts in the preceding 24 h (06 R232). -/
def autoCount (a : AoSt) : Nat := (a.autoTimes.filter (fun t => decide (a.ms < t + dayMs))).length

/-- An item of a history has arisen; `running`: the recorder takes its record at once. -/
def noteHist (running : Bool) (k : HistKind) (a : AoSt) : AoSt :=
  { a with uncopied := if running then a.uncopied else lastN 40 (a.uncopied ++ [k]) }

/-- Add a trip record; the latest 16 stay (06 R230). -/
def pushTrip (running : Bool) (t : TripRec) (a : AoSt) : AoSt :=
  noteHist running .trip { a with tripHist := lastN 16 (a.tripHist ++ [t]) }

/-- Add a reset record; the latest 16 stay. -/
def pushReset (running : Bool) (t : ResetRec) (a : AoSt) : AoSt :=
  noteHist running .reset { a with resetHist := lastN 16 (a.resetHist ++ [t]) }

/-- Add a cover opening; the latest 8 stay (13 R389). -/
def pushCover (a : AoSt) : AoSt := noteHist false .cover { a with coverEvents := lastN 8 (a.coverEvents ++ [a.rtcSec]) }

/-- A source of the domain. -/
def resetIn (a : AoSt) : ResetSrc → ResetIn
  | .button => a.button
  | .rst => a.rstIn

def putResetIn (q : ResetSrc) (r : ResetIn) (a : AoSt) : AoSt :=
  match q with
  | .button => { a with button := r }
  | .rst => { a with rstIn := r }

/-- A reset source is held beyond 2 s (13 R396). -/
def anyHeld (a : AoSt) : Bool := a.button.held || a.rstIn.held

/-- Hold time of a source in units of 10 ms, saturating. -/
def holdUnits (a : AoSt) (r : ResetIn) : BitVec 16 := BitVec.ofNat 16 (min ((a.ms - r.since) / 10) 65535)

/-- The count advances by 1 ms outside DORMANT (13 R404), and both counters of the watchdog with it (06 R228); the RTC's subseconds by the 32.768 periods of XO32 that a ms holds. -/
def aoTick (a : AoSt) : AoSt :=
  let sub := a.rtcSub + ((a.ms + 1) * 4096 / 125 - a.ms * 4096 / 125)
  { a with ms := a.ms + 1, wdSlk := a.wdSlk + 1, wdXo := a.wdXo + 1, rtcSec := if 32768 ≤ sub then a.rtcSec + 1 else a.rtcSec, rtcSub := sub % 32768 }

/-- One XO32 period in DORMANT (13 R404). -/
def aoTickDormant (a : AoSt) : AoSt :=
  let acc := a.acc + 1000
  let sub := a.rtcSub + 1
  { a with ms := if 32768 ≤ acc then a.ms + 1 else a.ms, acc := acc % 32768,
           rtcSec := if 32768 ≤ sub then a.rtcSec + 1 else a.rtcSec, rtcSub := sub % 32768 }

/-- The check of the retained block (13 R402): a loss clears both histories, exhausts the automatic restarts and restarts the
count. -/
def aoCheckBlock (ok : Bool) (a : AoSt) : AoSt :=
  if ok && a.blockOk then { a with aoLost := false }
  else
    { a with aoLost := true, blockOk := true, tripHist := [], resetHist := [], autoTimes := [0, 0, 0], ms := 0, acc := 0,
             rejoinTimes := [], coverEvents := [], uncopied := [] }

end Sys2Proof.Machine
end

