-- ==== Sys2Proof/Machine/CheckUnit.lean ====
section
/-!
DEFINITION. Check units (09 R310 to R312): the registers of Table 9.12, their feeding and comparison, and the transfers that
hardware feeds. The structure stands in Types.
-/

namespace Sys2Proof.Machine

/-- A unit at reset: RUN, COUNT and RES read 0. -/
def checkUnitReset : CheckUnit :=
  { foldLen := 0, set_ := 0, err := false, mismatch := false, matched := false, foldA := 0, foldB := 0, run := 0, count := 0,
    expectHi := none, fresh := true }

/-- Initial running value of a set. -/
def cuInit (s : BitVec 2) : BitVec 64 := if s = 2 then -1 else 0xFFFFFFFF

/-- Feed one byte. -/
def cuByte (b : Byte) (u : CheckUnit) : CheckUnit :=
  let r : BitVec 64 :=
    if u.set_ = 0 then (crc32cByte (u.run.extractLsb' 0 32) b).setWidth 64
    else if u.set_ = 1 then (crc32kByte (u.run.extractLsb' 0 32) b).setWidth 64
    else crc64Byte u.run b
  { u with run := r, count := u.count + 1, fresh := false }

/-- Bytes of a word in the set's order. -/
def cuBytes (u : CheckUnit) (w : Word) : List Byte := if u.set_ = 1 then beBytes w else leBytes w

/-- Feed a byte string. -/
def cuFeed (bs : List Byte) (u : CheckUnit) : CheckUnit := bs.foldl (fun u b => cuByte b u) u

/-- Feed a word. -/
def cuWord (w : Word) (u : CheckUnit) : CheckUnit := cuFeed (cuBytes u w) u

/-- The result: the running value with the final XOR; 0 until the unit has been used (Table 9.12). -/
def cuResult (u : CheckUnit) : BitVec 64 :=
  if u.fresh then 0 else if u.set_ = 2 then u.run ^^^ -1 else (u.run ^^^ 0xFFFFFFFF) &&& 0xFFFFFFFF

/-- A write of CTRL with RESTART (09 R312): refused for an undefined SET or fold length. -/
def cuRestart (s : BitVec 2) (foldLen : BitVec 4) (u : CheckUnit) : CheckUnit :=
  if s = 3 || (foldLen ≠ 0 && foldLen ≠ 4 && foldLen ≠ 8) then { u with set_ := s, foldLen := foldLen, err := true }
  else
    let u1 := { u with set_ := s, foldLen := foldLen, run := cuInit s, count := 0, fresh := false }
    let u2 := if foldLen = 0 then u1 else cuWord u1.foldA u1
    if foldLen = 8 then cuWord u2.foldB u2 else u2

/-- EXPECT: compare with RES_LO, or with RES_HI:RES_LO for CRC-64 after a write to EXPECT_HI, which this write releases. -/
def cuExpect (w : Word) (u : CheckUnit) : CheckUnit :=
  let ok := match u.expectHi with
    | some h => if u.set_ = 2 then decide (cuResult u = h ++ w) else decide ((cuResult u).extractLsb' 0 32 = w)
    | none => decide ((cuResult u).extractLsb' 0 32 = w)
  if ok then { u with matched := true, expectHi := none } else { u with matched := false, mismatch := true, expectHi := none }

/-- A register as it reads (Table 9.12): every feed is absorbed before the next command, so BUSY reads 0. -/
def cuRead (u : CheckUnit) (off : Nat) : Word :=
  if off = 0x00 then 0#20 ++ u.foldLen ++ 0#4 ++ u.set_ ++ 0#2
  else if off = 0x04 then 0#29 ++ b2v u.err ++ b2v u.mismatch ++ b2v u.matched
  else if off = 0x08 then u.foldA
  else if off = 0x0C then u.foldB
  else if off = 0x18 then u.run.extractLsb' 32 32
  else if off = 0x1C then u.run.extractLsb' 0 32
  else if off = 0x20 then u.count
  else if off = 0x24 then (cuResult u).extractLsb' 32 32
  else if off = 0x28 then (cuResult u).extractLsb' 0 32
  else 0

/-- Units of a die: COMMIT lanes H and L, then the state digests by region. -/
def laneUnit : Side → Nat
  | .h => 0
  | .l => 1
def digestUnit (r : Nat) : Nat := 2 + r
/-- Units of the lane checks, by half and die. -/
def laneCheckUnit (d : Die) (half : Side) : Nat :=
  (match half with
    | .h => 0
    | .l => 3) + (match d with
    | .a => 0
    | .b => 1
    | .c => 2)

/-- The DACC sub-digest unit of a region (06 R205): CRC-64 without a fold, restarted at RULES_IN. -/
def daccUnit (g : RegionSt) : CheckUnit := { checkUnitReset with set_ := 2, run := g.dacc, count := 4 * g.daccN, fresh := false }

/-- A transfer that hardware feeds (09 R311): restarted with its set and fold, then the message. -/
def cuTransfer (s : BitVec 2) (fold : List Word) (m : List Byte) (u : CheckUnit) : CheckUnit :=
  cuFeed m (cuRestart s (BitVec.ofNat 4 (4 * fold.length))
    { u with foldA := fold.getD 0 0, foldB := fold.getD 1 0, mismatch := false, matched := false })

end Sys2Proof.Machine
end

