-- ==== Sys2Proof/Machine/Ballot.lean ====
section
/-!
DEFINITION. COMMIT blocks, the voter halves and the re-join of copies (06 R200 to R221, 01 R51 to R55, 04 R153, R156, R164).
-/

namespace Sys2Proof.Machine

/-! ## COMMIT blocks (06 R201, R202) -/

/-- A COMMIT block in true form, without CHECK. -/
structure Block where
  region : Nat
  cycle : Word
  summary : BitVec 6
  share : BitVec 96
  expect : BitVec 96
  digest : BitVec 64
  payload : List Word
  deriving DecidableEq, Repr

/-- Words B0 to the last payload word (06 Table 6.1). -/
def blockWords (b : Block) : List Word :=
  [ (0#4 ++ BitVec.ofNat 4 b.region ++ 0#13 ++ BitVec.ofNat 11 (4 * b.payload.length) : BitVec 32), b.cycle,
    (0#24 ++ b.summary ++ 0#2 : BitVec 32), 0, b.share.extractLsb' 0 32, b.share.extractLsb' 32 32,
    b.share.extractLsb' 64 32, b.expect.extractLsb' 0 32, b.expect.extractLsb' 32 32, b.expect.extractLsb' 64 32,
    b.digest.extractLsb' 0 32, b.digest.extractLsb' 32 32 ] ++ b.payload

/-- Index of a die. -/
def dieIndex : Die → Nat
  | .a => 0
  | .b => 1
  | .c => 2

/-- Second word of the virtual bytes of a lane's CHECK (06 R201), `id` the identity that the strap gives. -/
def laneId (id : BitVec 2) (lane : Side) (r : Nat) : Word :=
  let l := match lane with
    | .h => 0
    | .l => 256
  BitVec.ofNat 32 (id.toNat * 65536 + l + r % 16)

/-- CHECK of a block on a lane (06 R201): the virtual bytes, then the words as they stand on that lane. -/
def laneCheck (id : BitVec 2) (lane : Side) (r : Nat) (cycle : Word) (ws : List Word) : Word :=
  crc32c (leBytes cycle ++ leBytes (laneId id lane r) ++ ws.flatMap leBytes)

/-- What a check unit of a lane holds after a block's words (09 Table 9.11). -/
def feedLane (id : BitVec 2) (lane : Side) (r : Nat) (cycle : Word) (ws : List Word) (u : CheckUnit) : CheckUnit :=
  cuTransfer 0 [cycle, laneId id lane r] (ws.flatMap leBytes) u

/-- Words of a block in a lane's form: true on lane H, complemented on lane L (06 R200). -/
def laneForm (lane : Side) (ws : List Word) : List Word :=
  match lane with
  | .h => ws
  | .l => ws.map (fun w => ~~~w)

/-- A block as it stands on a lane, CHECK last, in the form in which it is computed (log entry 58). -/
def laneBlock (id : BitVec 2) (lane : Side) (b : Block) : List Word :=
  let ws := laneForm lane (blockWords b)
  ws ++ [laneCheck id lane b.region b.cycle ws]

/-- What a lane delivers: the block as it was sent, other words, or nothing. -/
inductive LaneRx where
  | sent
  | words (w : List Word)
  | lost
  deriving DecidableEq, Repr

/-- 96 bits of three words. -/
def share96 (a b c : Word) : BitVec 96 := c ++ b ++ a

/-- The tests of R207 on a received block: its words in true form without CHECK where it is usable. -/
def usableBlock (id : BitVec 2) (lane : Side) (r : Nat) (cycle : Word) (own : BitVec 96) (rx : List Word) : Option (List Word) :=
  let body := rx.take (rx.length - 1)
  let ws := laneForm lane body
  let w := fun (k : Nat) => ws.getD k 0
  let len := ((w 0).extractLsb' 0 11).toNat
  if decide (13 ≤ rx.length) && decide (rx.getLast? = some (laneCheck id lane r cycle body)) && decide (w 1 = cycle) &&
      decide (((w 0).extractLsb' 24 4).toNat = r) && decide (len ≤ 1024) && decide (len % 4 = 0) &&
      decide (ws.length = 12 + len / 4) &&
      decide (share96 (w 4) (w 5) (w 6) &&& ~~~own = 0) && decide (share96 (w 7) (w 8) (w 9) &&& ~~~own = 0) then some ws
  else none

/-- OUT_SHARE, RB_EXPECT, DIGEST and payload of a voted block's words. -/
def wordsShare (ws : List Word) : BitVec 96 := share96 (ws.getD 4 0) (ws.getD 5 0) (ws.getD 6 0)
def wordsExpect (ws : List Word) : BitVec 96 := share96 (ws.getD 7 0) (ws.getD 8 0) (ws.getD 9 0)
def wordsDigest (ws : List Word) : BitVec 64 := ws.getD 11 0 ++ ws.getD 10 0
def wordsPayload (ws : List Word) : List Word := ws.drop 12

/-! ## Copies (06 R215 to R221) -/

/-- Why a copy is excluded (06 R215, 13 R405). -/
inductive ExclCause where
  | minority | differs | missLimit | halted | slice | clock
  deriving DecidableEq, Repr

/-- Where a re-join attempt stands: the pass has yet to complete (cycles since the attempt began), it is complete and the
restart is due, or shadow cycles have passed. -/
inductive Rejoin where
  | none
  | passing (cycles : Nat)
  | complete
  | shadow (equal : Nat)
  deriving DecidableEq, Repr

/-- One copy: a region of a die, as the bridle sees it. -/
structure Copy where
  excluded : Option ExclCause
  missPrev : Bool
  missNow : Bool
  missWin : BitVec 16
  rejoin : Rejoin
  /-- The failed slice has been run again and passed, or has failed twice (14 R425). -/
  sliceAgain : Bool
  barred : Bool
  /-- An attempt has been abandoned: a migration of the region that is due comes first (01 R40). -/
  migrateFirst : Bool
  /-- What arrived in this cycle: usable words per half, and whether anything arrived. -/
  rxH : Option (List Word)
  rxL : Option (List Word)
  arrived : Bool
  status : Word
  deriving DecidableEq, Repr

/-- A copy at start. -/
def copyReset : Copy :=
  { excluded := none, missPrev := false, missNow := false, missWin := 0, rejoin := .none, sliceAgain := false,
    barred := false, migrateFirst := false, rxH := none, rxL := none, arrived := false, status := 0 }

/-- The vote of one region: verdict code, and the voted words of each half (half L in complemented form). -/
structure RegionVote where
  verdict : Option (BitVec 4)
  h : List Word
  l : List Word
  deriving DecidableEq, Repr

def voteReset : RegionVote := { verdict := none, h := [], l := [] }

/-- What stands in one voter half as its hardware gives it: the dual-rail outputs of its comparators of two dies (05 Table 5.1, 06 R233)
where they do not follow the words compared, and its presence vector (bits for dies A, B, C) where the exchange of 06 R207 has not given
it the true one. -/
structure HalfHw where
  ab : Option (BitVec 2)
  ac : Option (BitVec 2)
  bc : Option (BitVec 2)
  presence : Option (BitVec 3)
  deriving DecidableEq, Repr

/-- The hardware of the vote: both halves, the H/L comparator's output where it does not follow, and how the cause lines MAJORITY_LOSS and
HL_DISAGREE read while they are not driven (06 R225). -/
structure VoteHw where
  h : HalfHw
  l : HalfHw
  hl : Option (BitVec 2)
  lineMaj : BitVec 2
  lineHl : BitVec 2
  deriving DecidableEq, Repr

def halfSound : HalfHw := { ab := none, ac := none, bc := none, presence := none }
/-- A fault-free voter. -/
def hwSound : VoteHw := { h := halfSound, l := halfSound, hl := none, lineMaj := 2, lineHl := 2 }

/-- The voter and the drop counters. -/
structure VoteSt where
  copies : Tri (Vector Copy 16)
  votes : Vector RegionVote 16
  deadline : Bool
  triplet : Nat
  imgH : BitVec 96
  imgL : BitVec 96
  exp : BitVec 96
  /-- Ownership masks of the regions (06 R213). -/
  own : Vector (BitVec 96) 16
  /-- Drop requests counted since the boundary, by output: bits for the dies (04 R164). -/
  dropReq : List (Nat × Nat)
  dropDiscards : Nat
  /-- Held drops: output, with the cycle whose image was frozen last at the drop (04 R165); value cycle + 1. -/
  drops : List (Nat × Nat)
  /-- Counts in a row of a die's clock within the limit (13 R405). -/
  clockGood : Tri Nat
  hbSent : Bool
  /-- The hardware of the voter as the latest vote found it. -/
  hw : VoteHw
  /-- The lane check units of the voter halves (09 Table 9.11). -/
  units : List (Nat × CheckUnit)
  deriving DecidableEq, Repr

/-- The voter at start. -/
def ballotReset : VoteSt :=
  { copies := triAll (Vector.replicate 16 copyReset), votes := Vector.replicate 16 voteReset, deadline := false, triplet := 0,
    imgH := 0, imgL := 0, exp := 0, own := Vector.replicate 16 0, dropReq := [], dropDiscards := 0, drops := [],
    clockGood := triAll 16, hbSent := false, hw := hwSound, units := [] }

/-- The copy of region `r` in die `d`. -/
def copyOf (v : VoteSt) (d : Die) (r : Nat) : Copy := (triGet v.copies d).toList.getD r copyReset
/-- Replace a copy. -/
def putCopy (d : Die) (r : Nat) (c : Copy) (v : VoteSt) : VoteSt :=
  { v with copies := triMod v.copies d (fun x => x.setIfInBounds r c) }
/-- Change a copy. -/
def modCopy (d : Die) (r : Nat) (f : Copy → Copy) (v : VoteSt) : VoteSt := putCopy d r (f (copyOf v d r)) v
/-- Change every copy. -/
def mapCopies (f : Die → Nat → Copy → Copy) (v : VoteSt) : VoteSt :=
  { v with copies := triMap v.copies (fun d x => Vector.ofFn (fun (i : Fin 16) => f d i.val x[i])) }

/-- The vote of a region. -/
def regionVote (v : VoteSt) (r : Nat) : RegionVote := v.votes.toList.getD r voteReset

/-- A copy is excluded. -/
def isExcluded (c : Copy) : Bool := c.excluded.isSome
/-- The die is available for the region (01 R53). -/
def isAvail (v : VoteSt) (d : Die) (r : Nat) : Bool :=
  let c := copyOf v d r
  !isExcluded c && !c.missPrev
/-- Dies available for a region. -/
def availDies (v : VoteSt) (r : Nat) : List Die := allDies.filter (fun d => isAvail v d r)
/-- Bits of the available dies: A in bit 0. -/
def availBits (v : VoteSt) (r : Nat) : BitVec 4 :=
  allDies.foldl (fun b d => if isAvail v d r then setBitOf b (dieIndex d) true else b) 0
/-- A block counts as present when it is usable in both halves (06 R207). -/
def isPresent (c : Copy) : Bool := c.rxH.isSome && c.rxL.isSome

/-- Misses within the 16-cycle window. -/
def missCount (c : Copy) : Nat := popCount c.missWin 16

/-! ## Verdicts (06 Table 6.5) -/

def vdAGREE3 : BitVec 4 := 0x3
def vdMAJEXCL : BitVec 4 := 0x5
def vdMAJMISS : BitVec 4 := 0x6
def vdPAIR : BitVec 4 := 0x9
def vdNOMAJ : BitVec 4 := 0xA
def vdTOOFEW : BitVec 4 := 0xC

/-- What a half's vote of a region gives: verdict, the words used, and the minority die. -/
structure Verdict where
  code : BitVec 4
  words : List Word
  minority : Option Die
  deriving DecidableEq, Repr

/-- Output of a comparator (05 Table 5.1): 0b10 equal, 0b01 mismatch, unless it is stuck. -/
def cmpOut (stuck : Option (BitVec 2)) (equal : Bool) : BitVec 2 := stuck.getD (if equal then 2 else 1)

/-- The comparator of two dies in a half. -/
def pairCmp (w : HalfHw) (d e : Die) : Option (BitVec 2) :=
  match d, e with
  | .a, .b | .b, .a => w.ab
  | .a, .c | .c, .a => w.ac
  | .b, .c | .c, .b => w.bc
  | _, _ => none

/-- A half votes the present blocks of the available copies (06 R208). `n`: number of available copies. None: a comparator's code is
invalid, and so is the half's verdict (06 R233). -/
def voteHalf (w : HalfHw) (n : Nat) (bs : List (Die × List Word)) : Option Verdict :=
  let none_ := fun (c : BitVec 4) => some ({ code := c, words := [], minority := none } : Verdict)
  let cmp := fun (x y : Die × List Word) => cmpOut (pairCmp w x.1 y.1) (decide (x.2 = y.2))
  let bad := fun (k : BitVec 2) => decide (k ≠ 1) && decide (k ≠ 2)
  if n < 2 then none_ vdTOOFEW
  else
    match bs with
    | [x, y, z] =>
      let p := cmp x y
      let q := cmp x z
      let t := cmp y z
      if bad p || bad q || bad t then none
      else if p = 2 && q = 2 && t = 2 then some { code := vdAGREE3, words := x.2, minority := none }
      else if p = 2 then some { code := vdMAJEXCL, words := x.2, minority := some z.1 }
      else if q = 2 then some { code := vdMAJEXCL, words := x.2, minority := some y.1 }
      else if t = 2 then some { code := vdMAJEXCL, words := y.2, minority := some x.1 }
      else none_ vdNOMAJ
    | [x, y] =>
      let p := cmp x y
      if bad p then none
      else if p = 2 then some { code := if n = 3 then vdMAJMISS else vdPAIR, words := x.2, minority := none }
      else none_ vdNOMAJ
    | _ => none_ vdTOOFEW

/-- Presence vector of a region in a half after the exchange (06 R207): bit 0 die A. -/
def presenceOf (w : HalfHw) (v : VoteSt) (r : Nat) : BitVec 3 :=
  w.presence.getD (allDies.foldl (fun b d => setBitOf b (dieIndex d) (isPresent (copyOf v d r))) 0)

/-- Blocks that a half votes: those of the available copies that its presence vector shows. -/
def ballots (w : HalfHw) (v : VoteSt) (half : Side) (r : Nat) : List (Die × List Word) :=
  (availDies v r).filterMap (fun d =>
    let c := copyOf v d r
    if bitOf (presenceOf w v r) (dieIndex d) then
      (match half with
       | .h => c.rxH
       | .l => c.rxL).map (fun ws => (d, ws))
    else none)

/-- The three test triplets of a half (06 R211) in vote `t` of 96: all equal, one word of one die differing in one bit, all three differing;
the die and the bit rotate, and each must give its verdict. What the pattern generator gives as the word does not matter to it. -/
def tripletsOk (w : HalfHw) (t : Nat) : Bool :=
  let bit : Word := 1#32 <<< (t % 32)
  let odd := if t / 32 % 3 = 0 then Die.a else if t / 32 % 3 = 1 then Die.b else Die.c
  let vote := fun (f : Die → Word) => voteHalf w 3 (allDies.map (fun d => (d, [f d])))
  let one := vote (fun _ => 0)
  let two := vote (fun d => if d = odd then bit else 0)
  let three := vote (fun d => if d = odd then bit else if d = .b || (d = .a && odd = .b) then ~~~bit else 0)
  decide (one.map (·.code) = some vdAGREE3) && decide (two.map (fun q => (q.code, q.minority)) = some (vdMAJEXCL, some odd)) &&
    decide (three.map (·.code) = some vdNOMAJ)

/-- The region can be voted: the blocks of all three dies are there, or D is reached (01 R52). -/
def voteDue (v : VoteSt) (r : Nat) : Bool :=
  (regionVote v r).verdict.isNone && (v.deadline || allDies.all (fun d => isPresent (copyOf v d r)))

/-! ## Cycle status words (04 Table 4.6) -/

/-- The cycle status word of a copy from its parts. -/
def statusWord (phase : BitVec 4) (c : Copy) (missed late abandoned overIn overOut rev cut : Bool) : Word :=
  (0#8 ++ phase ++ BitVec.ofNat 5 (missCount c) ++ 0#7 ++ b2v (isExcluded c) ++ b2v missed ++ b2v late ++ b2v abandoned ++
    b2v overIn ++ b2v overOut ++ b2v rev ++ b2v cut : BitVec 32)

/-! ## Drops (04 R164, R165; 01 R55) -/

/-- The region that owns an output's binding. -/
def outOwner (v : VoteSt) (o : Nat) : Option Nat := (numsFrom 0 16).find? (fun r => bitOf (v.own.toList.getD r 0) o)

/-- A drop request of a die for an output: counted, discarded, or deciding (then held from the present image on). `live`: the output is
energised; on another a request has no further effect. -/
def dropRequest (d : Die) (o : Nat) (cycle : Word) (live : Bool) (v : VoteSt) : VoteSt :=
  match outOwner v o with
  | none => { v with dropDiscards := v.dropDiscards + 1 }
  | some r =>
    let n := (availDies v r).length
    if 2 ≤ n && !isAvail v d r then { v with dropDiscards := v.dropDiscards + 1 }
    else
      let seen := getA 0 v.dropReq o
      let now := if (seen >>> dieIndex d) % 2 = 1 then seen else seen + 2 ^ dieIndex d
      let cnt := popCount (BitVec.ofNat 3 now) 3
      let need := if n = 3 then 2 else 1
      let v1 := { v with dropReq := putA 0 o now v.dropReq }
      if live && decide (need ≤ cnt) then { v1 with drops := putA 0 o (cycle.toNat + 1) v1.drops } else v1

/-- A drop is held for an output. -/
def isDropped (v : VoteSt) (o : Nat) : Bool := getA 0 v.drops o ≠ 0

/-- At the RELEASE that applies the vote of cycle `k`: drops whose image was frozen before cycle `k` end (04 R165). -/
def releaseDrops (k : Word) (v : VoteSt) : VoteSt :=
  { v with drops := v.drops.filter (fun p => !serialAfter k (BitVec.ofNat 32 (p.2 - 1))), dropReq := [] }

end Sys2Proof.Machine
end

