-- ==== Sys2Proof/Machine/Inputs.lean ====
section
/-!
DEFINITION. Field inputs (07): the counter filter, H/L exchange, discrepancy pairs, stage checks, readings and fall events.
-/

namespace Sys2Proof.Machine

/-- One input in one sample window: the raw sample of each half, the measured sink current in µA, whether the terminal lies
below 6 V, and the outcome of the comparator test (used only where one is due). -/
structure InSample where
  rawH : Bool
  rawL : Bool
  sinkH : Nat
  sinkL : Nat
  low : Bool
  testOk : Bool
  deriving DecidableEq, Repr

/-- A sample of an open input. -/
def sampleOff : InSample := { rawH := false, rawL := false, sinkH := 0, sinkL := 0, low := true, testOk := true }

/-- Per half of one input: counter, filtered state, a stage failure in the run, stage fault latched with its cause code. -/
structure InHalf where
  cnt : Nat
  filt : Bool
  stageRun : Bool
  stage : Bool
  read : Bool
  deriving DecidableEq, Repr

/-- One input: both halves, the input fault of R244 without stage faults, the cause it was set by with the half that showed it (07 R256),
and the clean windows counted toward its clearing. -/
structure InCell where
  h : InHalf
  l : InHalf
  fault : Bool
  cause : Nat × Nat
  clean : Nat
  deriving DecidableEq, Repr

def inHalfReset : InHalf := { cnt := 0, filt := false, stageRun := false, stage := false, read := false }
def inCellReset : InCell := { h := inHalfReset, l := inHalfReset, fault := false, cause := (0, 5), clean := 0 }

/-- The state of a discrepancy checker (07 Table 7.7). -/
inductive Checker where
  | quiet
  | timing (n : Nat)
  | latched (n : Nat)
  deriving DecidableEq, Repr

/-- The checkers of one pair in both halves, and whether their latched states differed at the previous window end. -/
structure PairSt where
  h : Checker
  l : Checker
  apart : Bool
  deriving DecidableEq, Repr

def pairReset : PairSt := { h := .quiet, l := .quiet, apart := false }

/-- The input side of the gondola. -/
structure InSt where
  /-- Configuration words (07 Table 7.6) and SAMPLE_INTERVAL. -/
  cfg : List (Nat × Word)
  interval : Nat
  cells : List (Nat × InCell)
  pairs : List (Nat × PairSt)
  /-- Windows of each group since reset, modulo 32: which half's comparator test is due. -/
  windows : List (Nat × Nat)
  /-- Number of the latest cycle-start message accepted, and the fall events posted with it and with the one before. -/
  cycleNo : Word
  fellNow : BitVec 192
  fellPrev : BitVec 192
  deriving DecidableEq, Repr

def inStReset : InSt :=
  { cfg := [], interval := 2, cells := [], pairs := [], windows := [], cycleNo := 0, fellNow := 0, fellPrev := 0 }

def inCfgDefault : Word := 0x00000008

def inCfg (x : InSt) (n : Nat) : Word := getA inCfgDefault x.cfg n
def cfgRevert (w : Word) : Bool := bitOf w 31
/-- PAIR: 0 NONE, 1 EQUIVALENT, 2 ANTIVALENT. -/
def cfgPair (w : Word) : Nat := (w.extractLsb' 29 2).toNat
def cfgAntiSafe (w : Word) : Bool := bitOf w 28
def cfgDiscMs (w : Word) : Nat := (w.extractLsb' 14 14).toNat
def cfgFilterN (w : Word) : Nat := (w.extractLsb' 0 8).toNat

def inCell (x : InSt) (n : Nat) : InCell := getA inCellReset x.cells n
def putInCell (n : Nat) (c : InCell) (x : InSt) : InSt := { x with cells := putA inCellReset n c x.cells }
def pairSt (x : InSt) (j : Nat) : PairSt := getA pairReset x.pairs j

/-- Half of an input. -/
def inHalf (c : InCell) : Side → InHalf
  | .h => c.h
  | .l => c.l
def putInHalf (s : Side) (q : InHalf) (c : InCell) : InCell :=
  match s with
  | .h => { c with h := q }
  | .l => { c with l := q }

/-- Sample interval in units of 0.5 ms (07 Table 7.2). -/
def halfMs (code : Nat) : Nat := if code = 1 then 1 else if code = 2 then 2 else 4

/-- D_w of a pair (07 R246). -/
def discWindows (x : InSt) (j : Nat) : Nat :=
  let i := halfMs x.interval
  (2 * cfgDiscMs (inCfg x (2 * j)) + i - 1) / i
/-- C_w of a pair. -/
def clearWindows (x : InSt) (j : Nat) : Nat := max (cfgFilterN (inCfg x (2 * j))) (cfgFilterN (inCfg x (2 * j + 1)))

/-! ## Counter, checker and stage (07 R239, R246, R255) -/

/-- The counter rule with depth `n` (07 R239). -/
def filterStep (n : Nat) (raw : Bool) (cnt : Nat) (filt : Bool) : Nat × Bool :=
  let c := if raw then min n (cnt + 1) else cnt - 1
  (c, if c = n then true else if c = 0 then false else filt)

/-- The stage checks made in a window, in their order, each passed or not with its cause code (07 R255): the sink current, then the
comparator test. -/
def stageChecks (raw low : Bool) (sink : Nat) (testDue testOk : Bool) : List (Bool × Nat) :=
  (if raw && !low then [(decide (1800 ≤ sink) && decide (sink ≤ 3200), 6)] else []) ++ (if testDue then [(testOk, 7)] else [])

/-- The run of failures after one check, and the cause by which a second failure in a row latches. -/
def stageStep (q : Bool × Option Nat) (c : Bool × Nat) : Bool × Option Nat :=
  if c.1 then (false, q.2) else (true, if q.1 && q.2.isNone then some c.2 else q.2)

/-- The run after the checks of a window. -/
def stageAfter (run : Bool) (cs : List (Bool × Nat)) : Bool × Option Nat := cs.foldl stageStep (run, none)

/-- The half after its own steps of one window: counter, then stage run and latch. -/
def halfStep (n : Nat) (raw : Bool) (checks : List (Bool × Nat)) (q : InHalf) : InHalf :=
  let f := filterStep n raw q.cnt q.filt
  let r := stageAfter q.stageRun checks
  { q with cnt := f.1, filt := f.2, stageRun := r.1, stage := q.stage || r.2.isSome }

/-- The pair's discrepancy condition in a half (07 R245). -/
def discCond (kind : Nat) (even odd : Bool) : Bool := if kind = 1 then even != odd else if kind = 2 then even == odd else false

/-- The raw samples show the safe state (07 R246). -/
def safeSamples (kind : Nat) (antiSafe even odd : Bool) : Bool :=
  if kind = 1 then !even && !odd else if antiSafe then odd && !even else even && !odd

/-- One step of a checker (07 Table 7.7). -/
def checkerStep (dw cw : Nat) (cond safe : Bool) : Checker → Checker
  | .quiet => if cond then (if 1 < dw then .timing 1 else .latched 0) else .quiet
  | .timing n => if !cond then .quiet else if n + 1 < dw then .timing (n + 1) else .latched 0
  | .latched n => if !safe then .latched 0 else if n + 1 < cw then .latched (n + 1) else .quiet

/-- LATCHED. -/
def isLatched : Checker → Bool
  | .latched _ => true
  | _ => false
/-- TIMING. -/
def isTiming : Checker → Bool
  | .timing _ => true
  | _ => false

/-- The pair has a discrepancy: LATCHED in either half (07 R247). -/
def pairLatched (p : PairSt) : Bool := isLatched p.h || isLatched p.l

/-- The pair of an input, where one is configured. -/
def pairOf (x : InSt) (n : Nat) : Option Nat := if cfgPair (inCfg x n) = 0 then none else some (n / 2)

/-! ## Faults and readings (07 R244, R247, R248) -/

/-- An input fault stands, stage faults included. -/
def inFaultStands (c : InCell) : Bool := c.fault || c.h.stage || c.l.stage

/-- A discrepancy stands on an input. -/
def inDiscStands (x : InSt) (n : Nat) : Bool :=
  match pairOf x n with
  | none => false
  | some j => pairLatched (pairSt x j)

/-- The reading of input `n` in a half (07 R248, 02 R521). -/
def readingOf (x : InSt) (n : Nat) (s : Side) : Bool :=
  let c := inCell x n
  let bad := fun (m : Nat) => inFaultStands (inCell x m)
  (inHalf c s).filt && !bad n &&
    (match pairOf x n with
     | none => true
     | some _ => !bad (if n % 2 = 0 then n + 1 else n - 1) && !inDiscStands x n)

/-- A cause of R244 at a window end, with its code and the half that shows it: none where the input is clean. -/
def inCause (x : InSt) (n : Nat) (linkH linkL apartTwice : Bool) : Option (Nat × Nat) :=
  let c := inCell x n
  if c.h.filt ≠ c.l.filt then some (1, 5)
  else if 2 < c.h.cnt - c.l.cnt || 2 < c.l.cnt - c.h.cnt then some (2, 5)
  else if apartTwice then some (3, 5)
  else if !linkH then some (4, 5)
  else if !linkL then some (4, 6)
  else none

/-- A tail record of the input path (07 R256). -/
def inRecord (set_ : Bool) (unit_ n cause : Nat) : LogReq :=
  { code := if set_ then cdINFAULTSET else cdINFAULTCLEAR, unit_ := BitVec.ofNat 4 unit_, place := BitVec.ofNat 4 (n / 16),
    index := BitVec.ofNat 8 n, data := BitVec.ofNat 64 cause }

/-- Input fault of one input at a window end: set at once, cleared after 16 clean windows; the record of the clearing names the cause
that set it (07 R256). -/
def faultStep (x : InSt) (n : Nat) (linkH linkL apartTwice : Bool) : InSt × List LogReq :=
  let c := inCell x n
  match inCause x n linkH linkL apartTwice with
  | some (code, unit_) =>
    (putInCell n { c with fault := true, cause := if c.fault then c.cause else (code, unit_), clean := 0 } x,
      if c.fault then [] else [inRecord true unit_ n code])
  | none =>
    if !c.fault then (x, [])
    else if 15 ≤ c.clean then (putInCell n { c with fault := false, clean := 0 } x, [inRecord false c.cause.2 n c.cause.1])
    else (putInCell n { c with clean := c.clean + 1 } x, [])

/-- A revert-flagged input that fell posts at most one event for each cycle number (07 R251). -/
def fallStep (before : InSt) (x : InSt) (n : Nat) : InSt × List Nat :=
  let was := inCell before n
  let h := readingOf x n .h
  let l := readingOf x n .l
  let c := inCell x n
  let y := putInCell n { c with h := { c.h with read := h }, l := { c.l with read := l } } x
  if cfgRevert (inCfg x n) && ((was.h.read && !h) || (was.l.read && !l)) && !bitOf x.fellNow n then
    ({ y with fellNow := setBitOf y.fellNow n true }, [n])
  else (y, [])

/-- Readings that stand after a change outside a window end: no fall is looked for. -/
def refreshReads (x : InSt) : InSt :=
  (x.cells.map (·.1)).foldl (fun x n => (fallStep x x n).1) x

/-! ## One window end (07 Table 7.3 step 5) -/

/-- Fold over a list, collecting what each step gives beside the state. -/
def foldOut {σ α β : Type} (f : σ → α → σ × List β) : σ → List α → σ × List β
  | s, [] => (s, [])
  | s, a :: t =>
    let r := f s a
    let q := foldOut f r.1 t
    (q.1, r.2 ++ q.2)

/-- The comparator test is due in a half (07 R255): once in 16 windows, the halves taking turns. DESIGN CHOICE (log entry 66): half H at
the first of 32 windows, half L at the 17th. -/
def testDueIn (s : Side) (w : Nat) : Bool :=
  match s with
  | .h => decide (w % 32 = 0)
  | .l => decide (w % 32 = 16)

/-- Counters, filters and stage checks of the inputs of a group. -/
def groupFilter (g : Nat) (samples : List InSample) (x : InSt) : InSt × List LogReq :=
  let w := getA 0 x.windows g
  foldOut (fun x k =>
    let n := 16 * g + k
    let s := samples.getD k sampleOff
    let c := inCell x n
    let d := cfgFilterN (inCfg x n)
    let ch := stageChecks s.rawH s.low s.sinkH (testDueIn .h w) s.testOk
    let cl := stageChecks s.rawL s.low s.sinkL (testDueIn .l w) s.testOk
    let rec_ := fun (q : InHalf) (unit_ : Nat) (cs : List (Bool × Nat)) =>
      match (stageAfter q.stageRun cs).2 with
      | some k => if q.stage then [] else [inRecord true unit_ n k]
      | none => []
    (putInCell n { c with h := halfStep d s.rawH ch c.h, l := halfStep d s.rawL cl c.l } x, rec_ c.h 5 ch ++ rec_ c.l 6 cl))
    x (numsFrom 0 16)

/-- Step the checkers of one pair with its raw samples (07 R246). -/
def pairStep (samples : List InSample) (g : Nat) (x : InSt) (k : Nat) : InSt × List LogReq :=
  let j := 8 * g + k
  let cfg := inCfg x (2 * j)
  let kind := cfgPair cfg
  if kind = 0 then (x, [])
  else
    let p := pairSt x j
    let e := inCell x (2 * j)
    let o := inCell x (2 * j + 1)
    let se := samples.getD (2 * k) sampleOff
    let so := samples.getD (2 * k + 1) sampleOff
    let stepOf := fun (fe fo re ro : Bool) (c : Checker) =>
      checkerStep (discWindows x j) (clearWindows x j) (discCond kind fe fo) (safeSamples kind (cfgAntiSafe cfg) re ro) c
    let q : PairSt := { p with h := stepOf e.h.filt o.h.filt se.rawH so.rawH p.h,
                               l := stepOf e.l.filt o.l.filt se.rawL so.rawL p.l }
    let recs := if pairLatched q && !pairLatched p then [inRecord true 5 (2 * j) 5, inRecord true 5 (2 * j + 1) 5]
      else if pairLatched p && !pairLatched q then [inRecord false 5 (2 * j) 5, inRecord false 5 (2 * j + 1) 5] else []
    ({ x with pairs := putA pairReset j q x.pairs }, recs)

/-- Pair states differ now and differed at the previous window end; what is remembered is updated. -/
def apartStep (g : Nat) (x : InSt) : InSt × List Nat :=
  foldOut (fun x k =>
    let j := 8 * g + k
    let p := pairSt x j
    let now := isLatched p.h != isLatched p.l
    ({ x with pairs := putA pairReset j { p with apart := now } x.pairs }, if now && p.apart then [j] else [])) x (numsFrom 0 8)

/-- What a window end gives: the state, the inputs whose fall event is posted, and the tail records. -/
structure WindowOut where
  st : InSt
  falls : List Nat
  logs : List LogReq
  deriving DecidableEq, Repr

/-- The window end of group `g` (07 R237, R239, R244, R246, R248, R251). `linkH`, `linkL`: the cross-link word of the half
arrived valid. -/
def windowEnd (g : Nat) (samples : List InSample) (linkH linkL : Bool) (x0 : InSt) : WindowOut :=
  let a := groupFilter g samples x0
  let b := foldOut (pairStep samples g) a.1 (numsFrom 0 8)
  let c := apartStep g b.1
  let d := foldOut (fun x k =>
    let n := 16 * g + k
    faultStep x n linkH linkL ((pairOf x n).isSome && c.2.contains (n / 2))) c.1 (numsFrom 0 16)
  let y := { d.1 with windows := putA 0 g ((getA 0 d.1.windows g + 1) % 32) d.1.windows }
  let f := foldOut (fun x k => fallStep x0 x (16 * g + k)) y (numsFrom 0 16)
  { st := f.1, falls := f.2, logs := a.2 ++ b.2 ++ d.2 }

/-! ## The image (07 R249, R257) -/

/-- The readings, faults and discrepancies as the image holds them: inputs without a record are OFF and whole. -/
def imageRead (x : InSt) : BitVec 192 :=
  x.cells.foldl (fun v p => if p.2.h.read then setBitOf v p.1 true else v) 0
def imageFault (x : InSt) : BitVec 192 :=
  x.cells.foldl (fun v p => if inFaultStands p.2 then setBitOf v p.1 true else v) 0
def imageDisc (x : InSt) : BitVec 192 :=
  x.pairs.foldl (fun v p => if pairLatched p.2 then setBitOf (setBitOf v (2 * p.1) true) (2 * p.1 + 1) true else v) 0

/-- A cycle-start message reaches the gondola: windows carry its number from now on (07 R250). -/
def inCycle (k : Word) (x : InSt) : InSt := { x with cycleNo := k, fellPrev := x.fellNow, fellNow := 0 }

/-- Input status word (07 Table 7.10). -/
def inStatus (x : InSt) (fell : BitVec 192) (n : Nat) : Word :=
  let c := inCell x n
  let p := match pairOf x n with
    | some j => pairSt x j
    | none => pairReset
  (BitVec.ofNat 8 c.h.cnt ++ BitVec.ofNat 8 c.l.cnt ++ b2v c.h.filt ++ b2v c.l.filt ++ b2v c.h.read ++ b2v c.fault ++
    b2v (c.h.stage || c.l.stage) ++ b2v (pairLatched p) ++ b2v (isTiming p.h || isTiming p.l) ++ b2v (bitOf fell n) ++
    0#8 : BitVec 32)

end Sys2Proof.Machine
end

