-- ==== Sys2Proof/Machine/Outputs.lean ====
section
/-!
DEFINITION. Field outputs (08): latches, expectation, readback, load class, lock-off, test steps, field supply groups and the
output status word.
-/

namespace Sys2Proof.Machine

/-! ## State -/

/-- Counter and filtered state of one readback terminal in one half (08 R263). -/
structure RbTerm where
  cnt : Nat
  filt : Bool
  deriving DecidableEq, Repr

/-- Both terminals in one half, and the mismatching windows in a row (08 R265). -/
structure RbHalf where
  plus : RbTerm
  minus : RbTerm
  mism : Nat
  deriving DecidableEq, Repr

/-- One output. `quiet`: windows for which comparison is suspended after a change of E. `onFor`: windows since E rose.
`age`: milliseconds since the last passed test, none before the first. `toDue`, `overdue`: milliseconds until a test is due
and since it has been due. `lsNext`: the high-side dark step of the test has passed. `lightCls`: the class that the latest light step gave
(08 R266). -/
structure OutCell where
  latchH : Bool
  latchL : Bool
  e : Bool
  quiet : Nat
  onFor : Nat
  h : RbHalf
  l : RbHalf
  agree : Nat
  cur : Nat
  cls : BitVec 2
  lightCls : BitVec 2
  cand : BitVec 2
  candRun : Nat
  overRun : Nat
  kind : BitVec 4
  hsHeld : Bool
  lsHeld : Bool
  clearRun : Nat
  fails : Nat
  failKind : BitVec 4
  age : Option Nat
  toDue : Nat
  overdue : Nat
  lsNext : Bool
  partner : Bool
  driveSeen : Option Nat
  deriving DecidableEq, Repr

def rbTermReset : RbTerm := { cnt := 0, filt := false }
def rbHalfReset : RbHalf := { plus := rbTermReset, minus := rbTermReset, mism := 0 }
def outCellReset : OutCell :=
  { latchH := false, latchL := false, e := false, quiet := 0, onFor := 0, h := rbHalfReset, l := rbHalfReset, agree := 0,
    cur := 0, cls := 0, lightCls := 0, cand := 0, candRun := 0, overRun := 0, kind := 0, hsHeld := false, lsHeld := false, clearRun := 0,
    fails := 0, failKind := 0, age := none, toDue := 0, overdue := 0, lsNext := false, partner := false, driveSeen := none }

/-- A field supply group: cut, LOW, both since when (on the millisecond count), the latest measurement of each half in mV, restored but
held until the RELEASE of the first image that shows it (with that image's cycle once frozen), a measurement below 17.4 V, and
windows of suspended comparison. -/
structure GroupSt where
  cut : Bool
  cutAt : Nat
  low : Bool
  lowAt : Nat
  mvH : Nat
  mvL : Nat
  held : Bool
  shownAt : Option Word
  sag : Bool
  suspend : Nat
  deriving DecidableEq, Repr

/-- Every group is cut when the gondola leaves reset (08 R277). -/
def groupReset : GroupSt :=
  { cut := true, cutAt := 0, low := false, lowAt := 0, mvH := 0, mvL := 0, held := false, shownAt := none, sag := false, suspend := 0 }

/-- The output side of the gondola. `used`: groups whose engine has run a step in this readback interval. -/
structure OutSt where
  cfg : List (Nat × Word)
  outs : List (Nat × OutCell)
  groups : List (Nat × GroupSt)
  stoppedH : Bool
  stoppedL : Bool
  used : BitVec 8
  parallel : BitVec 96
  /-- RB_EXPECT of the image applied at the latest RELEASE. -/
  expect : BitVec 96
  deriving DecidableEq, Repr

def outStReset : OutSt :=
  { cfg := [], outs := [], groups := [], stoppedH := false, stoppedL := false, used := 0, parallel := 0, expect := 0 }

/-- What the outputs take from the rest of the module: it claims, the ripcord has fired, the outputs with a held drop, whether
the module is in SAFE, and the millisecond count. -/
structure OutCx where
  claims : Bool
  fired : Bool
  dropped : List Nat
  safe : Bool
  ms : Nat
  deriving DecidableEq, Repr

def outCfg (x : OutSt) (o : Nat) : Word := getA (0x29653348 : Word) x.cfg o
def outCell (x : OutSt) (o : Nat) : OutCell := getA outCellReset x.outs o
def putOutCell (o : Nat) (c : OutCell) (x : OutSt) : OutSt := { x with outs := putA outCellReset o c x.outs }
def modOutCell (o : Nat) (f : OutCell → OutCell) (x : OutSt) : OutSt := putOutCell o (f (outCell x o)) x
def groupSt (x : OutSt) (g : Nat) : GroupSt := getA groupReset x.groups g
def putGroup (g : Nat) (s : GroupSt) (x : OutSt) : OutSt := { x with groups := putA groupReset g s x.groups }
def modGroup (g : Nat) (f : GroupSt → GroupSt) (x : OutSt) : OutSt := putGroup g (f (groupSt x g)) x
/-- Group of an output (08 R258). -/
def outGroup (o : Nat) : Nat := o / 12

def cfgTestMs (w : Word) : Nat := 1000 * (w.extractLsb' 26 6).toNat
def cfgOpenTh (w : Word) : Nat := (w.extractLsb' 16 5).toNat
def cfgLowTh (w : Word) : Nat := (w.extractLsb' 8 8).toNat
def cfgOverTh (w : Word) : Nat := 4 * (w.extractLsb' 0 8).toNat

/-! ## Fault kinds (08 Table 8.6) -/

def fkNONE : BitVec 4 := 0
def fkREADBACK : BitVec 4 := 1
def fkHLAPART : BitVec 4 := 2
def fkFOREIGNPLUS : BitVec 4 := 3
def fkFOREIGNMINUS : BitVec 4 := 4
def fkHSSTUCK : BitVec 4 := 5
def fkBYPASS : BitVec 4 := 6
def fkHSTEST : BitVec 4 := 7
def fkLSUNPROVEN : BitVec 4 := 8
def fkOVERLOAD : BitVec 4 := 9

/-- Switches held open by a lock: high side, low side. -/
def heldBy (k : BitVec 4) : Bool × Bool :=
  if k = fkNONE then (false, false)
  else if k = fkFOREIGNPLUS || k = fkHSSTUCK then (false, true)
  else if k = fkFOREIGNMINUS then (true, false)
  else (true, true)

/-- Light tests run while the lock stands. -/
def lightAllowed (k : BitVec 4) : Bool := k ≠ fkFOREIGNPLUS && k ≠ fkFOREIGNMINUS && k ≠ fkHSSTUCK
/-- The lock is cleared by a light step that passes while the output is commanded off. -/
def clearedByLight (k : BitVec 4) : Bool := [fkREADBACK, fkBYPASS, fkHSTEST, fkLSUNPROVEN, fkOVERLOAD].contains k

/-- An output is commanded off: its RB_EXPECT bit in the applied image is 0 (08 R281). -/
def commandedOff (x : OutSt) (o : Nat) : Bool := !bitOf x.expect o

/-- A tail record of an output. -/
def outRecord (code : BitVec 16) (o : Nat) (k : BitVec 4) : LogReq :=
  { code := code, unit_ := 5, place := BitVec.ofNat 4 (outGroup o), index := BitVec.ofNat 8 o, data := k.setWidth 64 }

/-- Lock an output off (08 R281, R282); a lock that stands keeps its code. -/
def setLock (o : Nat) (k : BitVec 4) (x : OutSt) : OutSt × List LogReq :=
  let c := outCell x o
  if c.kind ≠ fkNONE then (x, [])
  else
    let hl := heldBy k
    (putOutCell o { c with kind := k, hsHeld := hl.1, lsHeld := hl.2, latchH := c.latchH && !hl.1,
                           latchL := c.latchL && !hl.2, clearRun := 0, fails := 0, lsNext := false, agree := 0 } x,
      [outRecord cdLOCKSET o k])

/-- The lock clears (08 R282): the output is due for a test at once (R269). While a half has stopped, HL_APART stands on the output in its
place (R262). -/
def clearLock (o : Nat) (x : OutSt) : OutSt × List LogReq :=
  let c := outCell x o
  if c.kind = fkNONE then (x, [])
  else
    let y := putOutCell o { c with kind := fkNONE, hsHeld := false, lsHeld := false, clearRun := 0, agree := 0, fails := 0,
                                   toDue := 0, overdue := 0, lsNext := false } x
    let r := if x.stoppedH || x.stoppedL then setLock o fkHLAPART y else (y, [])
    (r.1, outRecord cdLOCKCLEAR o c.kind :: r.2)

/-! ## Expectation (08 R264) -/

/-- E of an output. -/
def expectOf (cx : OutCx) (x : OutSt) (o : Nat) : Bool :=
  let g := groupSt x (outGroup o)
  bitOf x.expect o && !cx.fired && cx.claims && !g.cut && !g.held && decide ((outCell x o).kind = fkNONE) &&
    !cx.dropped.contains o

/-- Bring E of one output up to date; a change suspends comparison for 8 windows (08 R265), and a de-energised output takes the class of
its latest light step (R266). -/
def refreshE (cx : OutCx) (o : Nat) (x : OutSt) : OutSt :=
  let c := outCell x o
  let e := expectOf cx x o
  if e = c.e then x else putOutCell o { c with e := e, cls := if e then c.cls else c.lightCls, quiet := 8, onFor := 0, overRun := 0, candRun := 0, lsNext := false } x

/-- Bring every E up to date. -/
def refreshAllE (cx : OutCx) (x : OutSt) : OutSt := (numsFrom 0 96).foldl (fun x o => refreshE cx o x) x

/-! ## RELEASE (08 R260, R279, R280) -/

/-- A group's latches follow the image again from the RELEASE of the first cycle that shows it restored. -/
def groupLetGo (k : Word) (g : GroupSt) : GroupSt :=
  match g.held, g.shownAt with
  | true, some s => if serialAfter s k then g else { g with held := false, shownAt := none }
  | _, _ => g

/-- Apply the voted images of cycle `k` to every latch. -/
def applyImages (cx : OutCx) (k : Word) (imgH imgL exp : BitVec 96) (x0 : OutSt) : OutSt :=
  let x1 := { x0 with groups := mapA groupReset (fun _ g => groupLetGo k g) x0.groups, expect := exp }
  let x2 := (numsFrom 0 96).foldl (fun x o =>
    let g := groupSt x (outGroup o)
    let ok := !g.cut && !g.held && !x.stoppedH && !x.stoppedL
    modOutCell o (fun c => { c with latchH := bitOf imgH o && ok && !c.hsHeld,
                                    latchL := bitOf imgL o && ok && !c.lsHeld }) x) x1
  refreshAllE cx x2

/-- Hold clear every latch of the outputs that meet a condition. -/
def clearLatches (p : Nat → Bool) (x : OutSt) : OutSt :=
  { x with outs := mapA outCellReset (fun o c => if p o then { c with latchH := false, latchL := false } else c) x.outs }

/-! ## Readback (08 R263, R265, R266) -/

/-- A terminal at a sample: its voltage in mV, and what the comparators of the halves show where the voltage lies between their
thresholds. -/
structure Level where
  mv : Nat
  midH : Bool
  midL : Bool
  deriving DecidableEq, Repr

/-- A terminal at 0 V. -/
def levelOff : Level := { mv := 0, midH := false, midL := false }
/-- A terminal at 24 V. -/
def levelOn : Level := { mv := 24000, midH := false, midL := false }

/-- The readback ON threshold (08 Table 8.1, R278): 11 V; while the group is LOW, 0.6 of the measured FSg, and never below 9.0 V. -/
def onThreshold (g : GroupSt) (s : Side) : Nat :=
  if g.low then
    max 9000 (match s with
      | .h => g.mvH * 6 / 10
      | .l => g.mvL * 6 / 10)
  else 11000

/-- What a half's comparator reads. -/
def readsOn (g : GroupSt) (s : Side) (v : Level) : Bool :=
  if onThreshold g s ≤ v.mv then true
  else if v.mv ≤ 5000 then false
  else match s with
    | .h => v.midH
    | .l => v.midL

/-- A terminal reads ON in both halves; it reads OFF in both halves. -/
def bothOn (g : GroupSt) (v : Level) : Bool := readsOn g .h v && readsOn g .l v
def bothOff (g : GroupSt) (v : Level) : Bool := !readsOn g .h v && !readsOn g .l v

/-- One output at a readback window: both terminals, and the current code of half L. -/
structure RbSample where
  plus : Level
  minus : Level
  cur : Nat
  deriving DecidableEq, Repr

/-- A dead output. -/
def rbSampleOff : RbSample := { plus := levelOff, minus := levelOff, cur := 0 }

/-- The counter rule with N = 4. -/
def rbFilter (raw : Bool) (t : RbTerm) : RbTerm :=
  let f := filterStep 4 raw t.cnt t.filt
  { cnt := f.1, filt := f.2 }

/-- The fault that a half's filtered readings show against E (08 Table 8.6). -/
def rbMismatch (e : Bool) (q : RbHalf) : Option (BitVec 4) :=
  if e then (if !q.plus.filt || q.minus.filt then some fkREADBACK else none)
  else if q.plus.filt then some fkFOREIGNPLUS
  else if q.minus.filt then some fkFOREIGNMINUS else none

/-- Class of a current code (08 Table 8.3). -/
def loadClass (w : Word) (c : Nat) : BitVec 2 :=
  if c < cfgOpenTh w then 0 else if c < cfgLowTh w then 1 else if c < cfgOverTh w then 2 else 3

/-- Current sense of one output: class run and overload run (08 R266, R267). -/
def currentStep (w : Word) (code : Nat) (c : OutCell) : OutCell :=
  let cur := min code 1023
  if !c.e then { c with cur := cur, overRun := 0, onFor := 0, candRun := 0 }
  else
    let early := decide (c.onFor < 20)
    let k := loadClass w cur
    let c1 := { c with cur := cur, onFor := c.onFor + 1, overRun := if !early && 384 ≤ cur then c.overRun + 1 else 0 }
    if k = c.cls || (early && k = 3) then { c1 with candRun := 0 }
    else
      let run := if k = c.cand then c.candRun + 1 else 1
      if (if k = 3 then 20 else 8) ≤ run then { c1 with cls := k, cand := k, candRun := 0 }
      else { c1 with cand := k, candRun := run }

/-- The two halves' readback states are apart (08 R265). -/
def rbApart (c : OutCell) : Bool :=
  let far := fun (a b : RbTerm) => a.filt != b.filt || decide (2 < a.cnt - b.cnt) || decide (2 < b.cnt - a.cnt)
  far c.h.plus c.l.plus || far c.h.minus c.l.minus

/-- Clearing condition of a lock that readback clears, as it stands now (08 Table 8.6). -/
def clearCond (x : OutSt) (o : Nat) : Bool :=
  let c := outCell x o
  commandedOff x o &&
    (if c.kind = fkFOREIGNPLUS || c.kind = fkHSSTUCK then !c.h.plus.filt && !c.l.plus.filt
     else if c.kind = fkFOREIGNMINUS then !c.h.minus.filt && !c.l.minus.filt
     else if c.kind = fkHLAPART then !rbApart c && !x.stoppedH && !x.stoppedL
     else false)

/-- Count one window toward the clearing of a lock; the 16th clears it. -/
def clearStep (o : Nat) (x : OutSt) : OutSt × List LogReq :=
  let c := outCell x o
  if c.kind = fkNONE then (x, [])
  else if clearCond x o then
    (if 15 ≤ c.clearRun then clearLock o x else (putOutCell o { c with clearRun := c.clearRun + 1 } x, []))
  else (putOutCell o { c with clearRun := 0 } x, [])

/-- One output at a readback window end. -/
def rbOutput (cx : OutCx) (samples : List RbSample) (x0 : OutSt) (o : Nat) : OutSt × List LogReq :=
  let x1 := refreshE cx o x0
  let s := samples.getD o rbSampleOff
  let g := groupSt x1 (outGroup o)
  let alone := bitOf x1.parallel o && !cx.claims
  let c0 := outCell x1 o
  let h : RbHalf := { c0.h with plus := rbFilter (readsOn g .h s.plus) c0.h.plus, minus := rbFilter (readsOn g .h s.minus) c0.h.minus }
  let l : RbHalf := { c0.l with plus := rbFilter (readsOn g .l s.plus) c0.l.plus, minus := rbFilter (readsOn g .l s.minus) c0.l.minus }
  let still := decide (0 < c0.quiet) || g.sag || decide (0 < g.suspend) || alone
  let run := fun (q : RbHalf) =>
    if still then q else if (rbMismatch c0.e q).isSome then { q with mism := q.mism + 1 } else { q with mism := 0 }
  let h1 := run h
  let l1 := run l
  let c1 := currentStep (outCfg x1 o) s.cur
    { c0 with h := h1, l := l1, quiet := c0.quiet - 1, partner := alone,
              age := c0.age.map (fun a => a + 1), overdue := if c0.toDue = 0 then c0.overdue + 1 else 0,
              toDue := c0.toDue - 1 }
  let x2 := putOutCell o c1 x1
  let hit := fun (q : RbHalf) => if !still && 4 ≤ q.mism then rbMismatch c0.e q else none
  let fault :=
    if rbApart c1 then some fkHLAPART
    else if (hit h1).isSome then hit h1
    else if (hit l1).isSome then hit l1
    else if 30 ≤ c1.overRun then some fkOVERLOAD else none
  let x3 := match fault with
    | some k => setLock o k x2
    | none => (x2, [])
  let x4 := clearStep o x3.1
  (refreshE cx o x4.1, x3.2 ++ x4.2)

/-- A measurement of a group's field supply by both halves, in mV (08 R277); one below 17.4 V suspends comparison and tests, up to 8
windows after the first that does not. -/
def measure (mvH mvL : Nat) (q : GroupSt) : GroupSt :=
  let sag := decide (mvH < 17400) || decide (mvL < 17400)
  { q with mvH := mvH, mvL := mvL, sag := sag, suspend := if q.sag && !sag then 8 else q.suspend }

/-- A readback window end over all outputs (08 R263). `fs`: the latest measurements of every group, halves H and L. -/
def readbackEnd (cx : OutCx) (samples : List RbSample) (fs : List (Nat × Nat)) (x0 : OutSt) : OutSt × List LogReq :=
  let x1 := (numsFrom 0 8).foldl (fun x g => modGroup g (measure (fs.getD g (0, 0)).1 (fs.getD g (0, 0)).2) x) x0
  let r := foldOut (rbOutput cx samples) x1 (numsFrom 0 96)
  ({ r.1 with used := 0, groups := mapA groupReset (fun _ q => { q with suspend := q.suspend - 1 }) r.1.groups }, r.2)

/-! ## Test steps (08 R269 to R274) -/

/-- An output may be tested now (08 R270, R269). -/
def testable (cx : OutCx) (x : OutSt) (o : Nat) : Bool :=
  let c := outCell x o
  let g := groupSt x (outGroup o)
  decide (o < 96) && cx.claims && !cx.safe && !cx.fired && !g.cut && !g.held && !g.sag && !cx.dropped.contains o &&
    lightAllowed c.kind && !x.stoppedH && !x.stoppedL

/-- The output an engine serves: due for the longest time, the lowest-numbered among equals. -/
def engineServes (cx : OutCx) (x : OutSt) (g : Nat) : Option Nat :=
  (numsFrom (12 * g) 12).foldl (fun best o =>
    if testable cx x o && decide ((outCell x o).toDue = 0) then
      match best with
      | none => some o
      | some b => if (outCell x b).overdue < (outCell x o).overdue then some o else some b
    else best) none

/-- The engine of the output's group takes this step now. -/
def stepDue (cx : OutCx) (x : OutSt) (o : Nat) : Bool :=
  !bitOf x.used (outGroup o) && decide (engineServes cx x (outGroup o) = some o)

/-- A completed test. -/
def testPassed (w : Word) (c : OutCell) : OutCell :=
  { c with age := some 0, toDue := cfgTestMs w, overdue := 0, fails := 0, failKind := 0, lsNext := false }

/-- A failed step: locks after `limit` failures of the kind in a row. -/
def testFailed (o : Nat) (k : BitVec 4) (limit : Nat) (x : OutSt) : OutSt × List LogReq :=
  let c := outCell x o
  let n := if c.failKind = k then c.fails + 1 else 1
  let x1 := putOutCell o { c with fails := n, failKind := k } x
  if limit ≤ n then setLock o k x1 else (x1, [])

/-- The engine has used this interval. -/
def useEngine (o : Nat) (x : OutSt) : OutSt := { x with used := setBitOf x.used (outGroup o) true }

/-- A high-side dark step (08 R271): OUTnn+ must read OFF in both halves at the sample. `met`: an action of rank 1 to 6 met the step,
which is aborted, neither passed nor failed, and the engine runs no other in this interval (R261, R269). -/
def hsDark (cx : OutCx) (o : Nat) (plus : Level) (met : Bool) (x : OutSt) : OutSt × List LogReq :=
  let c := outCell x o
  if !stepDue cx x o || !c.e || c.lsNext then (x, [])
  else
    let y := useEngine o x
    if met then (y, [])
    else if !bothOff (groupSt x (outGroup o)) plus then testFailed o fkHSSTUCK 2 y
    else (putOutCell o { c with lsNext := true, fails := 0, failKind := 0 } y, [])

/-- A low-side dark step: OUTnn− must read ON in both halves. -/
def lsDark (cx : OutCx) (o : Nat) (minus : Level) (met : Bool) (x : OutSt) : OutSt × List LogReq :=
  let c := outCell x o
  if !stepDue cx x o || !c.e || !c.lsNext then (x, [])
  else
    let y := useEngine o x
    if met then (y, [])
    else if bothOn (groupSt x (outGroup o)) minus then (putOutCell o (testPassed (outCfg x o) c) y, [])
    else testFailed o fkBYPASS 2 y

/-- The samples of a light step: both terminals at the high-side sample and at the pre-sample, OUTnn− at the low-side sample. `drive`: a
gate-drive monitor showed drive, which refuses the step (08 R274). -/
structure LightSample where
  plusHs : Level
  minusHs : Level
  plusPre : Level
  minusPre : Level
  minusLs : Level
  drive : Bool
  deriving DecidableEq, Repr

/-- Conditions of 08 Table 8.5 at the sample points of a light step, but for OUTnn+ at the high-side sample. -/
def lightRest (g : GroupSt) (s : LightSample) : Bool :=
  bothOn g s.minusHs && bothOn g s.plusPre && bothOn g s.minusPre && bothOff g s.minusLs

/-- A light step (08 R271, R272); it gives the class of a de-energised output by OUTnn− of half L at the high-side sample (R266). -/
def lightStep (cx : OutCx) (o : Nat) (s : LightSample) (met : Bool) (x : OutSt) : OutSt × List LogReq :=
  let c := outCell x o
  let g := groupSt x (outGroup o)
  if !stepDue cx x o || c.e then (x, [])
  else
    let y := useEngine o x
    if met || s.drive || c.latchH || c.latchL then (y, [])
    else
      let k : BitVec 2 := if readsOn g .l s.minusHs then 2 else 0
      let c1 := { c with cls := k, lightCls := k, candRun := 0 }
      let y1 := putOutCell o c1 y
      if !bothOn g s.plusHs then testFailed o fkHSTEST 2 y1
      else if !lightRest g s then testFailed o fkLSUNPROVEN 3 y1
      else
        let y2 := putOutCell o (testPassed (outCfg x o) c1) y1
        if clearedByLight c.kind && commandedOff x o then clearLock o y2 else (y2, [])

/-! ## Groups (08 R277 to R280) -/

/-- A measurement by both halves in mV, and for how long each half has seen the condition of 08 Table 8.7 that the command names, in µs:
continuously, or for an undervoltage accumulated since the latest measurement of 17.4 V or above. -/
structure SupplyIn where
  mvH : Nat
  mvL : Nat
  usH : Nat
  usL : Nat
  deriving DecidableEq, Repr

/-- One half sees a condition for the time it takes. -/
def halfSees (p : Nat → Bool) (us : Nat) (q : SupplyIn) (s : Side) : Bool :=
  match s with
  | .h => p q.mvH && decide (us ≤ q.usH)
  | .l => p q.mvL && decide (us ≤ q.usL)

/-- 08 Table 8.7: LOW, undervoltage and overvoltage in a half; LOW cleared and restore need both. -/
def seesLow (q : SupplyIn) (s : Side) : Bool := halfSees (fun v => decide (v < 19200)) 1000 q s
def seesHigh (q : SupplyIn) : Bool :=
  halfSees (fun v => decide (19600 ≤ v)) 100000 q .h && halfSees (fun v => decide (19600 ≤ v)) 100000 q .l
def seesCut (q : SupplyIn) (s : Side) : Bool :=
  halfSees (fun v => decide (v < 17000)) 5000 q s || halfSees (fun v => decide (32000 < v)) 1000 q s
def inRestoreBand (v : Nat) : Bool := decide (20400 ≤ v) && decide (v ≤ 30000)
def seesRestore (q : SupplyIn) : Bool := halfSees inRestoreBand 500000 q .h && halfSees inRestoreBand 500000 q .l

/-- LOW of a group. -/
def setLow (ms g : Nat) (b : Bool) (x : OutSt) : OutSt :=
  modGroup g (fun q => { q with low := b, lowAt := if b then ms else q.lowAt }) x

/-- A group is cut: its latches are held clear, and a restore interval is counted afresh (08 R277, R279). -/
def cutGroup (ms g : Nat) (x : OutSt) : OutSt :=
  clearLatches (fun o => decide (outGroup o = g))
    (modGroup g (fun q => { q with cut := true, cutAt := ms, held := false, shownAt := none }) x)

/-- A group is restored; its latches stay clear up to the RELEASE of R280. -/
def restoreGroup (g : Nat) (x : OutSt) : OutSt :=
  modGroup g (fun q => { q with cut := false, held := true, shownAt := none, suspend := 8 }) x

/-- DS.GROUP (05 Table 5.3): LOW in [15:8], cut in [7:0]. -/
def groupWord (x : OutSt) : BitVec 16 :=
  (numsFrom 0 8).foldl (fun v g =>
    let q := groupSt x g
    let v1 := if q.cut then setBitOf v g true else v
    if q.low then setBitOf v1 (8 + g) true else v1) 0

/-- A frozen image shows the group restored. -/
def markShown (k : Word) (x : OutSt) : OutSt :=
  { x with groups := mapA groupReset (fun _ q => if q.held && q.shownAt.isNone then { q with shownAt := some k } else q) x.groups }

/-- A half of the gondola has stopped (08 R262). -/
def stopHalf (s : Side) (x : OutSt) : OutSt × List LogReq :=
  let y := match s with
    | .h => { x with stoppedH := true }
    | .l => { x with stoppedL := true }
  foldOut (fun z o => setLock o fkHLAPART z) (clearLatches (fun _ => true) y) (numsFrom 0 96)

/-! ## Status (08 Table 8.8) -/

/-- The output status word of output `o`. -/
def outStatusWord (cx : OutCx) (x : OutSt) (o : Nat) : Word :=
  let c := outCell x o
  let age : Nat := match c.age with
    | none => 255
    | some a => min 255 (a / 1000)
  (BitVec.ofNat 8 (c.cur / 4) ++ c.cls ++ 0#2 ++ c.kind ++ b2v (decide (c.kind ≠ fkNONE)) ++ b2v c.hsHeld ++ b2v c.lsHeld ++
    b2v c.h.plus.filt ++ b2v c.h.minus.filt ++ b2v c.e ++ b2v c.partner ++ b2v (cx.dropped.contains o) ++
    BitVec.ofNat 8 age : BitVec 32)

/-- The drive seen on an output: its frozen status word shows RB_PLUS ON and RB_MINUS OFF (12 R369). -/
def driveShown (w : Word) : Bool := bitOf w 12 && !bitOf w 11

/-- Note when a frozen status word last showed drive. -/
def noteDrive (ms : Nat) (ws : List (Nat × Word)) (x : OutSt) : OutSt :=
  ws.foldl (fun x p => if driveShown p.2 then modOutCell p.1 (fun c => { c with driveSeen := some ms }) x else x) x

/-- The words of all outputs, as a sparse list over 0xFF (no test, nothing read). -/
def outStatusWords (cx : OutCx) (x : OutSt) : List (Nat × Word) :=
  (numsFrom 0 96).foldl (fun m o => putA (0xFF : Word) o (outStatusWord cx x o) m) []

end Sys2Proof.Machine
end

