-- ==== Sys2Proof/Machine/Station.lean ====
section
/-!
DEFINITION. The STATION part as data (04 R140, 09 R289 to R292, 11 R329, R347, 15 R436 to R439, 17 R473, 18 R486), its start
checks.
-/

namespace Sys2Proof.Machine

/-! ## Tables of the STATION part -/

/-- The module parameters as a STATION part gives them, each or none (04 Table 4.1, 07 Table 7.2): PERIOD and the budgets in
microseconds, DEADLINE in thousandths of a percent, the code of SAMPLE_INTERVAL. -/
structure GivenParams where
  period : Option Nat
  deadline : Option Nat
  budgetIn : Option Nat
  budgetProp : Option Nat
  budgetOut : Option Nat
  interval : Option Nat
  deriving DecidableEq, Repr

/-- A part that omits every parameter. -/
def paramsOmitted : GivenParams :=
  { period := none, deadline := none, budgetIn := none, budgetProp := none, budgetOut := none, interval := none }

/-- Cycle parameters in force (04 Table 4.1) in their steps: ms, percent, and tenths of a ms; SAMPLE_INTERVAL (07 Table 7.2). -/
structure CycleParams where
  period : Nat
  deadline : Nat
  budgetIn : Nat
  budgetProp : Nat
  budgetOut : Nat
  interval : Nat
  deriving DecidableEq, Repr

/-- Defaults of 04 Table 4.1 and 07 Table 7.2. -/
def paramsDefault : CycleParams :=
  { period := 50, deadline := 60, budgetIn := 40, budgetProp := 20, budgetOut := 40, interval := 2 }

/-- An omitted parameter takes its default (00 R15). -/
def paramsOf (g : GivenParams) : CycleParams :=
  { period := (g.period.getD 50000) / 1000, deadline := (g.deadline.getD 60000) / 1000,
    budgetIn := (g.budgetIn.getD 4000) / 100, budgetProp := (g.budgetProp.getD 2000) / 100,
    budgetOut := (g.budgetOut.getD 4000) / 100, interval := g.interval.getD 2 }

/-- A profile record as a STATION part gives it (04 Table 4.7): a field that it omits takes its default (00 R15). -/
structure ProfilePart where
  tag : BitVec 16
  valid : Bool
  aspectSet : Option (BitVec 7)
  apprLock : Option (BitVec 24)
  ovlRel : Option (BitVec 24)
  callTo : Option (BitVec 24)
  lcClose : Option (BitVec 24)
  reclearHold : Option (BitVec 16)
  deriving DecidableEq, Repr

/-- A profile that is not defined. -/
def profileOmitted : ProfilePart :=
  { tag := 0, valid := false, aspectSet := none, apprLock := none, ovlRel := none, callTo := none, lcClose := none,
    reclearHold := none }

/-- The record in true form without CHECK, defaults put in; its reserved bits are 0 (00 R12). -/
def profileWords (q : ProfilePart) : Profile :=
  { p0 := (q.tag ++ 0#8 ++ b2v q.valid ++ q.aspectSet.getD 0x7F : BitVec 32),
    p1 := (q.apprLock.getD 120000).setWidth 32, p2 := (q.ovlRel.getD 60000).setWidth 32,
    p3 := (q.callTo.getD 8000).setWidth 32, p4 := (q.lcClose.getD 60000).setWidth 32,
    p5 := (q.reclearHold.getD 20).setWidth 32, p6 := 0, p7 := 0 }

/-- The ports of 09 Table 9.1, coded as in tail records: T 0, A 1, B 2, E 3. -/
inductive Port where
  | t | a | b | e
  deriving DecidableEq, Repr

def portIndex : Port → Nat
  | .t => 0
  | .a => 1
  | .b => 2
  | .e => 3
def allPorts : List Port := [.t, .a, .b, .e]

/-- A port record (09 Table 9.2). -/
structure PortRec where
  ip : Word
  mask : Word
  router : Word
  vlanEn : Bool
  vlan : BitVec 12
  deriving DecidableEq, Repr

def portUnused : PortRec := { ip := 0, mask := 0, router := 0, vlanEn := false, vlan := 0 }

/-- A link entry (09 Table 9.3). -/
structure LinkEntry where
  valid : Bool
  ports : BitVec 2
  protect : Bool
  keyId : Bool
  timeSrc : Bool
  peer : BitVec 18
  peerIp : Word
  peerIpB : Word
  tMax : BitVec 16
  tLoss : BitVec 16
  udpPort : BitVec 16
  peerShare : BitVec 6
  share : BitVec 6
  deriving DecidableEq, Repr

def linkUnused : LinkEntry :=
  { valid := false, ports := 0, protect := false, keyId := false, timeSrc := false, peer := 0, peerIp := 0, peerIpB := 0,
    tMax := 0, tLoss := 0, udpPort := 0, peerShare := 0, share := 0 }

/-- A served entry of a FIELD-role module (11 Table 11.9). -/
structure Served where
  link : Nat
  inMask : BitVec 192
  outMask : BitVec 96
  deriving DecidableEq, Repr

/-- A variable map entry (15 Table 15.7). -/
structure VarEntry where
  id : BitVec 31
  typ : BitVec 4
  safeValid : Bool
  safeValue : Bool
  words : BitVec 8
  offset : BitVec 18
  init : Word
  source : Word
  deriving DecidableEq, Repr

/-- An operator key (17 Table 17.8). -/
structure OpKey where
  roles : BitVec 5
  pub : BitVec 512
  ident : BitVec 128
  deriving DecidableEq, Repr

def opKeyNone : OpKey := { roles := 0, pub := 0, ident := 0 }

/-- Data of one region in a STATION part: the code bank as bytes, and the variable map in ascending ID. -/
structure RegionImage where
  code : List Host.Cell
  varmap : List VarEntry
  deriving DecidableEq, Repr

def regionImageNone : RegionImage := { code := [], varmap := [] }

/-- The STATION part (15 R436): its header and its sections. Route memory and the proxy store are word lists of one bank. -/
structure StationPart where
  /-- Every record is readable (15 R432), and the sections have the form of 15 R435. -/
  recordsOk : Bool
  formOk : Bool
  number : BitVec 12
  /-- MODULES: the positions that may run the image (15 R436). -/
  modules : BitVec 64
  commissioning : Bool
  version : Word
  given : GivenParams
  cells : List (Nat × CellRec)
  routes : List (Nat × Word)
  proxies : List (Nat × Word)
  profiles : List (Nat × ProfilePart)
  regions : List (Nat × RegionImage)
  inCfg : List (Nat × Word)
  outCfg : List (Nat × Word)
  ports : List (Nat × PortRec)
  links : List (Nat × LinkEntry)
  system : List (Nat × Word)
  served : List Served
  exports : List (Nat × List Nat)
  rates : List (Nat × Rate)
  operators : List (Nat × OpKey)
  deriving DecidableEq, Repr

/-- No STATION part. -/
def stationNone : StationPart :=
  { recordsOk := true, formOk := true, number := 0, modules := 0, commissioning := false, version := 0, given := paramsOmitted, cells := [], routes := [], proxies := [],
    profiles := [], regions := [], inCfg := [], outCfg := [], ports := [], links := [], system := [], served := [],
    exports := [], rates := [], operators := [] }

/-- The cycle parameters in force with a part. -/
def StationPart.params (p : StationPart) : CycleParams := paramsOf p.given
/-- A record of the profile table of a part. -/
def partProfile (p : StationPart) (k : Nat) : Profile := profileWords (getA profileOmitted p.profiles k)

def linkOf (p : StationPart) (n : Nat) : LinkEntry := getA linkUnused p.links n
def sysWord (p : StationPart) (m : Nat) : Word := getA 0 p.system m
def sysValid (w : Word) : Bool := bitOf w 31
/-- ROLE: 0 LOGIC, 1 FIELD, 2 LOGIC_FIELD. -/
def sysRole (w : Word) : Nat := (w.extractLsb' 29 2).toNat
def sysTerr (w : Word) : Nat := (w.extractLsb' 16 5).toNat
def sysLinked (w : Word) : Bool := bitOf w 6
def sysLink (w : Word) : Nat := (w.extractLsb' 0 6).toNat
def regionImage (p : StationPart) (r : Nat) : RegionImage := getA regionImageNone p.regions r

/-- Valid links in ascending number. -/
def validLinks (p : StationPart) : List Nat := (numsFrom 0 48).filter (fun n => (linkOf p n).valid)

/-- Ports a link uses. -/
def linkPorts (l : LinkEntry) : List Port :=
  if l.ports = 0 then [.t] else if l.ports = 1 then [.a, .b] else if l.ports = 2 then [.e] else []

/-- Effective T_max and T_loss in ms (09 Table 9.3). -/
def effTMax (p : StationPart) (l : LinkEntry) : Nat := if l.tMax = 0 then 3 * p.params.period else l.tMax.toNat
def effTLoss (p : StationPart) (l : LinkEntry) : Nat := if l.tLoss = 0 then 5 * p.params.period else l.tLoss.toNat
/-- UDP port of a link at both ends (09 Table 9.3). -/
def effUdpPort (l : LinkEntry) : BitVec 16 := if l.udpPort = 0 then 41820 else l.udpPort
/-- Shares, 0 read as 1 to 32 as given. -/
def effShare (l : LinkEntry) : Nat := l.share.toNat
def effPeerShare (l : LinkEntry) : Nat := l.peerShare.toNat

/-- The link to a module position of the own station system. -/
def linkToModule (p : StationPart) (m : Nat) : Option Nat :=
  let w := sysWord p m
  if sysValid w && sysLinked w then some (sysLink w) else none

/-- Module positions of a territory. -/
def terrModules (p : StationPart) (t : Nat) : List Nat :=
  (numsFrom 0 64).filter (fun m => let w := sysWord p m; sysValid w && sysRole w ≠ 1 && sysTerr w = t)

/-- The partner of a module position (11 R330). -/
def partnerOf (p : StationPart) (m : Nat) : Option Nat :=
  let w := sysWord p m
  if !sysValid w || sysRole w = 1 then none else (terrModules p (sysTerr w)).find? (fun q => q ≠ m)

/-! ## Start checks of the STATION part -/

def inRange (lo hi x : Nat) : Bool := decide (lo ≤ x) && decide (x ≤ hi)

/-- The compute deadline D of 04 R141, in SLK periods after the boundary. -/
def deadlineSlk (c : CycleParams) : Nat := c.period * 4096 * c.deadline / 100

/-- A given value stands on its step (04 R140); an omitted one does. -/
def onStep (step : Nat) (v : Option Nat) : Bool := decide ((v.getD 0) % step = 0)

/-- Module parameters (04 R140, R142; 07 R236): steps, ranges, S against D in SLK periods, and S against P in microseconds. -/
def paramsOk (g : GivenParams) : Bool :=
  let c := paramsOf g
  let s := 320 + 100 * (c.budgetIn + c.budgetProp + c.budgetOut)
  onStep 1000 g.period && onStep 1000 g.deadline && onStep 100 g.budgetIn && onStep 100 g.budgetProp && onStep 100 g.budgetOut &&
    inRange 10 250 c.period && inRange 20 80 c.deadline && inRange 2 200 c.budgetIn && inRange 2 200 c.budgetProp &&
    inRange 2 200 c.budgetOut && inRange 1 3 c.interval && decide (s * 4096 ≤ 1000 * deadlineSlk c) &&
    decide (s + 5500 ≤ 1000 * c.period)

/-- A profile record (04 Table 4.7, R158): values within their ranges, and no TAG without VALID. -/
def profileOk (p : Profile) : Bool :=
  (bitOf p.p0 7 || decide (p.p0.extractLsb' 16 16 = 0)) &&
    (decide ((profApprLock p).toNat ≤ 600000) && decide ((profOvlRel p).toNat ≤ 600000) &&
      inRange 1000 60000 (profCallTo p).toNat && inRange 5000 300000 (profLcClose p).toNat && decide (profReclear p ≤ 1000))

/-- An input configuration word beside its pair partner's (07 R242, R243). -/
def inCfgOk (p : StationPart) (n : Nat) : Bool :=
  let w := getA inCfgDefault p.inCfg n
  let e := getA inCfgDefault p.inCfg (n / 2 * 2)
  let k := cfgPair w
  decide (k ≠ 3) && decide (1 ≤ cfgFilterN w) && decide (w.extractLsb' 8 6 = 0) && (k = 2 || !cfgAntiSafe w) &&
    (if k = 0 then decide (cfgDiscMs w = 0) else inRange 5 10000 (cfgDiscMs w)) &&
    decide (cfgPair e = k) && (cfgAntiSafe e == cfgAntiSafe w) && decide (cfgDiscMs e = cfgDiscMs w)

/-- An output configuration word (08 R268). -/
def outCfgOk (w : Word) : Bool :=
  inRange 1 60 (cfgTestMs w / 1000) && inRange 1 4 (w.extractLsb' 23 3).toNat && inRange 1 31 (cfgOpenTh w) &&
    inRange 2 255 (cfgLowTh w) && inRange 256 1020 (cfgOverTh w) && decide (cfgOpenTh w < cfgLowTh w) &&
    decide (cfgLowTh w < cfgOverTh w)

/-- Outputs that a cell of the module binds with REMOTE 0. -/
def ownOutputs (c : CellRec) : List Nat := if bindRemote c then [] else boundOuts c

/-- The ownership masks of the regions (06 R213; 11 R350 for served outputs). -/
def ownMask (p : StationPart) (r : Nat) : BitVec 96 :=
  let cells := p.cells.filter (fun q => decide (regionOf q.1 = r) && isLive q.2)
  let m := cells.foldl (fun m q => (ownOutputs q.2).foldl (fun m o => setBitOf m o true) m) (0 : BitVec 96)
  let served := p.served.foldl (fun (m : BitVec 96) s => m ||| s.outMask) 0
  (numsFrom (6 * r) 6).foldl (fun m o => if bitOf served o then setBitOf m o true else m) m

/-- Every revert-flagged input is bound to a cell (04 R161), and at most 32 are flagged (07 R243). -/
def revertOk (p : StationPart) : Bool :=
  let flagged := (numsFrom 0 192).filter (fun n => cfgRevert (getA inCfgDefault p.inCfg n))
  decide (flagged.length ≤ 32) &&
    flagged.all (fun n => p.cells.any (fun q => isLive q.2 && !bindRemote q.2 && (boundIns q.2).contains n))

/-- No output is owned by two regions (01 R27, 06 R213). -/
def ownersOk (p : StationPart) : Bool :=
  (numsFrom 0 16).all (fun r => (numsFrom 0 r).all (fun q => decide (ownMask p r &&& ownMask p q = 0)))

/-- The link table (09 R292), without the keys. -/
def linksOk (p : StationPart) (own : BitVec 18) : Bool :=
  let ls := validLinks p
  ls.all (fun n =>
      let l := linkOf p n
      decide (l.ports ≠ 3) && decide (l.peer ≠ own) && ls.all (fun m => decide (m = n) || decide ((linkOf p m).peer ≠ l.peer)) &&
        (linkPorts l).all (fun q => decide ((getA portUnused p.ports (portIndex q)).ip ≠ 0)) &&
        inRange 10 2500 (effTMax p l) && inRange (effTMax p l + p.params.period) 10000 (effTLoss p l) &&
        inRange 1 32 (effShare l) && inRange 1 32 (effPeerShare l)) &&
    allPorts.all (fun q =>
      let on := ls.filter (fun n => (linkPorts (linkOf p n)).contains q)
      decide ((on.map (fun n => effShare (linkOf p n))).sum ≤ 32) &&
        decide ((on.map (fun n => effPeerShare (linkOf p n))).sum ≤ 32))

/-- A mask is contiguous (09 Table 9.2), and a tagged port has a VLAN ID. -/
def portOk (q : PortRec) : Bool :=
  decide (~~~q.mask &&& (~~~q.mask + 1) = 0) && (!q.vlanEn || inRange 1 4094 q.vlan.toNat)

/-- The system table (11 R330). -/
def systemOk (p : StationPart) (station : BitVec 12) (pos : Nat) : Bool :=
  let ms := (numsFrom 0 64).filter (fun m => sysValid (sysWord p m))
  let linked := ms.filter (fun m => sysLinked (sysWord p m))
  sysValid (sysWord p pos) && !sysLinked (sysWord p pos) &&
    ms.all (fun m => decide (sysRole (sysWord p m) ≠ 3) &&
      (decide (sysRole (sysWord p m) = 1) || decide ((terrModules p (sysTerr (sysWord p m))).length = 2))) &&
    linked.all (fun m =>
      let l := linkOf p (sysLink (sysWord p m))
      l.valid && decide (l.peer = station ++ BitVec.ofNat 6 m) &&
        linked.all (fun q => decide (q = m) || decide (sysLink (sysWord p q) ≠ sysLink (sysWord p m)))) &&
    (validLinks p).all (fun n => decide ((linkOf p n).peer.extractLsb' 6 12 ≠ station) ||
      linked.any (fun m => decide (sysLink (sysWord p m) = n))) &&
    (match partnerOf p pos with
     | none => true
     | some q => match linkToModule p q with
       | none => false
       | some n => decide ((linkOf p n).ports = 0))

/-- Export lists: at most 512 own cells for a link (11 R334). -/
def exportsOk (p : StationPart) : Bool :=
  p.exports.all (fun q => (linkOf p q.1).valid && decide (q.2.length ≤ 512) && q.2.all (fun n => decide (n < 4096)))

/-- The rate table (18 R486): no code twice, none that is never limited, values in their ranges. -/
def ratesOk (p : StationPart) : Bool :=
  decide (p.rates.map (·.1)).Nodup &&
  p.rates.all (fun q => !codeUnlimited (BitVec.ofNat 16 q.1) && inRange 1 255 q.2.burst && inRange 1 10000 q.2.refill)

/-- Served tables (11 R347). -/
def servedOk (p : StationPart) (station : BitVec 12) : Bool :=
  let ins := p.served.foldl (fun (m : BitVec 192) s => m ||| s.inMask) 0
  let outs := p.served.foldl (fun (m : BitVec 96) s => m ||| s.outMask) 0
  decide (p.served.length ≤ 8) &&
    (numsFrom 0 p.served.length).all (fun i => (numsFrom 0 i).all (fun j =>
      match p.served[i]?, p.served[j]? with
      | some a, some b => decide (a.inMask &&& b.inMask = 0) && decide (a.outMask &&& b.outMask = 0)
      | _, _ => true)) &&
    p.cells.all (fun q => !isLive q.2 || bindRemote q.2 || ((boundIns q.2).all (fun n => !bitOf ins n) &&
      (boundOuts q.2).all (fun n => !bitOf outs n))) &&
    (numsFrom 0 192).all (fun n => !bitOf ins n || !cfgRevert (getA inCfgDefault p.inCfg n)) &&
    p.served.all (fun s =>
      let l := linkOf p s.link
      let w := sysWord p (l.peer.extractLsb' 0 6).toNat
      l.valid && decide (l.peer.extractLsb' 6 12 = station) && sysValid w && decide (sysRole w ≠ 1))

/-- Words of a variable (15 Table 15.8). -/
def varWords (v : VarEntry) : Nat := if v.typ = 5 then 2 else if v.typ = 7 then v.words.toNat else 1

/-- One entry: a code of Table 15.8, an ID, a place inside the data area, and for an EDGE a source that exists. -/
def varEntryOk (l : List VarEntry) (v : VarEntry) : Bool :=
  inRange 1 7 v.typ.toNat && decide (v.id ≠ 0) && decide (1 ≤ varWords v) && decide (v.offset.toNat % 4 = 0) &&
    decide (v.offset.toNat + 4 * varWords v ≤ 0x2C000) &&
    (decide (v.typ ≠ 6) ||
      (if bitOf v.source 31 then decide (v.source.toNat % 2 ^ 31 < 192)
       else l.any (fun u => decide (u.id.setWidth 32 = v.source) && decide (u.typ = 1))))

/-- Variable map of a region (15 R439): ascending IDs, inside the data area, without overlap. -/
def varsApart : List VarEntry → Bool
  | [] => true
  | v :: t =>
    t.all (fun u => decide (v.id.toNat < u.id.toNat) &&
        (decide (v.offset.toNat + 4 * varWords v ≤ u.offset.toNat) || decide (u.offset.toNat + 4 * varWords u ≤ v.offset.toNat))) &&
      varsApart t

/-- The start checks of a variable map (15 R439). -/
def varmapOk (l : List VarEntry) : Bool := decide (l.length ≤ 8192) && l.all (varEntryOk l) && varsApart l

/-- Profiles named by cells are VALID (04 R158). -/
def profilesOk (p : StationPart) : Bool :=
  (numsFrom 0 8).all (fun k => profileOk (partProfile p k)) && p.profiles.all (fun q => decide (q.1 < 8)) &&
    p.cells.all (fun q => !isLive q.2 || bitOf (partProfile p q.2.profile.toNat).p0 7)

/-- The start checks of the tables that are neither cells, routes nor code. -/
def stationChecks (p : StationPart) (station : BitVec 12) (pos : BitVec 6) : Bool :=
  paramsOk p.given && profilesOk p && (numsFrom 0 192).all (inCfgOk p) &&
    (numsFrom 0 96).all (fun o => outCfgOk (getA (0x29653348 : Word) p.outCfg o)) && revertOk p && ownersOk p &&
    linksOk p (station ++ pos) && p.ports.all (fun q => portOk q.2) && systemOk p station pos.toNat && exportsOk p && ratesOk p &&
    servedOk p station && p.operators.all (fun q => decide (q.1 < 8)) &&
    (numsFrom 0 16).all (fun r => varmapOk (regionImage p r).varmap)

end Sys2Proof.Machine
end

