-- ==== Sys2Proof/Machine/Carrier.lean ====
section
/-!
DEFINITION. The configuration carrier (15 R430 to R434): its records and partition table, the two slots with their manifests (16 R450,
R451), the commit area (16 R454) and the persistent data areas (16 R458); the version record with the fuses (16 R452, R453), the shutdown
BIST record (14 Table 14.4) and the record key (14 R421).
-/

namespace Sys2Proof.Machine

/-! ## Carrier records (15 Table 15.2) -/

/-- A carrier record: the carrier address of its first byte, TYPE, DATA, and the CHECK that is stored. -/
structure CarRec where
  at_ : Nat
  typ : Byte
  data : List Word
  check : Word
  deriving DecidableEq, Repr

/-- C0 of a record. -/
def carHead (typ : Byte) (data : List Word) : Word := (typ ++ 0#8 ++ BitVec.ofNat 16 (4 * data.length) : BitVec 32)

/-- CHECK of a record: CRC-32C over its address, C0 and DATA. -/
def carCheck (at_ : Nat) (typ : Byte) (data : List Word) : Word :=
  crc32c (leBytes (BitVec.ofNat 32 at_) ++ leBytes (carHead typ data) ++ data.flatMap leBytes)

/-- A record as a writer puts it there. -/
def carSeal (at_ : Nat) (typ : Byte) (data : List Word) : CarRec := { at_ := at_, typ := typ, data := data, check := carCheck at_ typ data }

/-- A readable record of a type at an address (15 R431, R432). -/
def carReadable (at_ : Nat) (typ : Byte) (r : CarRec) : Bool :=
  decide (r.at_ = at_) && decide (r.typ = typ) && decide (1 ≤ r.data.length) && decide (r.data.length ≤ 1022) &&
    decide (r.check = carCheck r.at_ r.typ r.data)

/-- Bytes of a record as they are stored. -/
def carBytes (r : CarRec) : List Byte := leBytes (carHead r.typ r.data) ++ r.data.flatMap leBytes ++ leBytes r.check

/-- A byte string of whole words as one value, the first byte most significant: the stored form of SM3 values (16 R450). -/
def digestOf (ws : List Word) : BitVec 256 :=
  ws.foldl (fun (v : BitVec 256) w =>
    (v <<< 32) ||| (beWord (w.extractLsb' 0 8) (w.extractLsb' 8 8) (w.extractLsb' 16 8) (w.extractLsb' 24 8)).setWidth 256) 0

/-- The words that store an SM3 value. -/
def digestWords (d : BitVec 256) : List Word :=
  (numsFrom 0 8).map (fun k =>
    let w := d.extractLsb' (224 - 32 * k) 32
    leWord (w.extractLsb' 24 8) (w.extractLsb' 16 8) (w.extractLsb' 8 8) (w.extractLsb' 0 8))

/-! ## The partition table (15 R433) -/

/-- Carrier addresses of the two copies. -/
def tableBase (k : Bool) : Nat := if k then 0x80000 else 0

/-- A readable copy of Table 15.3. -/
def tableReadable (k : Bool) (r : CarRec) : Bool :=
  carReadable (tableBase k) 0x01 r && decide ((r.data.getD 0 0).extractLsb' 16 16 = 0x0001) && decide (r.data.getD 2 0 = 0x00100000) &&
    decide (r.data.getD 3 0 = 0x03100000) && decide (r.data.getD 4 0 = 0x06100000) && decide (r.data.getD 5 0 = 0x00040000)

/-! ## Slots (16 R450, R451) -/

/-- Carrier address of a slot. -/
def slotBase (b : Bool) : Nat := if b then 0x03100000 else 0x00100000
/-- Bytes of a slot (15 Table 15.1). -/
def slotBytes : Nat := 48 * 1048576

/-- A slot: its manifest record; whether CERT_SIG verifies under root key ROOT, MAN_SIG under INT_KEY and each PART_SIG under its signer's
key (log entry 10); SM3 over the bytes that stand at each part's OFFSET; the STATION part; and what KEYS opens to under the device key: the
link keys, link × 2 + KEY_ID. -/
structure SlotImg where
  manifest : Option CarRec
  certSig : Bool
  manSig : Bool
  partSigs : List Bool
  stored : List (BitVec 256)
  data : StationPart
  keysOpen : Bool
  keys : List (Nat × BitVec 256)
  deriving DecidableEq, Repr

/-- An erased slot. -/
def slotEmpty : SlotImg :=
  { manifest := none, certSig := false, manSig := false, partSigs := [], stored := [], data := stationNone, keysOpen := false, keys := [] }

/-- Word K`k` of a slot's manifest. -/
def manWord (s : SlotImg) (k : Nat) : Word := (s.manifest.map (fun r => r.data.getD k 0)).getD 0
/-- Word `k` of the entry of part `p`. -/
def partWord (s : SlotImg) (p k : Nat) : Word := manWord s (4 + 28 * p + k)
/-- OFFSET, LENGTH, VERSION, SIGNER and DIGEST of part `p`. -/
def partOffset (s : SlotImg) (p : Nat) : Nat := (partWord s p 1).toNat
def partLength (s : SlotImg) (p : Nat) : Nat := (partWord s p 2).toNat
def partVersion (s : SlotImg) (p : Nat) : Word := partWord s p 3
def partSigner (s : SlotImg) (p : Nat) : Bool := bitOf (partWord s p 0) 0
def partDigest (s : SlotImg) (p : Nat) : BitVec 256 := digestOf ((numsFrom 4 8).map (partWord s p))
/-- PD_FORMAT and PD_OLDEST of the BRIDLE part. -/
def slotPdFormat (s : SlotImg) : Byte := (partWord s 1 0).extractLsb' 16 8
def slotPdOldest (s : SlotImg) : Byte := (partWord s 1 0).extractLsb' 8 8
/-- SM3 of a slot's manifest record. -/
def manDigest (s : SlotImg) : BitVec 256 := sm3 ((s.manifest.map carBytes).getD [])
/-- FW_DIGEST: SM3 over the manifest entries of DIE, BRIDLE and GONDOLA (14 Table 14.4). -/
def fwDigestOf (s : SlotImg) : BitVec 256 := sm3 (((numsFrom 4 84).map (manWord s)).flatMap leBytes)

/-- Check 1 of R451: the manifest record and its form. -/
def manifestOk (b : Bool) (s : SlotImg) : Bool :=
  match s.manifest with
  | none => false
  | some r => carReadable (slotBase b) 0x02 r && decide (r.data.length = 198) && decide ((manWord s 0).extractLsb' 16 16 = 0x0001) &&
      decide ((manWord s 0).extractLsb' 0 8 = 5)

/-- Check 2 of R451: the parts in TYPE order, each within the slot and apart from every other. -/
def partsPlaced (s : SlotImg) : Bool :=
  (numsFrom 0 5).all (fun p =>
    decide ((partWord s p 0).extractLsb' 24 8 = BitVec.ofNat 8 (p + 1)) && decide (partOffset s p % 0x1000 = 0) &&
      decide (0x1000 ≤ partOffset s p) && decide (partOffset s p + partLength s p ≤ slotBytes) &&
      (numsFrom 0 5).all (fun q => decide (p = q) || decide (partOffset s p + partLength s p ≤ partOffset s q) ||
        decide (partOffset s q + partLength s q ≤ partOffset s p)))

/-- Checks 3 to 7 of R451: signers, certificate and its scope, signatures, digests, station number and STATION's VERSION. -/
def manifestSigned (station : BitVec 12) (s : SlotImg) : Bool :=
  let scope := (manWord s 164).extractLsb' 0 12
  (numsFrom 0 5).all (fun p => partSigner s p == decide (3 ≤ p)) && s.certSig && (decide (scope = 0) || decide (scope = station)) && s.manSig &&
    (numsFrom 0 5).all (fun p => decide (s.stored[p]? = some (partDigest s p)) && s.partSigs.getD p false) &&
    decide ((manWord s 1).extractLsb' 0 12 = station) && decide (s.data.version = partVersion s 3)

/-! ## The commit area (16 R454) -/

/-- A commit entry (16 Table 16.3). -/
structure CommitEntry where
  seq : Word
  state : BitVec 4
  reason : BitVec 4
  slotB : Bool
  starts : Byte
  trialSec : Word
  windowH : BitVec 16
  manDigest : BitVec 256
  deriving DecidableEq, Repr

def csCONFIRMED : BitVec 4 := 1
def csPENDING : BitVec 4 := 2
def csTRIAL : BitVec 4 := 3

/-- An empty commit area reads as CONFIRMED on slot A (16 R454). -/
def commitDefault : CommitEntry :=
  { seq := 0, state := 1, reason := 0, slotB := false, starts := 0, trialSec := 0, windowH := 72, manDigest := 0 }

/-- Words J0 to J11 of an entry. -/
def entryWords (e : CommitEntry) : List Word :=
  [e.seq, (e.state ++ e.reason ++ 0#7 ++ b2v e.slotB ++ e.starts ++ 0#8 : BitVec 32), e.trialSec, e.windowH.setWidth 32] ++ digestWords e.manDigest

/-- The entry that words spell. -/
def entryOfWords (ws : List Word) : CommitEntry :=
  let j := ws.getD 1 0
  { seq := ws.getD 0 0, state := j.extractLsb' 28 4, reason := j.extractLsb' 24 4, slotB := bitOf j 16, starts := j.extractLsb' 8 8,
    trialSec := ws.getD 2 0, windowH := (ws.getD 3 0).extractLsb' 0 16, manDigest := digestOf ((ws.drop 4).take 8) }

/-- What an entry slot that is not erased holds: the record and the word at MARK. -/
structure CommitSlot where
  rec_ : CarRec
  mark : Word
  deriving DecidableEq, Repr

/-- The filler of the store of entry slots: an erased slot. -/
def commitErased : CommitSlot := { rec_ := { at_ := 0, typ := 0xFF, data := [], check := -1 }, mark := -1 }
/-- MARK of a complete entry. -/
def commitMARK : Word := 0x7C3E81A5
/-- Carrier address of an entry slot, 0 to 4,095. -/
def commitAt (i : Nat) : Nat := 0x40000 + 64 * i
/-- Entry slots of one erase block. -/
def commitBlock : Nat := 1024

/-! ## Persistent data (16 R458) -/

/-- A persistent data record: FORMAT, ITEM, GENERATION and its value. -/
structure PdRec where
  format : BitVec 16
  item : BitVec 16
  generation : Word
  value : Word
  deriving DecidableEq, Repr

/-- The record of an item that decides: the highest GENERATION. -/
def pdNewest (l : List PdRec) (item : BitVec 16) : Option PdRec :=
  (l.filter (fun r => decide (r.item = item))).foldl (fun n r =>
    if n.all (fun k => decide (k.generation.toNat ≤ r.generation.toNat)) then some r else n) none

/-- Items of an area. -/
def pdItems (l : List PdRec) : List (BitVec 16) := (l.map (·.item)).eraseDups

/-! ## The carrier -/

/-- The carrier: whether its SFDP tables are sound and name 1 Gbit (15 R430), the two copies of the partition table, both slots, the entry
slots of the commit area that are not erased, and the two persistent data areas. `pdFormat`: format of the old-format area. `newArea`: the
new-format area is in use. -/
structure Carrier where
  sfdpOk : Bool
  table0 : Option CarRec
  table1 : Option CarRec
  slotA : SlotImg
  slotB : SlotImg
  commit : List (Nat × CommitSlot)
  areaOld : List PdRec
  areaNew : List PdRec
  pdFormat : Byte
  newArea : Bool
  deriving DecidableEq, Repr

/-- The copy of the partition table in use: the readable one with the higher GENERATION, copy 0 between equals (15 R433). -/
def tableInUse (c : Carrier) : Option CarRec :=
  match c.table0.filter (tableReadable false), c.table1.filter (tableReadable true) with
  | some a, some b => if serialAfter (b.data.getD 1 0) (a.data.getD 1 0) then some b else some a
  | some a, none => some a
  | none, b => b

/-- The carrier can be read: its device is known and a partition table stands (15 R430, R433). -/
def carrierReadable (c : Carrier) : Bool := c.sfdpOk && (tableInUse c).isSome

/-- The carrier as shipped (00 R3): a partition table, and DIE, BRIDLE and GONDOLA in slot A. DESIGN CHOICE (log entry 53): R3 gives neither the
GENERATION and the copy of the table, 0 and copy 0 here, nor a manifest for slot A, absent here, nor the format of the persistent data,
0 here. What the parts' bytes digest to is a free value. -/
def carrierShipped : Carrier :=
  { sfdpOk := true, table0 := some (carSeal 0 0x01 [0x00010000, 0, 0x00100000, 0x03100000, 0x06100000, 0x00040000]), table1 := none,
    slotA := { slotEmpty with stored := [Config.shippedPart 0, Config.shippedPart 1, Config.shippedPart 2] }, slotB := slotEmpty,
    commit := [], areaOld := [], areaNew := [], pdFormat := 0, newArea := false }

/-- A slot by its letter. -/
def slotOf (c : Carrier) (b : Bool) : SlotImg := if b then c.slotB else c.slotA
def putSlot (b : Bool) (s : SlotImg) (c : Carrier) : Carrier := if b then { c with slotB := s } else { c with slotA := s }

/-- An entry with a state of 16 Table 16.4; any other is invalid. -/
def entryValid (e : CommitEntry) : Bool := decide (e.state = csCONFIRMED) || decide (e.state = csPENDING) || decide (e.state = csTRIAL)

/-- The valid entry in an entry slot: CHECK and MARK stand (16 R454). -/
def slotEntry (q : Nat × CommitSlot) : Option (Nat × CommitEntry) :=
  let e := entryOfWords q.2.rec_.data
  if carReadable (commitAt q.1) 0x03 q.2.rec_ && decide (q.2.rec_.data.length = 12) && decide (q.2.mark = commitMARK) && entryValid e then some (q.1, e)
  else none

/-- The later of two entries by SEQ, compared serially. -/
def laterEntry (n : Option (Nat × CommitEntry)) (e : Nat × CommitEntry) : Option (Nat × CommitEntry) :=
  if n.all (fun k => decide ((e.2.seq - k.2.seq).toNat < 2147483648)) then some e else n

/-- The valid entry with the highest SEQ, and its entry slot. -/
def newestValid (c : Carrier) : Option (Nat × CommitEntry) := (c.commit.filterMap slotEntry).foldl laterEntry none

/-- The newest commit entry; without one, slot A is CONFIRMED. -/
def newestEntry (c : Carrier) : CommitEntry := ((newestValid c).map (·.2)).getD commitDefault

/-- Where the next entry goes: the first erased entry slot after the newest in its block; else the next block, erased first. -/
def commitPlace (c : Carrier) : Nat × Bool :=
  match newestValid c with
  | none => (0, true)
  | some p =>
    match (numsFrom (p.1 + 1) (commitBlock - 1 - p.1 % commitBlock)).find? (fun i => !c.commit.any (fun q => decide (q.1 = i))) with
    | some i => (i, false)
    | none => ((p.1 / commitBlock + 1) % 4 * commitBlock, true)

/-- Write a commit entry with SEQ after the newest: header, data, CHECK, then MARK (16 R454). -/
def writeEntry (e : CommitEntry) (c : Carrier) : Carrier :=
  let seq : Word := match newestValid c with
    | none => 0
    | some n => n.2.seq + 1
  let p := commitPlace c
  let left := if p.2 then c.commit.filter (fun q => decide (q.1 / commitBlock ≠ p.1 / commitBlock)) else c.commit
  { c with commit := putA commitErased p.1 { rec_ := carSeal (commitAt p.1) 0x03 (entryWords { e with seq := seq }), mark := commitMARK } left }

/-- The active slot of the newest entry: PENDING names the staged slot, so the other is active. -/
def activeSlotB (c : Carrier) : Bool :=
  let e := newestEntry c
  if e.state = csPENDING then !e.slotB else e.slotB

/-- Items that stand newer in one area only are rewritten into the other (16 R458), in its format. `newFormat`: that of the trial BRIDLE. -/
def reconcileAreas (newFormat : Byte) (c : Carrier) : Carrier :=
  if !c.newArea then c
  else
    let copy := fun (src : List PdRec) (f : Byte) (dst : List PdRec) =>
      (pdItems src).foldl (fun l i =>
        match pdNewest src i, pdNewest l i with
        | some r, some q => if q.generation.toNat < r.generation.toNat then l ++ [{ r with format := f.setWidth 16 }] else l
        | some r, none => l ++ [{ r with format := f.setWidth 16 }]
        | none, _ => l) dst
    { c with areaOld := copy c.areaNew c.pdFormat c.areaOld, areaNew := copy c.areaOld newFormat c.areaNew }

/-- The rewrite of R459: the old-format area is erased and rewritten in the format of the active BRIDLE, from the new-format area where that is in
use. -/
def rewriteAreas (s : SlotImg) (c : Carrier) : Carrier :=
  if c.pdFormat = slotPdFormat s then { c with newArea := false }
  else
    let src := if c.newArea then c.areaNew else c.areaOld
    { c with pdFormat := slotPdFormat s, newArea := false,
             areaOld := (pdItems src).filterMap (fun i => (pdNewest src i).map (fun r => { r with format := (slotPdFormat s).setWidth 16 })) }

/-- Write an item: a record with the next GENERATION in the old-format area first, then in the new-format area where that is in use (16 R458, 17
R474). -/
def pdWrite (newFormat : Byte) (item : BitVec 16) (v : Word) (c : Carrier) : Carrier :=
  let gen := fun (l : List PdRec) => ((pdNewest l item).map (fun r => r.generation.toNat)).getD 0
  let g : Word := BitVec.ofNat 32 (max (gen c.areaOld) (gen c.areaNew) + 1)
  { c with areaOld := c.areaOld ++ [{ format := c.pdFormat.setWidth 16, item := item, generation := g, value := v }],
           areaNew := if c.newArea then c.areaNew ++ [{ format := newFormat.setWidth 16, item := item, generation := g, value := v }] else c.areaNew }

/-- An item as the areas hold it: the newer record of the two. -/
def pdRead (c : Carrier) (item : BitVec 16) : Option Word :=
  match pdNewest c.areaOld item, pdNewest c.areaNew item with
  | some a, some b => some (if a.generation.toNat < b.generation.toNat then b.value else a.value)
  | some a, none => some a.value
  | none, some b => some b.value
  | none, none => none

/-! ## The record key and the version record (14 R421; 16 R452, R453) -/

/-- The record key: KDF of the device key and "DZREC-01", which for 256 bits is one SM3 over both and a counter of 1 (GB/T 32918.4). -/
def recordKey : BitVec 256 :=
  sm3 (bytes256 Config.deviceKey ++ [0x44, 0x5A, 0x52, 0x45, 0x43, 0x2D, 0x30, 0x31] ++ [0, 0, 0, 1])

/-- A copy of the version record (16 Table 16.2): MAGIC, GENERATION, CONF_VER by part, MAC. -/
structure VerCopy where
  magic : BitVec 16
  generation : BitVec 16
  conf : List Word
  mac : BitVec 256
  deriving DecidableEq, Repr

/-- Words U0 to U5. -/
def verWords (v : VerCopy) : List Word := (v.magic ++ v.generation : BitVec 32) :: (numsFrom 0 5).map (fun k => v.conf.getD k 0)
/-- MAC of a copy under a record key. -/
def verMac (key : BitVec 256) (v : VerCopy) : BitVec 256 := hmacSm3 key ((verWords v).flatMap leBytes)

/-- The two copies of the version record, and the fuses: 1,024 × part + step, two fuses each. -/
structure VersionSt where
  copy0 : Option VerCopy
  copy1 : Option VerCopy
  fuses : List (Nat × BitVec 2)
  deriving DecidableEq, Repr

def versionReset : VersionSt := { copy0 := none, copy1 := none, fuses := [] }

/-- A valid copy, with the record key that PD2 holds. -/
def verValid (key : Option (BitVec 256)) (v : VerCopy) : Bool := decide (v.magic = 0xA7E5) && key.any (fun k => decide (v.mac = verMac k v))

/-- The copy used, and which: the valid one with the higher GENERATION, compared serially. -/
def verInUse (key : Option (BitVec 256)) (vs : VersionSt) : Option (Bool × VerCopy) :=
  match vs.copy0.filter (verValid key), vs.copy1.filter (verValid key) with
  | some a, some b =>
    if a.generation ≠ b.generation && decide ((b.generation - a.generation).toNat < 32768) then some (true, b) else some (false, a)
  | some a, none => some (false, a)
  | none, some b => some (true, b)
  | none, none => none

/-- CONF_VER of a part; 0 without a valid copy. -/
def confVer (key : Option (BitVec 256)) (vs : VersionSt) (k : Nat) : Word := ((verInUse key vs).map (fun p => p.2.conf.getD k 0)).getD 0

/-- EPOCH of a VERSION. -/
def epochOf (v : Word) : Nat := (v.extractLsb' 22 10).toNat

/-- The fused epoch of a part: its blown steps, a step with either fuse blown among them. -/
def fusedEpoch (vs : VersionSt) (k : Nat) : Nat := (vs.fuses.filter (fun p => decide (p.1 / 1024 = k) && decide (p.2 ≠ 0))).length

/-- Every half-blown step is completed (16 R453). -/
def completeFuses (m : List (Nat × BitVec 2)) : List (Nat × BitVec 2) := mapA 0 (fun _ v => if v = 0 then 0 else 3) m

/-- Steps 1 to `n` of a part are blown. -/
def blowFuses (k n : Nat) (m : List (Nat × BitVec 2)) : List (Nat × BitVec 2) :=
  (numsFrom 1 (min n 1023)).foldl (fun m i => putA 0 (1024 * k + i) 3 m) m

/-- The version tests of a part (16 R453). -/
def versionOk (key : Option (BitVec 256)) (vs : VersionSt) (k : Nat) (v : Word) : Bool :=
  decide ((confVer key vs k).toNat ≤ v.toNat) && decide (fusedEpoch vs k ≤ epochOf v)

/-- Raise the version record and the fuses to a slot's parts (16 R461). A record that changes goes to the copy not in use, with its GENERATION
one higher; the first goes to copy 0 with GENERATION 1 (log entry 67). -/
def raiseVersions (key : BitVec 256) (s : SlotImg) (vs : VersionSt) : VersionSt :=
  let u := verInUse (some key) vs
  let old := fun (k : Nat) => confVer (some key) vs k
  let conf := (numsFrom 0 5).map (fun k => if (old k).toNat < (partVersion s k).toNat then partVersion s k else old k)
  let v : VerCopy := { magic := 0xA7E5, generation := ((u.map (fun p => p.2.generation)).getD 0) + 1, conf := conf, mac := 0 }
  let w := { v with mac := verMac key v }
  let vs1 := if u.any (fun p => decide ((numsFrom 0 5).map (fun k => p.2.conf.getD k 0) = conf)) then vs
             else if u.any (fun p => !p.1) then { vs with copy1 := some w } else { vs with copy0 := some w }
  { vs1 with fuses := (numsFrom 0 5).foldl (fun m k => blowFuses k (epochOf (partVersion s k)) m) vs1.fuses }

/-- Why a slot fails R451. -/
inductive SlotFail where
  | carrier | manifest | version
  deriving DecidableEq, Repr

/-- The checks of R451 in order; none: the slot is valid. -/
def slotFails (key : Option (BitVec 256)) (vs : VersionSt) (station : BitVec 12) (b : Bool) (s : SlotImg) : Option SlotFail :=
  if !manifestOk b s || !partsPlaced s then some .carrier
  else if !manifestSigned station s then some .manifest
  else if (numsFrom 0 5).any (fun k => !versionOk key vs k (partVersion s k)) then some .version
  else none

/-! ## The shutdown BIST record (14 Table 14.4) -/

/-- The record as the tail memory holds it. `results`: M12[8:0]; reserved words are 0. -/
structure BistRecord where
  m0 : Word
  aoSec : Word
  cycle : Word
  count : Word
  fwDigest : BitVec 256
  results : BitVec 9
  mac : BitVec 256
  deriving DecidableEq, Repr

/-- MAGIC, FORMAT and the reserved byte of M0. -/
def bistM0 : Word := 0x5B1D0100

/-- Words M0 to M23. -/
def bistWords (r : BistRecord) : List Word :=
  [r.m0, r.aoSec, r.cycle, r.count] ++ digestWords r.fwDigest ++ [r.results.setWidth 32] ++ List.replicate 11 0

/-- MAC of the record under a record key. -/
def bistMac (key : BitVec 256) (r : BistRecord) : BitVec 256 := hmacSm3 key ((bistWords r).flatMap leBytes)

/-- MAGIC and FORMAT stand and the MAC matches under the key that PD2 holds. -/
def bistGenuine (key : Option (BitVec 256)) (r : BistRecord) : Bool :=
  decide (r.m0.extractLsb' 8 24 = 0x5B1D01) && key.any (fun k => decide (r.mac = bistMac k r))

end Sys2Proof.Machine
end

