-- ==== Sys2Proof/Machine/Links.lean ====
section
/-!
DEFINITION. Afno links (09): frames, telegrams, their codes, sending and its credit, the receive tests and link states.
-/

namespace Sys2Proof.Machine

/-! ## Frames (09 R288) -/

/-- The UDP checksum of a frame: 0, valid, or neither. -/
inductive UdpSum where
  | zero | valid | wrong
  deriving DecidableEq, Repr

/-- What R288 tests and sets in a frame: Ethernet II; the 802.1Q tag with VLAN ID and priority code point; IPv4, its options, a
fragment, DF; UDP, its destination port and its checksum. -/
structure Frame where
  ethernetII : Bool
  tag : Option (BitVec 12 × BitVec 3)
  ipv4 : Bool
  options : Bool
  fragment : Bool
  df : Bool
  udp : Bool
  udpPort : BitVec 16
  checksum : UdpSum
  deriving DecidableEq, Repr

/-- An untagged frame to the default UDP port. -/
def framePlain : Frame :=
  { ethernetII := true, tag := none, ipv4 := true, options := false, fragment := false, df := true, udp := true,
    udpPort := 41820, checksum := .valid }

/-- The record of a port. -/
def partPort (p : StationPart) (q : Port) : PortRec := getA portUnused p.ports (portIndex q)

/-- A frame of R288 on a port. -/
def frameOk (p : StationPart) (q : Port) (f : Frame) : Bool :=
  let r := partPort p q
  f.ethernetII && (match f.tag with
      | none => true
      | some v => r.vlanEn && decide (v.1 = r.vlan)) &&
    f.ipv4 && !f.options && !f.fragment && f.udp && decide (f.checksum ≠ .wrong) &&
    (validLinks p).any (fun n => (linkPorts (linkOf p n)).contains q && decide (effUdpPort (linkOf p n) = f.udpPort))

/-- The frame in which a telegram of a link leaves a port: tagged where the port is, PCP 6 for class S and 2 for class D, DF set, a
valid checksum. -/
def sentFrame (p : StationPart) (q : Port) (n : Nat) (s : Bool) : Frame :=
  let r := partPort p q
  { framePlain with tag := if r.vlanEn then some (r.vlan, if s then 6 else 2) else none, udpPort := effUdpPort (linkOf p n) }

/-! ## Telegrams (09 Table 9.4) -/

/-- A telegram: header words H0 to H7, payload words, safety code, MAC, its size in bytes as received, and its frame. -/
structure Tel where
  h0 : Word
  h1 : Word
  h2 : Word
  h3 : Word
  h4 : Word
  h5 : Word
  h6 : Word
  h7 : Word
  payload : List Word
  code : Word
  mac : BitVec 128
  size : Nat
  frame : Frame := framePlain
  deriving DecidableEq, Repr

def telVersion (t : Tel) : Nat := (t.h0.extractLsb' 24 8).toNat
def telType (t : Tel) : Nat := (t.h0.extractLsb' 16 8).toNat
def telRegion (t : Tel) : Nat := (t.h0.extractLsb' 12 4).toNat
def telHasMac (t : Tel) : Bool := bitOf t.h0 11
def telKeyId (t : Tel) : Bool := bitOf t.h0 10
def telEchoValid (t : Tel) : Bool := bitOf t.h0 9
def telSafe (t : Tel) : Bool := bitOf t.h0 8
def telDest (t : Tel) : BitVec 18 := t.h1.extractLsb' 0 18
def telSrc (t : Tel) : BitVec 18 := t.h2.extractLsb' 0 18
def telPayLen (t : Tel) : Nat := (t.h7.extractLsb' 16 16).toNat
def telCredit (t : Tel) : BitVec 16 := t.h7.extractLsb' 0 16

def tyIDLE : Nat := 0x00
def tyAPP : Nat := 0x01
def tyCELLS : Nat := 0x02
def tyTERR : Nat := 0x03
def tyFIELD : Nat := 0x04
def tyHEART : Nat := 0x05
def tyTIME : Nat := 0x10
def tyDIAG : Nat := 0x11
def tyTRANSFER : Nat := 0x12

/-- Class S types; class D types. -/
def isClassS (ty : Nat) : Bool := ty ≤ 5
def isClassD (ty : Nat) : Bool := ty = tyTIME || ty = tyDIAG || ty = tyTRANSFER

/-- Header words in order. -/
def telHeader (t : Tel) : List Word := [t.h0, t.h1, t.h2, t.h3, t.h4, t.h5, t.h6, t.h7]

/-- The folded value V of 09 R296. -/
def telV (dest src : BitVec 18) (seq : Word) : BitVec 64 :=
  (dest.setWidth 64 <<< 46) ||| (src.setWidth 64 <<< 28) ||| (seq.extractLsb' 0 28).setWidth 64

/-- The safety code of a header and payload (09 R296). -/
def safetyCode (v : BitVec 64) (t : Tel) : Word :=
  crc32k (beBytes (v.extractLsb' 32 32) ++ beBytes (v.extractLsb' 0 32) ++ (telHeader t).flatMap beBytes ++
    t.payload.flatMap beBytes)

/-- The MAC of a telegram under a key: the first 16 bytes of HMAC-SM3 (09 R297). -/
def telMac (key : BitVec 256) (t : Tel) : BitVec 128 :=
  (hmacSm3 key ((telHeader t ++ t.payload ++ [t.code]).flatMap beBytes)).extractLsb' 128 128

/-! ## State -/

/-- State of a link (09 Table 9.10). -/
inductive LinkState where
  | down | up | lost
  deriving DecidableEq, Repr

def linkStateCode : LinkState → BitVec 2
  | .down => 0
  | .up => 1
  | .lost => 2

/-- One link. Times are on the millisecond count. -/
structure LinkSt where
  state : LinkState
  lastSeqS : Word
  lastSeqD : Word
  /-- last_accept of class S and of class D, and of class S at the latest SAMPLE. -/
  acceptS : Nat
  acceptD : Nat
  acceptPrev : Nat
  everS : Bool
  taken : Word
  takenAny : Bool
  creditIn : BitVec 16
  seqS : Word
  seqD : Word
  echo : Option Word
  accRun : Nat
  accNow : Bool
  lastA : Nat
  lastB : Nat
  netDownA : Bool
  netDownB : Bool
  peerSafe : Bool
  accepted : Nat
  /-- Discards by cause (09 Table 9.7), and the latest. -/
  discards : List (Nat × Nat)
  lastCause : BitVec 4
  deriving DecidableEq, Repr

def linkStReset : LinkSt :=
  { state := .down, lastSeqS := 0, lastSeqD := 0, acceptS := 0, acceptD := 0, acceptPrev := 0, everS := false, taken := 0, takenAny := false, creditIn := 0,
    seqS := 0, seqD := 0, echo := none, accRun := 0, accNow := false, lastA := 0, lastB := 0, netDownA := false,
    netDownB := false, peerSafe := false, accepted := 0, discards := [], lastCause := 0 }

/-- A packet descriptor (10 R316): its length slot and buffer index; and what stands in the buffer: a telegram with its link. -/
structure LinkTel where
  len : BitVec 16
  buf : Nat
  link : Nat
  tel : Tel
  deriving DecidableEq, Repr

/-- The descriptor whose bits are all 0. -/
def telZero : Tel :=
  { h0 := 0, h1 := 0, h2 := 0, h3 := 0, h4 := 0, h5 := 0, h6 := 0, h7 := 0, payload := [], code := 0, mac := 0, size := 0 }
def linkTelZero : LinkTel := { len := 0, buf := 0, link := 0, tel := telZero }

/-- The lowest packet buffer that no descriptor of a spool holds. -/
def freeBuf (s : Spool LinkTel) : Nat :=
  ((numsFrom 0 (s.items.length + 1)).find? (fun k => s.items.all (fun i => i.buf ≠ k))).getD 0

/-- A packet is opened, written and closed (10 R316). -/
def spPacket (wm n : Nat) (t : Tel) (s : Spool LinkTel) : Spool LinkTel :=
  spClose t.size (fun b => { len := BitVec.ofNat 16 t.size, buf := b, link := n, tel := t }) (spData t.size (spOpen wm (freeBuf s) s))

/-- A stalled write is accepted once a slot is free, in a buffer that is then free (10 R318). -/
def acceptTel (depth wm : Nat) (s : Spool LinkTel) : Spool LinkTel :=
  spAccept depth wm { s with stalled := match s.stalled with
    | [] => []
    | x :: t => { x with buf := freeBuf s } :: t }

/-- Ports and links of the module. `arpAt`: time of each port's latest resolving, + 1; `portDiscards`: discards before a link is
known, keyed port × 16 + cause; `units`: check units of the MACs, link TX by port and 4 + port for link RX. `up`: ports that have come up; `resolved`: peers whose hardware address is known, keyed
link × 4 + port; `keys`: link keys in PD2, keyed link × 2 + KEY_ID; `clock`: the link clock runs. -/
structure LinksSt where
  links : List (Nat × LinkSt)
  up : List (Nat × Bool)
  clock : Bool
  resolved : List (Nat × Bool)
  asked : List (Nat × Bool)
  answered : Nat
  arpAt : List (Nat × Nat)
  keys : List (Nat × BitVec 256)
  txS : List (Nat × Spool LinkTel)
  txD : List (Nat × Spool LinkTel)
  rxS : List (Nat × Spool LinkTel)
  /-- RX.UTC: the value shown since the last SAMPLE and the newest accepted. -/
  utcShown : BitVec 64
  utcNew : BitVec 64
  portDiscards : List (Nat × Nat)
  units : List (Nat × CheckUnit)
  unresolved : Nat
  staleTx : Nat
  txExcess : Nat
  deriving DecidableEq, Repr

def linksReset : LinksSt :=
  { links := [], up := [], clock := false, resolved := [], asked := [], answered := 0, arpAt := [], keys := [], txS := [], txD := [],
    rxS := [], utcShown := 0, utcNew := 0, portDiscards := [], units := [], unresolved := 0, staleTx := 0, txExcess := 0 }

def linkSt (x : LinksSt) (n : Nat) : LinkSt := getA linkStReset x.links n
def putLinkSt (n : Nat) (l : LinkSt) (x : LinksSt) : LinksSt := { x with links := putA linkStReset n l x.links }
def modLinkSt (n : Nat) (f : LinkSt → LinkSt) (x : LinksSt) : LinksSt := putLinkSt n (f (linkSt x n)) x
def spoolTxS (x : LinksSt) (p : Port) : Spool LinkTel := getA (spEmpty linkTelZero) x.txS (portIndex p)
def spoolTxD (x : LinksSt) (p : Port) : Spool LinkTel := getA (spEmpty linkTelZero) x.txD (portIndex p)
def spoolRxS (x : LinksSt) (p : Port) : Spool LinkTel := getA (spEmpty linkTelZero) x.rxS (portIndex p)
def putTxS (p : Port) (s : Spool LinkTel) (x : LinksSt) : LinksSt := { x with txS := putA (spEmpty linkTelZero) (portIndex p) s x.txS }
def putTxD (p : Port) (s : Spool LinkTel) (x : LinksSt) : LinksSt := { x with txD := putA (spEmpty linkTelZero) (portIndex p) s x.txD }
def putRxS (p : Port) (s : Spool LinkTel) (x : LinksSt) : LinksSt := { x with rxS := putA (spEmpty linkTelZero) (portIndex p) s x.rxS }
def txSDepth : Nat := 32
def txSWm : Nat := 24
def txDDepth : Nat := 16
def txDWm : Nat := 12
def rxSDepth : Nat := 32
def rxSWm : Nat := 24

/-- What the links take from the module: the STATION part, its address, the millisecond count, the cycle number, P in ms,
whether it is in SAFE or SHUTDOWN (SAFE set), and the tail record unit. -/
structure LinkCx where
  part : StationPart
  addr : BitVec 18
  ms : Nat
  cycle : Word
  safe : Bool
  deriving DecidableEq, Repr

/-- The millisecond count as a 32-bit word. -/
def msWord (ms : Nat) : Word := BitVec.ofNat 32 ms

/-! ## Building and sending (09 R295, R299 to R303) -/

/-- Every spool empty (10 R315); what it has counted for its host stays. -/
def spoolsCleared (m : List (Nat × Spool LinkTel)) : List (Nat × Spool LinkTel) :=
  mapA (spEmpty linkTelZero) (fun _ p => { spEmpty linkTelZero with faults := p.faults }) m

/-- Links at start: SEQ from the count, CREDIT_IN from the first SEQ and PEER_SHARE (09 R295, R303). -/
def startLinks (p : StationPart) (ms : Nat) (keys : List (Nat × BitVec 256)) (x : LinksSt) : LinksSt :=
  let seq : Word := BitVec.ofNat 32 (16 * ms)
  let ls := (validLinks p).foldl (fun m n =>
    putA linkStReset n { linkStReset with seqS := seq, seqD := seq, acceptS := ms, lastA := ms, lastB := ms,
                                          creditIn := seq.extractLsb' 0 16 + BitVec.ofNat 16 (effPeerShare (linkOf p n)) } m) []
  { linksReset with txS := spoolsCleared x.txS, txD := spoolsCleared x.txD, rxS := spoolsCleared x.rxS, links := ls, keys := keys, up := x.up, clock := x.clock, arpAt := x.arpAt, units := x.units }

/-- The telegram of one record or IDLE on a link, and the link with its SEQ advanced. -/
def buildTel (cx : LinkCx) (x : LinksSt) (n ty region : Nat) (cycle : Word) (payload : List Word) : Tel × LinkSt :=
  let l := linkSt x n
  let e := linkOf cx.part n
  let s := isClassS ty
  let seq := if s then l.seqS else l.seqD
  let credit : BitVec 16 := l.taken.extractLsb' 0 16 + BitVec.ofNat 16 (effShare e)
  let h0 : Word := (0x01#8 ++ BitVec.ofNat 8 ty ++ BitVec.ofNat 4 (if s && ty ≠ tyIDLE then region else 0) ++ b2v e.protect ++
    b2v (e.protect && e.keyId) ++ b2v l.echo.isSome ++ b2v cx.safe ++ 0#8 : BitVec 32)
  let t0 : Tel :=
    { h0 := h0, h1 := e.peer.setWidth 32, h2 := cx.addr.setWidth 32, h3 := seq, h4 := msWord cx.ms, h5 := l.echo.getD 0,
      h6 := cycle, h7 := (BitVec.ofNat 16 (4 * payload.length) ++ credit : BitVec 32), payload := payload, code := 0, mac := 0,
      size := 36 + 4 * payload.length + (if e.protect then 16 else 0) }
  let t1 := { t0 with code := safetyCode (telV e.peer cx.addr seq) t0 }
  let t2 := if e.protect then { t1 with mac := telMac (getA 0 x.keys (2 * n + (if e.keyId then 1 else 0))) t1 } else t1
  (t2, if s then { l with seqS := l.seqS + 1 } else { l with seqD := l.seqD + 1 })

/-- The check unit of a MAC has fed V, header and payload of a telegram (09 R311). -/
def feedUnit (k : Nat) (v : BitVec 64) (t : Tel) (x : LinksSt) : LinksSt :=
  let fed := cuTransfer 1 [v.extractLsb' 32 32, v.extractLsb' 0 32] ((telHeader t).flatMap beBytes ++ t.payload.flatMap beBytes)
    (getA checkUnitReset x.units k)
  { x with units := putA checkUnitReset k fed x.units }

/-- Link TX of a port has fed a telegram that leaves, for its safety code. -/
def feedTx (q : Port) (t : Tel) (x : LinksSt) : LinksSt := feedUnit (portIndex q) (telV (telDest t) (telSrc t) t.h3) t x

/-- Queue a class S telegram on every port of its link. A next hop without a resolved hardware address discards it (09 R288). -/
def queueTel (cx : LinkCx) (n ty region : Nat) (cycle : Word) (payload : List Word) (x : LinksSt) : LinksSt :=
  let b := buildTel cx x n ty region cycle payload
  let x1 := putLinkSt n b.2 x
  (linkPorts (linkOf cx.part n)).foldl (fun x p =>
    let s := spoolTxS x p
    if !getA false x.resolved (4 * n + portIndex p) then { x with unresolved := x.unresolved + 1 }
    else if spFull txSDepth s then putTxS p (spFault { s with overflow := true }) x
    else
      let t := { b.1 with frame := sentFrame cx.part p n true }
      putTxS p (spPacket txSWm n t s) x) x1

/-- Queue a class D telegram on every port of its link; at a full spool its producer stalls (10 R318). -/
def queueTelD (cx : LinkCx) (n ty : Nat) (cycle : Word) (payload : List Word) (x : LinksSt) : LinksSt :=
  let b := buildTel cx x n ty 0 cycle payload
  let x1 := putLinkSt n b.2 x
  (linkPorts (linkOf cx.part n)).foldl (fun x p =>
    let s := spoolTxD x p
    if !getA false x.resolved (4 * n + portIndex p) then { x with unresolved := x.unresolved + 1 }
    else
      let t := { b.1 with frame := sentFrame cx.part p n false }
      if spFull txDDepth s || !s.stalled.isEmpty || s.openPkt.isSome then
        putTxD p { s with stalled := s.stalled ++ [{ len := BitVec.ofNat 16 t.size, buf := 0, link := n, tel := t }] } x
      else putTxD p (spPacket txDWm n t s) x) x1

/-- Class S telegrams waiting from the previous RELEASE are discarded and counted (09 R299, 10 R325). -/
def dropStale (x : LinksSt) : LinksSt :=
  allPorts.foldl (fun x p =>
    let s := spoolTxS x p
    if s.items.isEmpty then x else { putTxS p (spDrop s) x with staleTx := x.staleTx + s.items.length }) x

/-- Signed difference of 16-bit sequence numbers is above 0. -/
def serial16Pos (a b : BitVec 16) : Bool := decide (a ≠ b) && decide ((a - b).toNat < 2 ^ 15)

/-- A telegram holds credit (09 R303). -/
def hasCredit (x : LinksSt) (t : LinkTel) : Bool :=
  serial16Pos (linkSt x t.link).creditIn (t.tel.h3.extractLsb' 0 16)

/-- A payload record word (09 Table 9.6). -/
structure PayRec where
  typ : Nat
  link : Nat
  region : Nat
  data : List Word
  deriving DecidableEq, Repr

/-- The records of a payload up to the first malformed one; and whether one was malformed. `ok`: the link is valid. -/
def payRecords (ok : Nat → Bool) : Nat → List Word → List PayRec × Bool
  | 0, _ => ([], false)
  | _, [] => ([], false)
  | f + 1, w :: t =>
    let len := (w.extractLsb' 0 12).toNat
    let link := (w.extractLsb' 18 6).toNat
    let ty := (w.extractLsb' 24 8).toNat
    if w.extractLsb' 12 2 ≠ 0 || !ok link || len % 4 ≠ 0 || 1016 < len || t.length < len / 4 || ty = 0 || 5 < ty then ([], true)
    else
      let r := payRecords ok f (t.drop (len / 4))
      ({ typ := ty, link := link, region := (w.extractLsb' 14 4).toNat, data := t.take (len / 4) } :: r.1, r.2)

/-- The record word and data of a record. -/
def recWords (r : PayRec) : List Word :=
  (BitVec.ofNat 8 r.typ ++ BitVec.ofNat 6 r.link ++ BitVec.ofNat 4 r.region ++ 0#2 ++
    BitVec.ofNat 12 (4 * r.data.length) : BitVec 32) :: r.data

/-! ## Receiving (09 R301, R305, R308) -/

/-- Discard causes (09 Table 9.7). -/
def dcFRAME : BitVec 4 := 1
def dcFORMAT : BitVec 4 := 2
def dcSOURCE : BitVec 4 := 3
def dcDEST : BitVec 4 := 4
def dcCODE : BitVec 4 := 5
def dcAUTH : BitVec 4 := 6
def dcTYPE : BitVec 4 := 7
def dcDUP : BitVec 4 := 8
def dcSEQ : BitVec 4 := 9
def dcAGE : BitVec 4 := 0xA
def dcCREDIT : BitVec 4 := 0xB
def dcFULL : BitVec 4 := 0xC
def dcCYCLE : BitVec 4 := 0xD

/-- Age of a telegram on the receiver's count; none where it fails every age test (09 R301). -/
def telAge (ms : Nat) (t : Tel) : Option Nat :=
  if !telEchoValid t then none
  else
    let a := (msWord ms - t.h5).toNat
    if 2 ^ 31 ≤ a then none else some a

/-- The telegram is not older than a limit. -/
def ageWithin (ms limit : Nat) (t : Tel) : Bool :=
  match telAge ms t with
  | none => false
  | some a => decide (a ≤ limit)

/-- The link of a telegram on a port. -/
def telLink (p : StationPart) (q : Port) (t : Tel) : Option Nat :=
  (validLinks p).find? (fun n => decide ((linkOf p n).peer = telSrc t) && (linkPorts (linkOf p n)).contains q)

/-- Format tests of R305. -/
def telFormatOk (t : Tel) : Bool :=
  decide (telVersion t = 1) && decide (t.h0.extractLsb' 0 8 = 0) && decide (t.h1.extractLsb' 18 14 = 0) &&
    decide (t.h2.extractLsb' 18 14 = 0) && decide (t.size = 36 + telPayLen t + (if telHasMac t then 16 else 0)) &&
    decide (telPayLen t % 4 = 0) && decide (telPayLen t ≤ 1016) && decide (t.payload.length = telPayLen t / 4)

/-- Where a received telegram ends: discarded with a cause (and its link, where known), or accepted on a link. `echoed`: its
TS became the echo candidate before the discard. -/
inductive RxResult where
  | discard (link : Option Nat) (cause : BitVec 4) (echoed : Bool)
  | accept (link : Nat)
  deriving DecidableEq, Repr

/-- The tests of R305 in order. -/
def rxTest (cx : LinkCx) (q : Port) (t : Tel) (x : LinksSt) : RxResult :=
  if !frameOk cx.part q t.frame then .discard none dcFRAME false
  else if !telFormatOk t then .discard none dcFORMAT false
  else
    match telLink cx.part q t with
    | none => .discard none dcSOURCE false
    | some n =>
      let e := linkOf cx.part n
      let l := linkSt x n
      let ty := telType t
      let key := getA 0 x.keys (2 * n + (if telKeyId t then 1 else 0))
      let d := t.h3 - (if isClassS ty then l.lastSeqS else l.lastSeqD)
      let up := decide (l.state = .up)
      if telDest t ≠ cx.addr then .discard (some n) dcDEST false
      else if telHasMac t != e.protect then .discard (some n) dcFORMAT false
      else if t.code ≠ safetyCode (telV cx.addr e.peer t.h3) t then .discard (some n) dcCODE false
      else if telHasMac t && (!x.keys.any (fun p => decide (p.1 = 2 * n + (if telKeyId t then 1 else 0))) || telMac key t ≠ t.mac)
        then .discard (some n) dcAUTH false
      else if (!isClassS ty && !isClassD ty) || (ty = tyTIME && !e.timeSrc) then .discard (some n) dcTYPE false
      else if up && d = 0 then .discard (some n) dcDUP false
      else if up && 2 ^ 31 ≤ d.toNat then .discard (some n) dcSEQ false
      else if !ageWithin cx.ms (effTMax cx.part e) t then .discard (some n) dcAGE true
      else if isClassS ty && l.takenAny && effShare e < (t.h3 - l.taken).toNat && (t.h3 - l.taken).toNat < 2 ^ 31 then
        .discard (some n) dcCREDIT true
      else .accept n

/-- Per-network record of a copy that passed the codes on A or B (09 R307). -/
def noteNet (q : Port) (ms : Nat) (l : LinkSt) : LinkSt :=
  match q with
  | .a => { l with lastA := ms, netDownA := false }
  | .b => { l with lastB := ms, netDownB := false }
  | _ => l

/-- The tail record of a discard, for the causes that write one. -/
def discardRecord (q : Port) (n : Nat) (c : BitVec 4) : List LogReq :=
  if [dcCODE, dcAUTH, dcSEQ, dcAGE, dcCREDIT].contains c then
    [{ code := cdDISCARD, unit_ := 4, place := BitVec.ofNat 4 (portIndex q), index := BitVec.ofNat 8 n, data := c.setWidth 64 }]
  else []

/-- Count a discard on a link. -/
def countDiscard (n : Nat) (c : BitVec 4) (x : LinksSt) : LinksSt :=
  modLinkSt n (fun l => { l with discards := putA 0 c.toNat (getA 0 l.discards c.toNat + 1) l.discards, lastCause := c }) x

/-- Discards of a link, all causes. -/
def discardTotal (l : LinkSt) : Nat := (l.discards.map (·.2)).sum

/-- Count a discard before the link is known, by port and cause. -/
def countPort (q : Port) (c : BitVec 4) (x : LinksSt) : LinksSt :=
  let k := 16 * portIndex q + c.toNat
  { x with portDiscards := putA 0 k (getA 0 x.portDiscards k + 1) x.portDiscards }

/-- Link RX of a port has fed a telegram whose link is known and checked its safety code. -/
def feedRx (own : BitVec 18) (peer : BitVec 18) (q : Port) (t : Tel) (x : LinksSt) : LinksSt :=
  let y := feedUnit (4 + portIndex q) (telV own peer t.h3) t x
  { y with units := modA checkUnitReset (4 + portIndex q) (cuExpect t.code) y.units }

/-- What a copy that passed the codes and the sequence test leaves, whether or not it is placed: the echo candidate and the
network it came by. -/
def noteCopy (q : Port) (ms : Nat) (t : Tel) (l : LinkSt) : LinkSt := noteNet q ms { l with echo := some t.h4 }

/-- Accept on a link (09 R305): its last_seq and last_accept, CREDIT_IN of a class S telegram, and SAFE. -/
def acceptOn (ms : Nat) (t : Tel) (l : LinkSt) : LinkSt :=
  let l1 := { l with accepted := l.accepted + 1, peerSafe := telSafe t }
  if isClassS (telType t) then
    { l1 with lastSeqS := t.h3, acceptS := ms, everS := true, accNow := true, creditIn := telCredit t }
  else { l1 with lastSeqD := t.h3, acceptD := ms }
/-- Take a telegram from a port: the links, the tail records, and the link where it was accepted. A class S telegram enters
the RX spool of the port; one that finds it full is lost, and counts as not received (10 R319, Table 10.2). Its tail record is that of the published OVERFLOW (10 R328). -/
def receiveTel (cx : LinkCx) (q : Port) (t : Tel) (x : LinksSt) : LinksSt × List LogReq × Option Nat :=
  match rxTest cx q t x with
  | .discard none c _ => (countPort q c x, [], none)
  | .discard (some n) c echoed =>
    let x0 := if c = dcDEST || c = dcFORMAT then x else feedRx cx.addr (linkOf cx.part n).peer q t x
    let x1 := countDiscard n c x0
    let passed := echoed || c = dcDUP || c = dcSEQ
    let x2 := if passed then modLinkSt n (noteNet q cx.ms) x1 else x1
    (if echoed then modLinkSt n (fun l => { l with echo := some t.h4 }) x2 else x2, discardRecord q n c, none)
  | .accept n =>
    let x1 := modLinkSt n (noteCopy q cx.ms t) (feedRx cx.addr (linkOf cx.part n).peer q t x)
    let s := spoolRxS x1 q
    if !isClassS (telType t) then (modLinkSt n (acceptOn cx.ms t) x1, [], some n)
    else if spFull rxSDepth s then
      (putRxS q (spFault { s with overflow := true }) x1, [], none)
    else (putRxS q (spPacket rxSWm n t s) (modLinkSt n (acceptOn cx.ms t) x1), [], some n)

/-! ## Link states (09 R307) -/

/-- A link at SAMPLE: the next state, and whether it has just become LOST. `first`: milliseconds since the first boundary. -/
def linkStep (p : StationPart) (ms first : Nat) (n : Nat) (l : LinkSt) : LinkSt × Bool :=
  let loss := effTLoss p (linkOf p n)
  let run := if l.accNow then l.accRun + 1 else 0
  let l1 := { l with accRun := run, accNow := false, acceptPrev := l.acceptS }
  let lose := { l1 with state := .lost, echo := none }
  match l.state with
  | .down => if l.accNow then ({ l1 with state := .up }, false) else if loss ≤ first then (lose, true) else (l1, false)
  | .up => if l.acceptS + loss < ms then (lose, true) else (l1, false)
  | .lost => if 4 ≤ run then ({ l1 with state := .up }, false) else (l1, false)

/-- NET_DOWN of a link on A and B: one network silent for T_loss while the other delivers. -/
def netStep (p : StationPart) (ms n : Nat) (l : LinkSt) : LinkSt :=
  let loss := effTLoss p (linkOf p n)
  if (linkOf p n).ports = 1 then
    { l with netDownA := decide (l.lastA + loss < ms) && decide (ms ≤ l.lastB + loss),
             netDownB := decide (l.lastB + loss < ms) && decide (ms ≤ l.lastA + loss) }
  else l

end Sys2Proof.Machine
end

