-- ==== Sys2Proof/Machine/Tether.lean ====
section
/-!
DEFINITION. The tether (12): the HEART record, the flags of a module of a pair, comparison of digests and drive, takeover
conditions, and the state transfer: its blocks, passes and receiver.
-/

namespace Sys2Proof.Machine

/-! ## HEART (12 Table 12.3) -/

/-- A HEART record with the header CYCLE it came with. `standby`: STATE is 0b01; every other value reads as ACTIVE. -/
structure Heart where
  standby : Bool
  preferred : Bool
  claiming : Bool
  healthy : Bool
  synced : Bool
  inStep : Bool
  yieldReq : Bool
  yielded : Bool
  hoReq : Bool
  hoAck : Bool
  shadow : Nat
  hoCycle : Word
  image : BitVec 96
  digests : List (BitVec 64)
  cycle : Word
  deriving DecidableEq, Repr

/-- D0 and D1 of a record. -/
def heartD0 (h : Heart) : Word :=
  ((if h.standby then 1#2 else 2#2) ++ b2v h.preferred ++ b2v h.claiming ++ b2v h.healthy ++ b2v h.synced ++ b2v h.inStep ++
    b2v h.yieldReq ++ b2v h.yielded ++ b2v h.hoReq ++ b2v h.hoAck ++ 0#7 ++ BitVec.ofNat 6 h.shadow ++ 0#8 : BitVec 32)
def heartD1 (h : Heart) : Word := if h.hoAck then h.hoCycle else 0

/-- D2 to D36: the image and the sixteen digests, written by the bridle at RELEASE. -/
def heartFill (img : BitVec 96) (ds : List (BitVec 64)) : List Word :=
  [img.extractLsb' 0 32, img.extractLsb' 32 32, img.extractLsb' 64 32] ++
    (numsFrom 0 16).flatMap (fun r => [(ds.getD r 0).extractLsb' 0 32, (ds.getD r 0).extractLsb' 32 32])

/-- Data of a HEART record as region 0's supervisor appends it: D2 to D36 are 0. -/
def heartData (d0 d1 : Word) : List Word := d0 :: d1 :: List.replicate 35 0

/-- A received record. -/
def heartOf (cycle : Word) (ws : List Word) : Heart :=
  let d := ws.getD 0 0
  { standby := decide (d.extractLsb' 30 2 = 1), preferred := bitOf d 29, claiming := bitOf d 28, healthy := bitOf d 27,
    synced := bitOf d 26, inStep := bitOf d 25, yieldReq := bitOf d 24, yielded := bitOf d 23, hoReq := bitOf d 22,
    hoAck := bitOf d 21, shadow := (d.extractLsb' 8 6).toNat, hoCycle := ws.getD 1 0,
    image := share96 (ws.getD 2 0) (ws.getD 3 0) (ws.getD 4 0),
    digests := (numsFrom 0 16).map (fun r => ws.getD (6 + 2 * r) 0 ++ ws.getD (5 + 2 * r) 0), cycle := cycle }

/-! ## State -/

/-- What the active does in a transfer (12 R367). `next`: the blocks of the pass still to read, region × 205 + block. -/
inductive XferSend where
  | idle
  | passing (pass : Nat) (cycles : Nat) (next : List Nat)
  | finalSent (pass : Nat) (cycles : Nat)
  | finished (cycles : Nat)
  deriving DecidableEq, Repr

/-- What MODULE of a final pass carries (12 R367). -/
structure XferModule where
  cycle : Word
  active : Bool
  forces : List ForceEntry
  initDone : List Bool
  deriving DecidableEq, Repr

/-- What the receiver holds of a transfer: nothing asked, asked for and waiting for the first pass, receiving (cycles since its
first pass), or abandoned (cycles until the next). `got`: pass, ROUTES, MODULE and END of the final pass. -/
inductive XferRecv where
  | none
  | asked
  | receiving (cycles : Nat)
  | retry (cycles : Nat)
  deriving DecidableEq, Repr

/-- One boundary's own image and digests. -/
structure OwnVote where
  cycle : Word
  image : BitVec 96
  digests : List (BitVec 64)
  /-- IMAGE of the partner's HEART of the same cycle, once taken. -/
  partner : Option (BitVec 96)
  deriving DecidableEq, Repr

/-- The tether of a module of a pair. -/
structure TetherSt where
  heart : Option Heart
  heartNew : Bool
  missing : Nat
  /-- The latest telegram taken from the partner: none, or its SAFE bit; and an IDLE, a HEART ever taken. -/
  partnerSafe : Option Bool
  idleSeen : Bool
  synced : Bool
  inStep : Bool
  shadow : Nat
  /-- YIELD_REQ stands, with the cycles since it was first sent. -/
  yieldReq : Option Nat
  yieldDue : Bool
  yielded : Bool
  hoAsked : Bool
  /-- HANDOVER_CYCLE offered with HANDOVER_ACK. -/
  hoAck : Option Word
  /-- The former active of a handover, which re-claims at the boundary after n if the taker does not. -/
  hoGave : Option Word
  dualClaim : Bool
  claimOutFault : Bool
  claimLine : Bool
  /-- Milliseconds at which the conditions to record and to clear CLAIM_LINE began. -/
  lineSince : Option Nat
  lineOkSince : Option Nat
  partnerSilent : Bool
  prefAt : Option Nat
  /-- Results of the compared cycles, newest first: mismatch, and whether the images are equal (none: no HEART of the cycle). -/
  compared : List (Bool × Option Bool)
  digestRuns : List (Nat × Nat)
  own : List OwnVote
  /-- D0 and D1 of the record of a cycle. -/
  record : Option (Word × Word × Word)
  /-- Groups LOW at any time since the latest boundary. -/
  lowSeen : BitVec 8
  /-- Milliseconds at which negotiation began. -/
  negSince : Nat
  send : XferSend
  recv : XferRecv
  gotRoutes : Bool
  gotModule : Option XferModule
  gotEnd : Bool
  /-- Regions that a transfer has halted in each die (12 R367). -/
  held : Tri (BitVec 16)
  /-- The partner was lost during a transfer: the Own state row of Table 12.5 is waived (12 R375). -/
  waived : Bool
  deriving DecidableEq, Repr

def tetherReset : TetherSt :=
  { heart := none, heartNew := false, missing := 0, partnerSafe := none, idleSeen := false, synced := false, inStep := false,
    shadow := 0, yieldReq := none, yieldDue := false, yielded := false, hoAsked := false, hoAck := none,
    hoGave := none, dualClaim := false, claimOutFault := false, claimLine := false, lineSince := none, lineOkSince := none,
    partnerSilent := false, prefAt := none, compared := [], digestRuns := [], own := [], record := none, lowSeen := 0,
    negSince := 0, send := .idle, recv := .none, gotRoutes := false, gotModule := none, gotEnd := false,
    held := triAll 0, waived := false }

/-- Take a HEART: the newest counts for the interval if its CYCLE is newer (12 R362). -/
def takeHeart (h : Heart) (t : TetherSt) : TetherSt :=
  match t.heart with
  | some o => if serialAfter h.cycle o.cycle then { t with heart := some h, heartNew := true } else t
  | none => { t with heart := some h, heartNew := true }

/-- HEALTHY without its mode row (12 R368). `groupsOk`, `locksOk`: no group of a paralleled output is cut and none is locked
off. -/
def healthyFlags (degraded groupsOk locksOk : Bool) (t : TetherSt) : Bool :=
  t.synced && !degraded && groupsOk && locksOk && !t.claimOutFault && !t.claimLine && !t.yielded

/-- Count of the interval that a boundary ends (12 R362). -/
def heartInterval (t : TetherSt) : TetherSt :=
  if t.heartNew then { t with missing := 0, heartNew := false, partnerSilent := false } else { t with missing := t.missing + 1 }

/-- The own vote of a cycle, if it is still held. -/
def ownVoteOf (t : TetherSt) (k : Word) : Option OwnVote := t.own.find? (fun o => decide (o.cycle = k))

/-- A transfer is asked for: SYNCED and IN_STEP clear (12 R365). -/
def askTransfer (t : TetherSt) : TetherSt :=
  { t with synced := false, inStep := false, shadow := 0, digestRuns := [], compared := [], yieldReq := none, recv := .asked,
           gotRoutes := false, gotModule := none, gotEnd := false }

/-- SHADOW_COMPARE of one cycle's digests (12 R365): the state, and whether a resynchronisation is due. -/
def compareDigests (own partner : List (BitVec 64)) (t : TetherSt) : TetherSt × Bool :=
  let differs := (numsFrom 0 16).filter (fun r => own.getD r 0 ≠ partner.getD r 0)
  let runs := (numsFrom 0 16).foldl (fun m r =>
    putA 0 r (if differs.contains r then getA 0 t.digestRuns r + 1 else 0) m) []
  let sh := if differs.isEmpty then min 32 (t.shadow + 1) else 0
  ({ t with shadow := sh, inStep := t.inStep || decide (sh = 32), digestRuns := runs },
    runs.any (fun p => decide (16 ≤ p.2)))

/-! ## Transfer blocks (12 R366) -/

/-- Blocks of a region: 189 of region memory, 16 of cell records. -/
def memBlocks : Nat := 189
def regionBlocks : Nat := 205

/-- Words of a block of a region of a die. -/
def blockData (x : DieSt) (r b : Nat) : List Word :=
  if 184 ≤ b && b < 188 then
    (numsFrom 0 256).map (fun k =>
      let byte := fun (i : Nat) => supByte (reg x r).sup (1024 * (b - 184) + 4 * k + i)
      leWord (byte 0) (byte 1) (byte 2) (byte 3))
  else if b < memBlocks then (numsFrom 0 256).map (fun k => memWord (reg x r).mem (memDATA + 1024 * b + 4 * k))
  else
    let base := 256 * r + 16 * (b - memBlocks)
    (numsFrom 0 16).flatMap (fun k => let n := base + k; cellWords n (getCell x n) ++ [0])

/-- A timer from its word. -/
def timerOfWord (w : Word) : Timer := { tstate := w.extractLsb' 30 2, fresh := bitOf w 29, trem := w.extractLsb' 0 24 }

/-- A record from its words W0 to W14; CHECK is recomputed as it is written (02 R72). -/
def cellOfWords (ws : List Word) : CellRec :=
  let w := fun (k : Nat) => ws.getD k 0
  { cls := (w 0).extractLsb' 24 8, profile := (w 0).extractLsb' 16 3, occ := (w 1).extractLsb' 16 16, pos := (w 1).extractLsb' 0 16,
    lock := (w 2).extractLsb' 16 16, aspect := (w 2).extractLsb' 0 16, cmd := (w 3).extractLsb' 16 16,
    fault := (w 3).extractLsb' 0 16, owned := bitOf (w 4) 31, foreign := bitOf (w 4) 30, ownerModule := (w 4).extractLsb' 24 6,
    ownerRoute := (w 4).extractLsb' 0 13, mark0 := (w 5).extractLsb' 0 16, mark1 := (w 5).extractLsb' 16 16,
    mark2 := (w 6).extractLsb' 0 16, mark3 := (w 6).extractLsb' 16 16, t0 := timerOfWord (w 7), t1 := timerOfWord (w 8),
    t2 := timerOfWord (w 9), t3 := timerOfWord (w 10), port0 := (w 11).extractLsb' 0 16, port1 := (w 11).extractLsb' 16 16,
    port2 := (w 12).extractLsb' 0 16, port3 := (w 12).extractLsb' 16 16, bind := maskBind ((w 0).extractLsb' 24 8) (w 13), app := (w 14).extractLsb' 16 16,
    ext := (w 14).extractLsb' 0 16, checkErr := 0, cleanOnce := false }

/-- Write half `h` of a block into a die: 512 bytes. -/
def putBlockHalf (r b : Nat) (h : Bool) (ws : List Word) (x : DieSt) : DieSt :=
  let off := if h then 1 else 0
  if b < memBlocks then
    modReg x r (fun g => { g with mem := memPutWords g.mem (memDATA + 1024 * b + 512 * off) (ws.take 128) })
  else
    (numsFrom 0 8).foldl (fun y k =>
      setCell y (256 * r + 16 * (b - memBlocks) + 8 * off + k) (cellOfWords ((ws.drop (16 * k)).take 15))) x

/-- A route entry from its words E0 to E3 (03 Table 3.6). -/
def routeOfWords (ws : List Word) : RouteEntry :=
  let w := fun (k : Nat) => ws.getD k 0
  { state := (w 0).extractLsb' 24 8, alt := (w 0).extractLsb' 22 2, altValid := bitOf (w 0) 21, origin := (w 0).extractLsb' 19 2,
    routeId := (w 0).extractLsb' 0 13, key := w 1, progress := (w 2).extractLsb' 26 6, retry := (w 2).extractLsb' 21 5,
    reason := (w 2).extractLsb' 8 8, wasProven := bitOf (w 2) 7, replaced := bitOf (w 2) 6, ovlTimer := bitOf (w 2) 5,
    refreshed := bitOf (w 2) 4, flankOpen := (w 3).extractLsb' 17 15, wait := (w 3).extractLsb' 14 3 }

/-- Route table data: index and four words for each entry. -/
def routesData (x : DieSt) : List Word :=
  (liveRoutes x).flatMap (fun i => BitVec.ofNat 32 i :: routeWords (getRoute x i))

/-- Take the entries of a ROUTES telegram. -/
def putRoutes : Nat → List Word → DieSt → DieSt
  | 0, _, x => x
  | f + 1, ws, x =>
    match ws with
    | i :: a :: b :: c :: d :: t =>
      if a = 0 then x else putRoutes f t (setRoute x (i.extractLsb' 0 10).toNat (routeOfWords [a, b, c, d]))
    | _ => x

/-- Dirty blocks of a die: a block is dirty where either of the three dies has written it. -/
def dirtyOf (x : DieSt) : List Nat :=
  (numsFrom 0 16).flatMap (fun r => ((reg x r).dirty.map (·.1)).map (fun b => r * regionBlocks + b)) ++
    (x.dirtyCells.map (·.1)).map (fun c => c / 16 * regionBlocks + memBlocks + c % 16)

/-- KIND codes of Table 12.4. -/
def xkBLOCK : BitVec 4 := 1
def xkROUTES : BitVec 4 := 2
def xkMODULE : BitVec 4 := 3
def xkEND : BitVec 4 := 4

/-- X0 to X3 of a TRANSFER payload. -/
def xferHead (kind : BitVec 4) (r b pass : Nat) (half : Bool) (cycle : Word) : List Word :=
  [ (kind ++ BitVec.ofNat 4 r ++ BitVec.ofNat 8 b ++ BitVec.ofNat 8 pass ++ b2v half ++ 0#7 : BitVec 32), cycle, 0, 0 ]

/-- The items of a MODULE telegram as words: cycle number, banks, INIT state, count of forces and the forces. -/
def xferModuleWords (m : XferModule) : List Word :=
  let ini : Word := (numsFrom 0 16).foldl (fun (v : BitVec 32) r => if m.initDone.getD r false then setBitOf v r true else v) 0
  [m.cycle, b2w m.active, ini, BitVec.ofNat 32 m.forces.length] ++ m.forces.flatMap (fun f => [f.f0, f.f1, f.f2, f.f3])

/-- Forces of a word list. -/
def forcesOf : Nat → List Word → List ForceEntry
  | 0, _ => []
  | n + 1, ws =>
    match ws with
    | a :: b :: c :: d :: t => { f0 := a, f1 := b, f2 := c, f3 := d } :: forcesOf n t
    | _ => []

/-- Read the items of a MODULE telegram. -/
def xferModuleOf (ws : List Word) : XferModule :=
  { cycle := ws.getD 0 0, active := bitOf (ws.getD 1 0) 0,
    initDone := (numsFrom 0 16).map (fun r => bitOf (ws.getD 2 0) r),
    forces := forcesOf (min 64 (ws.getD 3 0).toNat) (ws.drop 4) }

end Sys2Proof.Machine
end

