-- ==== Sys2Proof/Machine/Image.lean ====
section
/-!
DEFINITION. The loaded image in a die (04 R157, 14 Table 14.1 step 5, 15 R436 to R449): banks, cell records, online change with
its carry-over, and forces; and the update codes of 16.
-/

namespace Sys2Proof.Machine

/-! ## Banks (03 R106, 11 R337, 04 R157) -/

/-- First word and length of the route memory record that holds word `w`, with the top field of its virtual word. -/
def routeRec (w : Nat) : Nat × Nat × Nat :=
  if w < 262144 then (w / 32 * 32, 32, w / 32)
  else if w < 294912 then (w / 32 * 32, 32, 2048 + (w - 262144) / 32)
  else ((w - 294912) / 16 * 16 + 294912, 16, 4096 + (w - 294912) / 16)

/-- A record with the CHECK that the module writes as it loads it. -/
def sealRecord (cx : Ctx) (bank : Bool) (base top start len : Nat) (m : List (Nat × Word)) : List (Nat × Word) :=
  let ws := (numsFrom start (len - 1)).map (fun k => getA 0 m (base + k))
  putA 0 (base + start + len - 1) (memCheck (virtWord top bank cx) ws) m

/-- Replace one bank of a word store. -/
def loadStore (lo hi : Nat) (ws : List (Nat × Word)) (m : List (Nat × Word)) : List (Nat × Word) :=
  ws.foldl (fun m p => putA 0 (lo + p.1) p.2 m) (m.filter (fun p => p.1 < lo || hi ≤ p.1))

/-- Write routes, proxies and profiles of an image into a bank of a die, with every CHECK. -/
def loadTables (cx : Ctx) (bank : Bool) (p : StationPart) (x : DieSt) : DieSt :=
  let rb := bankNo bank * routeBankWords
  let pb := bankNo bank * proxyBankWords
  let r0 := loadStore rb (rb + routeBankWords) p.routes x.routeMem
  let recs := (p.routes.map (fun q => routeRec q.1)).eraseDups
  let r1 := recs.foldl (fun m q => sealRecord cx bank rb q.2.2 q.1 q.2.1 m) r0
  let p0 := loadStore pb (pb + proxyBankWords) p.proxies x.proxyMem
  let prox := (p.proxies.map (fun q => q.1 / 32)).eraseDups
  let p1 := prox.foldl (fun m n => sealRecord cx bank pb (6144 + n) (32 * n) 32 m) p0
  let kb := bankNo bank * 8
  let f0 := x.profiles.filter (fun q => q.1 < kb || kb + 8 ≤ q.1)
  let f1 := (numsFrom 0 8).foldl (fun m k => let q := partProfile p k; putA profZero (kb + k) { q with p7 := profCheckValue cx bank k q } m) f0
  { x with routeMem := r1, proxyMem := p1, profiles := f1 }

/-- Write the code banks of an image. -/
def loadCode (bank : Bool) (p : StationPart) (x : DieSt) : DieSt :=
  let base := if bank then 0x20000 else 0
  mapRegs x (fun r g =>
    { g with mem := (regionImage p r).code.foldl (fun m c => memPut m (base + c.1) c.2) (memClear g.mem base (base + 0x20000)) })

/-- Initial value of a variable at start (15 Tables 15.7, 15.8). -/
def varInit (v : VarEntry) (m : List Host.Cell) : List Host.Cell :=
  let a := memDATA + v.offset.toNat
  if v.typ = 5 then memPutWord m (a + 4) v.init
  else if v.typ = 6 || v.typ = 7 then m
  else memPutWord m a v.init

/-- A die as step 5 of the start loads it (14 R409, 02 R94, 15 R436): everything of a former start is gone. The strap, the
spare map and the memories of code and routes are the die's; nothing runs. -/
def loadDie (cx : Ctx) (p : StationPart) (x0 x : DieSt) : DieSt :=
  let y := { x0 with strap := x.strap, cells := p.cells.foldl (fun m q => putA cellUnused q.1 (startCell q.2) m) [] }
  let z := mapRegs y (fun r g => { g with mem := (regionImage p r).varmap.foldl (fun m v => varInit v m) g.mem })
  loadCode false p (loadTables cx false p z)

/-! ## Forces (15 R446 to R448) -/

def forceTarget (f : ForceEntry) : Nat := (f.f0.extractLsb' 30 2).toNat
def forcePermissive (f : ForceEntry) : Bool := bitOf f.f0 29
def forceRegion (f : ForceEntry) : Nat := (f.f0.extractLsb' 20 4).toNat
def forceChannel (f : ForceEntry) : Nat := (f.f0.extractLsb' 0 8).toNat
def tgVARIABLE : Nat := 1
def tgINPUT : Nat := 2
def tgOUTPUT : Nat := 3

/-- Two entries name one target. -/
def sameForce (a b : ForceEntry) : Bool :=
  decide (forceTarget a = forceTarget b) &&
    (if forceTarget a = tgVARIABLE then decide (forceRegion a = forceRegion b) && decide (a.f1 = b.f1)
     else decide (forceChannel a = forceChannel b))

/-- Add or replace a force. -/
def putForce (f : ForceEntry) (l : List ForceEntry) : List ForceEntry :=
  if l.any (sameForce f) then l.map (fun g => if sameForce f g then f else g) else l ++ [f]

/-- The variable of a force. -/
def varOf (p : StationPart) (r : Nat) (id : Word) : Option VarEntry :=
  (regionImage p r).varmap.find? (fun v => decide (v.id.setWidth 32 = id))

/-- A force is restrictive (15 R447). -/
def forceRestrictive (p : StationPart) (f : ForceEntry) : Bool :=
  if forceTarget f = tgVARIABLE then
    match varOf p (forceRegion f) f.f1 with
    | some v => decide (v.typ = 1) && v.safeValid && decide (f.f2 = b2w v.safeValue)
    | none => false
  else decide (f.f2 = 0)

/-- The entry as the module stores it: PERMISSIVE set by the module. -/
def storedForce (p : StationPart) (f : ForceEntry) : ForceEntry :=
  { f with f0 := setBitOf f.f0 29 (!forceRestrictive p f) }

/-- Readings with input forces (15 R448). -/
def forceInputs (l : List ForceEntry) (v : BitVec 192) : BitVec 192 :=
  l.foldl (fun v f => if forceTarget f = tgINPUT then setBitOf v (forceChannel f) (bitOf f.f2 0) else v) v

/-- Shares of a region with output forces, of the outputs it owns. -/
def forceOutputs (l : List ForceEntry) (own v : BitVec 96) : BitVec 96 :=
  l.foldl (fun v f =>
    if forceTarget f = tgOUTPUT && bitOf own (forceChannel f) then setBitOf v (forceChannel f) (bitOf f.f2 0) else v) v

/-- Write the forced variables of a region. -/
def forceVars (p : StationPart) (r : Nat) (l : List ForceEntry) (m : List Host.Cell) : List Host.Cell :=
  l.foldl (fun m f =>
    if forceTarget f = tgVARIABLE && decide (forceRegion f = r) then
      match varOf p r f.f1 with
      | some v => memPutWord m (memDATA + v.offset.toNat) f.f2
      | none => m
    else m) m

/-- Write them in every region of a die. -/
def forceDie (p : StationPart) (l : List ForceEntry) (x : DieSt) : DieSt :=
  mapRegs x (fun r g => if g.halted || g.haltCycle then g else { g with mem := forceVars p r l g.mem })

/-! ## Online change (15 R440 to R445) -/

/-- Where a change stands. -/
inductive ChangePhase where
  | none
  | loading
  | loaded (deferrals : Nat)
  deriving DecidableEq, Repr

/-- The change of the bridle: its staged slot and image, S, whether each die has loaded it, the last code, and the change
report: RETYPED or DROPPED (true) and ID. -/
structure ChangeSt where
  phase : ChangePhase
  slotB : Bool
  image : StationPart
  earliest : Word
  at_ : Word
  loaded : Tri Bool
  code : BitVec 8
  deferred : Nat
  report : List (Bool × BitVec 31)
  /-- S of the latest switch, whose carry-over RULES_IN makes, with the map before it. -/
  oldImage : StationPart
  carryAt : Option Word
  deriving DecidableEq, Repr

def changeReset : ChangeSt :=
  { phase := .none, slotB := false, image := stationNone, earliest := 0, at_ := 0, loaded := triAll false, code := 0,
    deferred := 0, report := [], oldImage := stationNone, carryAt := none }

def chNONE : BitVec 8 := 0
def chMODE : BitVec 8 := 1
def chPERMIT : BitVec 8 := 2
def chSIGNATURE : BitVec 8 := 3
def chPARTS : BitVec 8 := 4
def chTOPOLOGY : BitVec 8 := 5
def chLAYOUT : BitVec 8 := 6
def chFORCE : BitVec 8 := 7
def chCHARGE : BitVec 8 := 8
def chCHECK : BitVec 8 := 9
def chLOADDISAGREE : BitVec 8 := 0xA
def chDEFERLIMIT : BitVec 8 := 0xB
def chABORTED : BitVec 8 := 0xC

/-- Test 0x05: what may not change is the same, and VERSION rises. -/
def topologySame (a b : StationPart) : Bool :=
  decide ({ a with version := 0, routes := [], proxies := [], profiles := [], regions := [], recordsOk := true, formOk := true } =
    { b with version := 0, routes := [], proxies := [], profiles := [], regions := [], recordsOk := true, formOk := true }) && decide (a.version.toNat < b.version.toNat)

/-- A variable has the same ID, TYPE and WORDS. -/
def sameVar (u v : VarEntry) : Bool :=
  decide (u.id = v.id) && decide (u.typ = v.typ) && (decide (u.typ ≠ 7) || decide (u.words = v.words))

/-- Test 0x06. -/
def layoutKept (a b : StationPart) : Bool :=
  (numsFrom 0 16).all (fun r => (regionImage a r).varmap.all (fun u =>
    (regionImage b r).varmap.all (fun v => !sameVar u v || decide (u.offset = v.offset))))

/-- Test 0x07. -/
def forcesKept (b : StationPart) (a : StationPart) (l : List ForceEntry) : Bool :=
  l.all (fun f => decide (forceTarget f ≠ tgVARIABLE) ||
    (match varOf a (forceRegion f) f.f1, varOf b (forceRegion f) f.f1 with
     | some u, some v => sameVar u v
     | _, _ => false))

/-- Charge of the carry-over of a region (15 R444). -/
def carryCharge (a b : StationPart) (r : Nat) : Nat :=
  20 * (regionImage b r).varmap.length + 10 * (regionImage a r).varmap.length

/-- The overlap set or the flank list that a descriptor names differs between the banks (15 R443). -/
def setsChanged (x : DieSt) (d : Desc) : Bool :=
  (match d.ovl with
   | none => false
   | some o => decide ((ovlWords x x.active o).take 31 ≠ (ovlWords x (!x.active) o).take 31)) ||
    (match d.flk with
     | none => false
     | some f => decide ((flkWords x x.active f).take 15 ≠ (flkWords x (!x.active) f).take 15))

/-- Words W0 to W30 of a descriptor, or of the sets it names, differ between the banks (15 R443). -/
def descChanged (x : DieSt) (n : Nat) : Bool :=
  let a := (descWords x x.active n).take 31
  decide (a ≠ (descWords x (!x.active) n).take 31) || setsChanged x (descOf false a)

/-- The same for a proxy. -/
def proxyChanged (x : DieSt) (n : Nat) : Bool :=
  let a := (proxyWords x x.active n).take 31
  decide (a ≠ (proxyWords x (!x.active) n).take 31) || setsChanged x (descOf true a)

/-- An entry of the route table belongs to a changed route. -/
def entryChanged (x : DieSt) (e : RouteEntry) : Bool :=
  if isProxy e then proxyChanged x e.routeId.toNat else descChanged x e.routeId.toNat

/-- A live entry defers the switch. -/
def switchDeferred (x : DieSt) : Bool := (liveRoutes x).any (fun i => entryChanged x (getRoute x i))

/-- What the carry-over made of a region's entries: kept, new, retyped and dropped. -/
structure CarryCount where
  kept : Nat
  fresh : Nat
  retyped : List (BitVec 31)
  dropped : List (BitVec 31)
  deriving DecidableEq, Repr

/-- Previous sample of a new EDGE (15 Table 15.10): the reading of its input, or the value of its source, a BOOL, after the source's own
carry-over, which may come later in the order of the IDs. -/
def edgeSample (read : BitVec 192) (a b : StationPart) (r : Nat) (m : List Host.Cell) (src : Word) : Word :=
  if bitOf src 31 then b2w (bitOf read (src.extractLsb' 0 8).toNat)
  else match varOf b r src with
    | some v => if (varOf a r src).any (sameVar v) then memWord m (memDATA + v.offset.toNat) else v.init
    | none => 0

/-- One new entry, with the old map: the memory, and 0 kept, 1 new, 2 retyped. -/
def carryVar (read : BitVec 192) (a b : StationPart) (r : Nat) (v : VarEntry) (m : List Host.Cell) : List Host.Cell × Nat :=
  let ad := memDATA + v.offset.toNat
  let edge := memPutWord m ad (edgeSample read a b r m v.source)
  let init :=
    if v.typ = 5 then memPutWord (memPutWord m ad 0) (ad + 4) v.init
    else if v.typ = 6 then edge
    else if v.typ = 7 then memClear m ad (ad + 4 * v.words.toNat)
    else memPutWord m ad v.init
  match (regionImage a r).varmap.find? (fun u => decide (u.id = v.id)) with
  | none => (init, 1)
  | some u =>
    if !sameVar u v then (init, 2)
    else if v.typ = 5 then (memPutWord m (ad + 4) v.init, 0)
    else if v.typ = 6 && u.source ≠ v.source then (edge, 0)
    else (m, 0)

/-- Bytes of the data area that an entry of the map covers. -/
def varCovers (l : List VarEntry) (ad : Nat) : Bool :=
  l.any (fun v =>
    decide (memDATA + v.offset.toNat ≤ ad) && decide (ad < memDATA + v.offset.toNat + 4 * varWords v))

/-- The carry-over of a region (15 R444). -/
def carryRegion (read : BitVec 192) (a b : StationPart) (r : Nat) (g : RegionSt) : RegionSt × CarryCount :=
  let vs := (regionImage b r).varmap
  let step := vs.foldl (fun (q : List Host.Cell × CarryCount) v =>
    let y := carryVar read a b r v q.1
    (y.1, if y.2 = 0 then { q.2 with kept := q.2.kept + 1 } else if y.2 = 1 then { q.2 with fresh := q.2.fresh + 1 }
          else { q.2 with retyped := q.2.retyped ++ [v.id] }))
    (g.mem, { kept := 0, fresh := 0, retyped := [], dropped := [] })
  let gone := ((regionImage a r).varmap.filter (fun u => !vs.any (fun v => decide (v.id = u.id)))).map (·.id)
  let mem := step.1.filter (fun c => c.1 < memDATA || memTX ≤ c.1 || varCovers vs c.1)
  ({ g with mem := mem, charge := g.charge + carryCharge a b r }, { step.2 with dropped := gone })

/-- DATA of the tail record of a carry-over: the four counts. -/
def carryData (c : CarryCount) : BitVec 64 :=
  (BitVec.ofNat 16 c.dropped.length ++ BitVec.ofNat 16 c.retyped.length ++ BitVec.ofNat 16 c.fresh ++ BitVec.ofNat 16 c.kept : BitVec 64)

/-! ## Updates (16 Table 16.6) -/

def upMODE : BitVec 8 := 1
def upPERMIT : BitVec 8 := 2
def upSIGNATURE : BitVec 8 := 3
def upSLOT : BitVec 8 := 4
def upWRITE : BitVec 8 := 5
def upMANIFEST : BitVec 8 := 6
def upVERSION : BitVec 8 := 7
def upKEYS : BitVec 8 := 8
def upFORMAT : BitVec 8 := 9
def upCYCLES : BitVec 8 := 0xA
def upWINDOW : BitVec 8 := 0xB
def upNOTTRIAL : BitVec 8 := 0xC
def upCARRIER : BitVec 8 := 0xD

/-- An operation of bridle core pair 0 on the carrier that runs in the background: an OPEN, a WRITE or a CLOSE asked for by a
slot, or the commit entry after a switch. -/
inductive CarrierOp where
  | none
  | open_ (slot : Nat)
  | write (slot : Nat)
  | close (slot : Nat) (activate : Bool) (windowH : BitVec 16)
  | confirm (slot : Nat)
  | switched
  deriving DecidableEq, Repr

/-- Staging (16 R455): OPEN stands; the operation under way; the pages of a WRITE; fault-free cycles (R460). -/
structure UpdateSt where
  staging : Bool
  op : CarrierOp
  pages : List Nat
  /-- A switch has been made while another operation was under way: its commit entry follows that. -/
  switchDue : Bool
  clean : Nat
  /-- An accepted confirmation clears PROBATION at the next boundary. -/
  cleared : Bool
  /-- Bytes programmed into the target slot since its erase, by slot offset. -/
  staged : List Host.Cell
  deriving DecidableEq, Repr

def updateReset : UpdateSt := { staging := false, op := .none, pages := [], switchDue := false, clean := 0, cleared := false, staged := [] }

end Sys2Proof.Machine
end

