-- ==== Sys2Proof/Machine/Window.lean ====
section
/-!
DEFINITION. The gateway window (17): its memory, ownership, the target port, request records, and signed commands.
-/

namespace Sys2Proof.Machine

/-! ## State -/

/-- A report record of a cell (17 Table 17.9), words Z0 to Z6. -/
abbrev ReportRec := List Word

/-- The window (17 Tables 17.2, 17.3). `flags`: by offset − 0x100, 0xA5 where not listed. `mem`: bytes of the request ring,
recorder pages and staging pages. `reports`: records by buffer × 4096 + cell, of the buffers that have been written. -/
structure WinSt where
  alive : Bool
  err : Bool
  out : List Byte
  modeW : Word
  cycleW : Word
  moduleW : Word
  repCur : Bool
  repCycle0 : Word
  repCycle1 : Word
  /-- Buffer completed in the present cycle; current from the next boundary on. -/
  repDone : Option Bool
  written0 : Bool
  written1 : Bool
  probCount : Word
  take : Nat
  /-- Cycle at which a slot was taken, by slot (17 Table 17.4, TAKEN). -/
  takenAt : List (Nat × Word)
  irq : BitVec 3
  discards : Nat
  flagBad : Nat
  recBad : Nat
  flags : List (Nat × Byte)
  mem : List Host.Cell
  reports : List (Nat × ReportRec)
  /-- Published snapshots: input status, SP.STATUS, counter mirror, route table mirror, by word; and the authorisation slots. -/
  inWords : List (Nat × Word)
  outWords : List (Nat × Word)
  spWords : List Word
  pmcWords : List (Nat × Word)
  routeMirror : List (Nat × Word)
  auth : List (Nat × Word)
  /-- Slots delivered to the dies in the present cycle, oldest first, and slots out with the bridle. -/
  delivered : List Nat
  bridle : List Nat
  /-- Outcome of the signature and counter check of slots, where it is complete: 0 passed, else the BAD_AUTH reason. -/
  checked : List (Nat × Nat)
  /-- Staging pages with the device, by page: milliseconds of the handover + 1. -/
  stgSince : List (Nat × Nat)
  /-- Pages whose flag had neither owner value. -/
  badPages : List Nat
  deriving DecidableEq, Repr

/-- The window as it comes alive (17 R466). -/
def winReset : WinSt :=
  { alive := false, err := false, out := [], modeW := 0x00010000, cycleW := 0, moduleW := 0, repCur := false, repCycle0 := 0,
    repCycle1 := 0, repDone := none, written0 := false, written1 := false, probCount := 0, take := 0, takenAt := [], irq := 0, discards := 0,
    flagBad := 0, recBad := 0, flags := [], mem := [], reports := [], inWords := [], outWords := [], spWords := [],
    pmcWords := [], routeMirror := [], auth := [], delivered := [], bridle := [], checked := [], stgSince := [],
    badPages := [] }

def ownGATEWAY : Byte := 0xA5
def ownDEVICE : Byte := 0x5A

/-- Flag at an index: REQ 0 to 63, REC 64 to 79, STG 80 to 111. -/
def winFlag (w : WinSt) (k : Nat) : Byte := getA ownGATEWAY w.flags k
def putFlag (k : Nat) (b : Byte) (w : WinSt) : WinSt := { w with flags := putA ownGATEWAY k b w.flags }
def flREC : Nat := 64
def flSTG : Nat := 80

/-- Bit of WIN.IRQ of a flag's kind. -/
def irqBit (k : Nat) : Nat := if k < flREC then 0 else if k < flSTG then 1 else 2

/-- Hand a slot to the gateway: WIN.IRQ and WIRQ# (17 R468). -/
def handBack (k : Nat) (w : WinSt) : WinSt := { putFlag k ownGATEWAY w with irq := setBitOf w.irq (irqBit k) true }

/-- TAKEN of a slot. -/
def takenOf (w : WinSt) (n : Nat) : Word := getA 0 w.takenAt n

/-- Address of a slot. -/
def reqAddr (n : Nat) : Nat := 0x1000 + 256 * n
def recAddr (n : Nat) : Nat := 0x45000 + 4096 * n
def stgAddr (n : Nat) : Nat := 0x55000 + 4096 * n

/-- Saturating count. -/
def satInc (n : Nat) : Nat := min (n + 1) 0xFFFFFFFF

/-- Words of a request record. -/
def reqWords (w : WinSt) (n : Nat) : List Word := (numsFrom 0 64).map (fun k => memWord w.mem (reqAddr n + 4 * k))

/-- CHECK of a record in a slot (17 R469): CRC-32C over the slot address and the words before it. -/
def slotCheck (addr : Nat) (ws : List Word) : Word := crc32c (leBytes (BitVec.ofNat 32 addr) ++ ws.flatMap leBytes)

/-- Write RESULT, REASON, TAKEN and CHECK, and hand the slot over (17 R472). -/
def finishSlot (n : Nat) (result reason : BitVec 8) (taken : Word) (w : WinSt) : WinSt :=
  let ws := reqWords w n
  let a0 : Word := ((ws.getD 0 0).extractLsb' 24 8 ++ result ++ reason ++ (ws.getD 0 0).extractLsb' 0 8 : BitVec 32)
  let ws1 := setAt (setAt ws 0 a0) 2 taken
  let ws2 := setAt ws1 63 (slotCheck (reqAddr n) (ws1.take 63))
  handBack n { w with mem := memPutWords w.mem (reqAddr n) ws2, delivered := w.delivered.filter (· ≠ n),
                      bridle := w.bridle.filter (· ≠ n), checked := w.checked.filter (fun p => p.1 ≠ n) }

/-! ## Results (17 Tables 17.6, 17.7) -/

def rsDONE : BitVec 8 := 1
def rsPENDING : BitVec 8 := 2
def rsREFUSED : BitVec 8 := 3
def rsREFROUTE : BitVec 8 := 4
def rsREFCHANGE : BitVec 8 := 5
def rsREFUPDATE : BitVec 8 := 6
def rsBADRECORD : BitVec 8 := 7
def rsBADFLAG : BitVec 8 := 8
def rsBADAUTH : BitVec 8 := 9

def wrMODE : BitVec 8 := 1
def wrTARGET : BitVec 8 := 2
def wrSTATE : BitVec 8 := 3
def wrPERMIT : BitVec 8 := 4
def wrFULL : BitVec 8 := 5
def wrPENDING : BitVec 8 := 6
def wrNOPENDING : BitVec 8 := 7
def wrEARLY : BitVec 8 := 8
def wrPARTNER : BitVec 8 := 9
def wrTYPE : BitVec 8 := 0xA

/-! ## Commands (17 Table 17.5) -/

/-- The commands of the window. -/
inductive WinCmd where
  | routeSet | routeCancel | pointCall | block | unblock | signalReplace | emergRelease | sectionRestore | forceSet | forceClear
  | clearRecorder | stageUpdate | confirmUpdate | onlineChange | handover
  deriving DecidableEq, Repr

/-- The command of a code. -/
def winCmd (n : Nat) : Option WinCmd :=
  match n with
  | 1 => some .routeSet
  | 2 => some .routeCancel
  | 3 => some .pointCall
  | 4 => some .block
  | 5 => some .unblock
  | 6 => some .signalReplace
  | 7 => some .emergRelease
  | 8 => some .sectionRestore
  | 9 => some .forceSet
  | 10 => some .forceClear
  | 11 => some .clearRecorder
  | 12 => some .stageUpdate
  | 13 => some .confirmUpdate
  | 14 => some .onlineChange
  | 15 => some .handover
  | _ => none

def reqCmd (ws : List Word) : Option WinCmd := winCmd ((ws.getD 0 0).extractLsb' 24 8).toNat

/-- Bit of ROLES a signed command needs (17 Table 17.8): FORCE 0, RECORDER 1, UPDATE 2, CHANGE 3, HANDOVER 4; none unsigned. -/
def cmdRole : WinCmd → Option Nat
  | .forceSet | .forceClear => some 0
  | .onlineChange => some 3
  | .stageUpdate | .confirmUpdate => some 2
  | .clearRecorder => some 1
  | .handover => some 4
  | _ => none

/-- Handled by the bridle. -/
def cmdBridle : WinCmd → Bool
  | .clearRecorder | .stageUpdate | .confirmUpdate => true
  | _ => false

/-- Bits of the argument words that a command uses: A4 to A7. -/
def argMask : WinCmd → List Word
  | .routeSet | .routeCancel | .signalReplace => [0x1FFF, 0, 0, 0]
  | .pointCall => [0x3FFF, 0, 0, 0]
  | .block | .unblock => [0xFFF, 0, 0, 0]
  | .emergRelease => [0x3FFF, 1, 0, 0]
  | .sectionRestore => [0xFFF, 1, 0, 0]
  | .forceSet => [0xE0F000FF, -1, -1, -1]
  | .forceClear => [0xE0F000FF, -1, 0, 0]
  | .clearRecorder | .confirmUpdate | .handover => [0, 0, 0, 0]
  | .stageUpdate => [0x103, -1, 0x3F3F, 0xFFFF]
  | .onlineChange => [1, -1, 0, 0]

/-- Every bit outside the fields of a record is 0, and every argument holds a defined code (17 R471 test 2). -/
def recordOk (addr : Nat) (ws : List Word) (c : WinCmd) : Bool :=
  let w := fun (k : Nat) => ws.getD k 0
  let m := argMask c
  let args := (numsFrom 0 4).all (fun k => decide (w (4 + k) &&& ~~~(m.getD k 0) = 0)) &&
    (numsFrom 8 32).all (fun k => decide (w k = 0))
  let sig := decide ((w 40).extractLsb' 3 29 = 0)
  let codes :=
    match c with
    | .pointCall => decide ((w 4).extractLsb' 12 2 = 1) || decide ((w 4).extractLsb' 12 2 = 2)
    | .forceSet => decide ((w 4).extractLsb' 30 2 ≠ 0) && (decide ((w 4).extractLsb' 30 2 = 1) || decide ((w 6).extractLsb' 1 31 = 0))
    | .forceClear => decide ((w 4).extractLsb' 30 2 ≠ 0)
    | .stageUpdate =>
      decide ((w 4).extractLsb' 0 2 ≠ 0) &&
        (decide ((w 4).extractLsb' 0 2 ≠ 2) || (inRange 1 32 ((w 6).extractLsb' 8 6).toNat))
    | _ => true
  decide (w 63 = slotCheck addr (ws.take 63)) && decide ((w 0).extractLsb' 0 24 = 0) && decide (w 3 = 0) && args && sig &&
    decide (w 42 = 0) && decide (w 43 = 0) && decide (w 60 = 0) && decide (w 61 = 0) && decide (w 62 = 0) && codes

/-! ## Signed commands (17 R473, R474) -/

/-- The message of a signed request. -/
def signedMessage (addr : BitVec 18) (ws : List Word) : List Byte :=
  leBytes (addr.setWidth 32) ++ leBytes ((ws.getD 0 0) &&& 0xFF0000FF) ++ leBytes (ws.getD 1 0) ++
    ((ws.drop 4).take 40).flatMap leBytes

/-- Fold words, most significant byte of each first in the stored byte string. -/
def bitsOfWords (ws : List Word) : BitVec 512 :=
  ws.foldl (fun (v : BitVec 512) w => (v <<< 32) ||| ((leWord (w.extractLsb' 24 8) (w.extractLsb' 16 8) (w.extractLsb' 8 8)
    (w.extractLsb' 0 8)).setWidth 512)) 0

/-- Counters of the keys: the value last accepted, held as ITEM `k` (log entry 67); without one, the floor (17 R474). -/
def keyCounter (c : Option Carrier) (floor : List (Nat × Word)) (k : Nat) : Word :=
  match c with
  | none => getA 0 floor k
  | some c =>
    (pdRead c (BitVec.ofNat 16 k)).getD (getA 0 floor k)

/-- The checks of R473 and R474 in order: 0 where all pass, else the reason of BAD_AUTH. -/
def authCheck (ops : List (Nat × OpKey)) (addr : BitVec 18) (last : Nat → Word) (ws : List Word) : Nat :=
  let key := ((ws.getD 40 0).extractLsb' 0 3).toNat
  match reqCmd ws with
  | none => 3
  | some c =>
    match cmdRole c with
    | none => 0
    | some role =>
      if !ops.any (fun p => decide (p.1 = key)) then 1
      else
        let k := getA opKeyNone ops key
        if !bitOf k.roles role then 2
        else if !Config.sm2Verify k.pub k.ident (sm3 (signedMessage addr ws)) (bitsOfWords ((ws.drop 44).take 16)) then 3
        else if (ws.getD 41 0).toNat ≤ (last key).toNat then 4
        else 0

/-! ## The port (17 R462 to R467) -/

/-- Who may write a window byte: a flag index whose slot owns it, or none for a device area. `flagByte`: it is that flag. -/
inductive WinByte where
  | device
  | flag (k : Nat)
  | slot (k : Nat)
  deriving DecidableEq, Repr

/-- The part of the window an address lies in. -/
def winPlace (a : Nat) : WinByte :=
  if 0x100 ≤ a && a < 0x170 then .flag (a - 0x100)
  else if 0x1000 ≤ a && a < 0x5000 then .slot ((a - 0x1000) / 256)
  else if 0x45000 ≤ a && a < 0x55000 then .slot (flREC + (a - 0x45000) / 4096)
  else if 0x55000 ≤ a && a < 0x75000 then .slot (flSTG + (a - 0x55000) / 4096)
  else .device

/-- A byte written by the gateway: taken where it owns the slot, else discarded. A flag of neither owner value leaves the slot
with the device and is counted. The window, and whether the byte was discarded. -/
def winWriteByte (ms : Nat) (a : Nat) (b : Byte) (w : WinSt) : WinSt × Bool :=
  match winPlace a with
  | .device => (w, true)
  | .slot k => if winFlag w k = ownGATEWAY then ({ w with mem := memPut w.mem a b }, false) else (w, true)
  | .flag k =>
    if winFlag w k ≠ ownGATEWAY then (w, true)
    else
      let w1 := putFlag k b w
      let bad := b ≠ ownGATEWAY && b ≠ ownDEVICE
      let w2 := if bad then { w1 with flagBad := satInc w1.flagBad,
                                      badPages := if flREC ≤ k then w1.badPages ++ [k] else w1.badPages } else w1
      (if flSTG ≤ k && b = ownDEVICE then { w2 with stgSince := putA 0 (k - flSTG) (ms + 1) w2.stgSince } else w2, false)

/-- Bytes from an address on, in the order they arrive; those beyond the window are discarded. -/
def winWriteBytes (ms : Nat) : Nat → List Byte → WinSt → WinSt × Bool
  | _, [], w => (w, false)
  | a, b :: t, w =>
    let r := if a ≤ 0x7FFFF then winWriteByte ms a b w else ({ w with err := true }, true)
    let q := winWriteBytes ms (a + 1) t r.1
    (q.1, r.2 || q.2)

/-- A WRITE or QWRITE transfer: the window, whether bytes were discarded, and bad flags counted. -/
def winWrite (ms addr : Nat) (bs : List Byte) (w : WinSt) : WinSt × Bool :=
  if 0x80000 ≤ addr then
    ({ w with err := true, out := [], discards := if bs.isEmpty then w.discards else satInc w.discards }, !bs.isEmpty)
  else
    let r := winWriteBytes ms addr bs { w with out := [] }
    ({ r.1 with discards := if r.2 then satInc r.1.discards else r.1.discards }, r.2)

/-- Read byte `a` where `word` gives the window's words. The read of 0x024 clears WIN.IRQ. -/
def winReadBytes (word : WinSt → Nat → Word) : Nat → Nat → WinSt → WinSt
  | 0, _, w => w
  | n + 1, a, w =>
    let b : Byte := if a ≤ 0x7FFFF then byteOf (word w (a / 4 * 4)) a else 0xFF
    let w1 := { w with out := w.out ++ [b], err := w.err || decide (0x7FFFF < a),
                       irq := if a = 0x24 then 0 else w.irq }
    winReadBytes word n (a + 1) w1

/-- A READ or QREAD transfer of `n` bytes. -/
def winRead (word : WinSt → Nat → Word) (addr n : Nat) (w : WinSt) : WinSt :=
  if 0x80000 ≤ addr then { w with err := true, out := List.replicate n 0xFF }
  else winReadBytes word n addr { w with out := [] }

/-- The STATUS byte (17 Table 17.1); the read clears ERR. -/
def winStatus (w : WinSt) : WinSt :=
  { w with out := [(0#5 ++ b2v w.err ++ b2v (decide (w.irq ≠ 0)) ++ b2v w.alive : BitVec 8)], err := false }

end Sys2Proof.Machine
end

