-- ==== Sys2Proof/Machine/Operands.lean ====
section
/-!
DEFINITION. The operands of the commands that carry more than numbers: what the environment of the module shows at a start, at
a boundary, at a COMMIT, at a self-test and at a carrier access.
-/

namespace Sys2Proof.Machine

/-- Outcomes of the interconnect, pin and ripcord tests (14 R415 to R417): bridle nets, the other die-to-die nets and cell port
links, field pins, ripcord. -/
structure TestIn where
  bridleNets : Bool
  nets : Bool
  ports : Bool
  pins : Bool
  ripcord : Bool
  deriving DecidableEq, Repr

/-- What a start finds (14 R408 to R417): the check word of the retained block; the three readings of S1; the straps of the dies;
the tests of step 6; the die counts of the 16 check intervals (R405) and the time base cross-check; the log slots left
incomplete by a loss of supply (18 R493). `profilesOk`: every driver profile of the part, as loaded, matches its CHECK (04 R158). -/
structure StartIn where
  blockOk : Bool
  contacts : List Seal
  straps : Tri (BitVec 2)
  tests : TestIn
  clocks : Tri (List Nat)
  timeBaseOk : Bool
  skipped : Nat
  profilesOk : Bool
  deriving DecidableEq, Repr

/-- A unit of logic or memory BIST (14 R418, R419). -/
inductive BistUnit where
  | bridle
  | dieMemory (d : Die)
  | dieLogic (d : Die)
  | gondola
  deriving DecidableEq, Repr

/-- What a boundary finds: the SLK periods counted over 256 XO32 periods (13 R406), and the offset of this boundary behind the
active's in SLK periods (12 R363), where a HEART has been measured. -/
structure BoundaryIn where
  slkCount : Nat
  offset : Option Int
  deriving DecidableEq, Repr

/-- What follows a die's COMMIT (04 R149, 12 R367): at least 5.5 ms remain before the next boundary, and the transfer blocks that
the window carries. `uncorrectable`, `corrected`: regions and addresses at
which the digest meets an error (01 R37). -/
structure CommitIn where
  room : Bool
  window : Nat
  uncorrectable : List (Nat × Nat)
  corrected : List (Nat × Nat)
  deriving DecidableEq, Repr

/-- Results of the shutdown tests of Table 14.5 step 2. -/
abbrev ShutIn := TestIn

/-- The spools that commands name (10 Table 10.2); `n`: a cell of the die. -/
inductive SpoolId where
  | outbox (d : Die) (n : Nat)
  | event (d : Die)
  | txS (p : Port)
  | txD (p : Port)
  | rxS (p : Port)
  | staging
  deriving DecidableEq, Repr

/-- The check unit instances of 09 Table 9.11. -/
inductive CuId where
  | window
  | carrier
  | linkTx (p : Port)
  | linkRx (p : Port)
  | lane (d : Die) (k : Side)
  | laneCheck (d : Die) (half : Side)
  | digest (d : Die) (r : Nat)
  | dacc (d : Die) (r : Nat)
  deriving DecidableEq, Repr

/-- A core pair of the bridle. -/
inductive CorePair where
  | p0
  | p1
  deriving DecidableEq, Repr

/-- Registers without a row of their own (09 R312, 10 R321): CTRL without RESTART, FOLD_A, FOLD_B, RUN_HI, RUN_LO, COUNT, the
W1C status word of a check unit; SP.STATUS and SP.CTRL of a spool; and the opening, the bytes and the length slot of a packet in a
class D TX spool (10 R316; log entry 65). -/
inductive RegWrite where
  | ctrl (u : CuId) (by_ : CorePair) (w : Word)
  | foldA (u : CuId) (by_ : CorePair) (w : Word)
  | foldB (u : CuId) (by_ : CorePair) (w : Word)
  | runHi (u : CuId) (by_ : CorePair) (w : Word)
  | runLo (u : CuId) (by_ : CorePair) (w : Word)
  | count (u : CuId) (by_ : CorePair) (w : Word)
  | status (u : CuId) (by_ : CorePair) (w : Word)
  | spoolAck (sp : SpoolId) (by_ : CorePair) (w : Word)
  | spoolCtrl (sp : SpoolId) (w : Word)
  | packetOpen (p : Port) (by_ : CorePair)
  | packetData (p : Port) (by_ : CorePair) (n : Nat)
  | packetClose (p : Port) (by_ : CorePair) (len : BitVec 16) (link : Nat) (t : Tel)
  deriving DecidableEq, Repr

/-- What the carrier shows when a background operation completes (16 R455): programming and read-back went well, and for a CLOSE
the image that the programmed bytes make. -/
structure CarrierDone where
  ok : Bool
  image : SlotImg
  deriving DecidableEq, Repr

/-- A frame that is not an Afno telegram, or a port event: the mode that auto-negotiation found (09 R287). -/
structure PhyMode where
  gigabitFull : Bool
  deriving DecidableEq, Repr

end Sys2Proof.Machine
end

