-- ==== Sys2Proof/Syntax.lean ====
section
/-!
DEFINITION. The commands of the block: one constructor for each row of the opcode table, with its operands.
-/

namespace Sys2Proof

open Machine

/-- The commands (rows of the opcode table). -/
inductive Instr where
  /-- R383: The logic supply has stood at 17.5 V or more for 100 ms, which ends DORMANT and begins a start. -/
  | logicSupplyQualified (si : StartIn)
  /-- R418: A memory or logic BIST run completes, and its MISR or march result is judged pass or fail. -/
  | bistComplete (unit_ : BistUnit) (dieMatch bridleMatch : Bool)
  /-- R400: The logic supply has stayed below 16.0 V for 10 ms, so the LOGIC_SUPPLY trip or a POWER_LOSS record follows,
  then hold-up and DORMANT. -/
  | logicSupplyLost (ci : CauseIn)
  /-- R227: A domain rail has stood outside its window for 1 µs, which is a LOGIC_SUPPLY trip cause. -/
  | railFault (ci : CauseIn) (domain : Nat)
  /-- R398: 100 ms after a trip the channel domains are switched off. -/
  | channelDomainOff
  /-- R141: The always-on count reaches the boundary, and the bridle applies the previous vote and starts the next
  cycle. -/
  | cycleBoundary (bi : BoundaryIn)
  /-- R51: A channel die receives the cycle-start message and begins WAKE, or runs no phases when the message fails its
  check. -/
  | cycleStartMessage (d : Die) (ok : Bool)
  /-- R154: WAKE is not complete within 20 µs, so the die runs no phases and all its regions count as missing. -/
  | wakeLate (d : Die)
  /-- R405: A die reports its crystal count, and the bridle checks it against SLK. -/
  | cycleStartAck (d : Die) (dieCount slkCount : Nat)
  /-- R144: The input image, accepted telegrams, window requests, fall vector and snapshot are delivered to every die.
  -/
  | sample
  /-- R92: Cell steps 1 to 5, request acceptance and the tasks INIT, ERROR and CYCLIC_IN run within BUDGET_IN. -/
  | rulesIn (d : Die)
  /-- R110: The fabric copies the shadow and begins the waves of Table 3.10. -/
  | propagate (d : Die)
  /-- R110: The die has been quiet for 16 clocks, which ends the wave and starts the next one. -/
  | waveEnd (d : Die)
  /-- R110: A wave's budget is spent, so the die discards tokens, restores credits and takes the cut outcome. -/
  | waveCut (d : Die) (loaded : List Nat)
  /-- R144: Command conditions and the aspect cap are applied, then CYCLIC_OUT runs within BUDGET_OUT. -/
  | rulesOut (d : Die)
  /-- R203: Output gates are applied, digests computed, and COMMIT blocks built and sent on lanes H and L. -/
  | commit (d : Die) (ci : CommitIn)
  /-- R52: D is reached, so regions still short of blocks are voted with the missing blocks counted as missing. -/
  | deadline (hw : VoteHw)
  /-- R207: A COMMIT block is received on both lanes and tested for use in each voter half. -/
  | commitBlockArrival (d : Die) (r : Nat) (rxH rxL : LaneRx) (hw : VoteHw)
  /-- R224: The charge-pump monitor finds a pump clock or gate-drive fault, which is a trip cause. -/
  | pumpFault (ci : CauseIn) (detail : BitVec 8)
  /-- R228: No cycle heartbeat has come for 2P on the SLK or XO32 counter, which is a trip cause. -/
  | aoWatchdog (ci : CauseIn)
  /-- R227: A junction sensor has read above 115 °C for 1 ms, which is a trip cause. -/
  | overtemp (ci : CauseIn) (detail : BitVec 8)
  /-- R227: Both switches of an output show gate drive while a command latch is clear, which is a trip cause. -/
  | noLoop (ci : CauseIn) (o : Nat)
  /-- R223: A switch's pump has seen no edge for 8 µs, so its gate clamp acts. -/
  | pumpEdgeTimeout (o : Nat) (high : Bool)
  /-- R232: After the waits following a qualifying trip, AUTO_RESTART is read and a full start may begin. -/
  | autoRestart (si : StartIn) (hottest : Nat)
  /-- R237: At the end of a group's sample window, counters, discrepancy checkers, H/L exchange and readings step. -/
  | inputWindowEnd (g : Nat) (samples : List InSample) (linkH linkL : Bool)
  /-- R246: A pair reaches D_w windows in its discrepancy condition and latches. -/
  | discrepancyLatched (half : Side) (pair : Nat)
  /-- R246: The safe state has held for C_w windows, and the checker returns to QUIET. -/
  | discrepancyCleared (half : Side) (pair : Nat) (rawEven rawOdd : Bool)
  /-- R244: An input fault clears after 16 consecutive windows without cause. -/
  | inputFaultClear (n : Nat) (linkH linkL : Bool)
  /-- R161: A die's event controller takes a fall event and puts its source in the region's pending set. -/
  | inputEvent (d : Die)
  /-- R162: A REVERT run reaches its 25,000 charged clocks, stops, and forces the next block restrictive. -/
  | revertOverrun (d : Die) (r : Nat)
  /-- R151: The next instruction would pass the phase budget, so the task is stopped and the region's block is forced
  restrictive. -/
  | rulesOverrun (d : Die) (r : Nat)
  /-- R146: A region's real clocks reach the phase budget before its charged count, so its pair halts for the cycle. -/
  | realClockHalt (d : Die) (r : Nat)
  /-- R169: The pair comparator finds the two cores' outputs unequal, and the region is halted. -/
  | pairMismatch (d : Die) (r : Nat) (clock : BitVec 24) (lines : Word)
  /-- R169: The pair comparator gives an invalid dual-rail code, and the region is halted. -/
  | checkerFault (d : Die) (r : Nat) (clock : BitVec 24)
  /-- R423: A self-test slice ends, and its MISR is judged. -/
  | sliceComplete (d : Die) (dieMatch bridleMatch : Bool)
  /-- R219: Every item of a re-join pass has been forwarded within one window. -/
  | rejoinPassComplete (d : Die) (r : Nat) (room : Bool)
  /-- R219: No pass is complete within 12 cycles, so the attempt is abandoned. -/
  | rejoinLimit (d : Die) (r : Nat)
  /-- R441: Loading of an online change completes, and the three load digests are compared. -/
  | loadComplete (bankOk : Bool)
  /-- R164: The bridle counts a drop request for an output by die availability. -/
  | dropRequest (d : Die) (o : Nat)
  /-- R263: At the end of a readback window, terminals are filtered and compared with E, and current is sensed. -/
  | readbackWindowEnd (samples : List RbSample) (fs : List (Nat × Nat))
  /-- R271: A high-side dark step clears the high-side latch, samples the terminals and sets the latch again. -/
  | hsDarkStep (o : Nat) (plus : Level) (met : Bool)
  /-- R271: A low-side dark step clears the low-side latch, samples the terminals and sets the latch again. -/
  | lsDarkStep (o : Nat) (minus : Level) (met : Bool)
  /-- R271: A light step charges the wiring through the high side in test mode, then discharges it through the low side.
  -/
  | lightStep (o : Nat) (samples : LightSample) (met : Bool)
  /-- R267: An overcurrent or a 25 ms current limit locks the output off with OVERLOAD. -/
  | overload (o : Nat) (us : Nat)
  /-- R282: A lock's clearing condition is met, and FAULT_KIND returns to NONE. -/
  | lockClear (o : Nat)
  /-- R277: FSg has stood below 19.2 V for 1 ms, so LOW is set and the readback threshold is scaled. -/
  | groupLow (g : Nat) (q : SupplyIn)
  /-- R277: FSg has stood at 19.6 V or more in both halves for 100 ms, so LOW is cleared. -/
  | lowCleared (g : Nat) (q : SupplyIn)
  /-- R279: Undervoltage or overvoltage cuts the group, and both latches of every output in it are held clear. -/
  | groupCut (g : Nat) (q : SupplyIn)
  /-- R280: FSg has stood in the restore band for 500 ms in both halves, so the group is restored. -/
  | groupRestored (g : Nat) (q : SupplyIn)
  /-- R262: The other half's cross-link words stop or turn invalid, and the remaining half holds all its latches clear.
  -/
  | gondolaHalfStopped (half : Side)
  /-- R302: An IDLE telegram is received, tested and counted toward the link state. -/
  | idleTelegram (p : Port) (t : Tel)
  /-- R305: An APP telegram is received, tested and placed in the class S RX spool. -/
  | appTelegram (p : Port) (t : Tel)
  /-- R334: A CELLS telegram carrying boundary-cell values is received and spooled. -/
  | cellsTelegram (p : Port) (t : Tel)
  /-- R339: A TERR telegram carrying crossing-route entries is received and spooled. -/
  | terrTelegram (p : Port) (t : Tel)
  /-- R348: A FIELD telegram carrying shares or field readings is received and spooled. -/
  | fieldTelegram (p : Port) (t : Tel)
  /-- R361: A HEART telegram from the partner is received and spooled. -/
  | heartTelegram (p : Port) (t : Tel)
  /-- R309: A TIME telegram from a TIME_SRC link sets the UTC target of the time base. -/
  | timeTelegram (p : Port) (t : Tel)
  /-- R294: A DIAG telegram is received and handed to bridle core pair 0. -/
  | diagTelegram (p : Port) (t : Tel)
  /-- R501: A DIAG telegram of function PMC_SETUP configures the counters from the next cycle start. -/
  | pmcSetup (p : Port) (t : Tel)
  /-- R366: A TRANSFER telegram of kind BLOCK writes half of a 1 KiB block into the receiver's three dies. -/
  | transferBlock (p : Port) (t : Tel)
  /-- R367: A TRANSFER telegram of kind ROUTES carries live route table entries. -/
  | transferRoutes (p : Port) (t : Tel)
  /-- R367: A TRANSFER telegram of kind MODULE carries cycle number, active banks, force table and INIT state. -/
  | transferModule (p : Port) (t : Tel)
  /-- R367: A TRANSFER telegram of kind END completes the final pass. -/
  | transferEnd (p : Port) (t : Tel)
  /-- R366: A TRANSFER telegram of undefined KIND is discarded and ends the pass. -/
  | transferKindInvalid (p : Port) (t : Tel)
  /-- R294: A telegram of undefined TYPE is discarded with cause TYPE. -/
  | telegramTypeUndefined (p : Port) (t : Tel)
  /-- R288: A frame that R288 does not support is discarded and counted as FRAME. -/
  | frameNotAfno (p : Port) (f : Frame)
  /-- R288: An ARP request for the module's address is answered. -/
  | arpRequest (p : Port) (ip : Word)
  /-- R288: Every 60 s each peer address is resolved again. -/
  | arpRefresh (p : Port)
  /-- R325: The MAC has sent a frame and frees its TX spool slot. -/
  | frameTransmitted (p : Port)
  /-- R318: A back-pressure producer stalled on a full spool has its write accepted when a stage frees. -/
  | stalledWriteAccepted (sp : SpoolId)
  /-- R307: No class S acceptance for T_loss sets the link LOST, posts 0xC2 and clears the echo candidate. -/
  | linkLost (n : Nat)
  /-- R307: Acceptances in 4 consecutive cycles return a LOST link to UP. -/
  | linkUp (n : Nat)
  /-- R307: One network has delivered no copy for T_loss while the other delivers. -/
  | netDown (n : Nat)
  /-- R101: The data of a BOUNDARY cell or remote binding passes T_max, so restrictive substitutes apply. -/
  | telegramAgeExpired (d : Die) (n : Nat)
  /-- R333: Once per hour while a module lies more than 2^12 cycles apart, CYCLE_APART is written. -/
  | cycleApartRecord
  /-- R341: The owner accepts or refuses a proxy for the requester's key. -/
  | terrProbe (d : Die)
  /-- R341: The owner commits a PROBED proxy in this cycle's COMMIT wave. -/
  | terrCommit (d : Die)
  /-- R341: The owner moves a committed proxy to ENTERED. -/
  | terrEntered (d : Die)
  /-- R341: The owner moves a committed proxy to RELEASING. -/
  | terrRelease (d : Die)
  /-- R341: The owner returns an uncommitted proxy to IDLE with CANCEL. -/
  | terrCancel (d : Die)
  /-- R344: The requester's waiting route becomes PROBED. -/
  | terrProbed (d : Die)
  /-- R344: The requester cancels and retries or refuses under R118 with the reported reason. -/
  | terrNack (d : Die)
  /-- R344: The requester records the proxy's PROVEN and FAILED state. -/
  | terrHeld (d : Die)
  /-- R344: The requester lets the route leave the table, or fails it with LOCK_LOST. -/
  | terrReleased (d : Die)
  /-- R339: A TERR entry with an undefined OP is ignored and counted. -/
  | terrOpUndefined (d : Die)
  /-- R341: No entry for a key for 4 cycles returns an uncommitted proxy to IDLE. -/
  | terrAbsent (d : Die) (i : Nat)
  /-- R345: WAIT reaches 5, so the waiting route returns to IDLE with REMOTE_TIMEOUT. -/
  | remoteTimeout (d : Die) (i : Nat)
  /-- R115: A cell applies Table 3.11 to a PROBE token, marking and forwarding it or replying NACK. -/
  | probe (d : Die) (t : Token)
  /-- R108: The route engine takes a HOLD that marks the walk complete. -/
  | hold (d : Die) (t : Token)
  /-- R118: The route engine takes a refusal, and the route retries or ends. -/
  | nack (d : Die) (t : Token)
  /-- R126: A cell converts the route's mark into a lock, writes a point call and replies LOCKED_ACK. -/
  | commitToken (d : Die) (t : Token)
  /-- R129: The route engine takes a cell's lock state and conditions. -/
  | lockedAck (d : Die) (t : Token)
  /-- R121: A cell applies Table 3.12 to a flank search step. -/
  | flankSeek (d : Die) (t : Token)
  /-- R123: The route engine subtracts the branch weight from FLANK_OPEN. -/
  | flankFound (d : Die) (t : Token)
  /-- R123: A failed flank search gives its reason to the route. -/
  | flankNone (d : Die) (t : Token)
  /-- R137: A cell owned by the route releases its path or overlap lock. -/
  | releaseToken (d : Die) (t : Token)
  /-- R108: Cells clear marks of the named route and kind. -/
  | cancel (d : Die) (t : Token)
  /-- R108: A token of undefined TYPE is discarded and counted. -/
  | tokenTypeInvalid (d : Die) (t : Token)
  /-- R83: At the timer step a cell timer reaches 0 and becomes EXPIRED. -/
  | timerExpired (d : Die) (n k : Nat)
  /-- R356: CLAIM_IN has shown no edge for 150 µs. -/
  | claimInStatic
  /-- R356: CLAIM_IN becomes LIVE or INVALID, and the claim gate blocks a claiming module. -/
  | claimInLive (invalid : Bool)
  /-- R357: The readback of CLAIM_OUT does not match the drive, so the gate blocks. -/
  | claimOutFault
  /-- R359: After 3P or 6P of silence with CLAIM_IN STATIC, a negotiating module enters ACTIVE. -/
  | negotiationTimeout
  /-- R374: After three missing heartbeats with the conditions of Table 12.5, the standby claims and enters ACTIVE. -/
  | takeover
  /-- R372: The active still claims three cycles after YIELD_REQ, so the standby withdraws it. -/
  | yieldRefused
  /-- R376: The partner has shown CLAIMING 1 for 3P with CLAIM_IN STATIC, so CLAIM_LINE is recorded. -/
  | claimLine
  /-- R367: A transfer not complete within 40 cycles is abandoned. -/
  | transferLimit
  /-- R367: 100 cycles after an abandoned transfer, a new transfer starts. -/
  | transferRetry
  /-- R360: Once per hour while both modules show PREFERRED equal, PREF_CONFLICT is written. -/
  | prefConflictRecord
  /-- R393: A reset source has been held for 10 ms and counts as asserted. -/
  | resetAsserted (src : ResetSrc)
  /-- R394: A reset source is released within 2 s, which makes a restart request acted on by mode. -/
  | resetReleased (src : ResetSrc) (si : StartIn)
  /-- R396: A source has been held for 2 s, so RESET_HELD trips and the module is held in reset. -/
  | resetHeld (src : ResetSrc) (ci : CauseIn)
  /-- R396: A source has been held for 60 s and is recorded as stuck. -/
  | resetStuck (src : ResetSrc)
  /-- R395: SHDN# has been held for 10 ms, which makes a shutdown request. -/
  | shdnAsserted (si : StartIn)
  /-- R395: The release of SHDN# starts a module parked in SHUTDOWN. -/
  | shdnReleased (si : StartIn)
  /-- R397: Every held reset source has been released, and a start with full BIST begins. -/
  | resetSourcesFreed (si : StartIn)
  /-- R428: The shutdown tests end, the mark is set on a pass, and the module enters WAKE or parks. -/
  | shutdownBistComplete (tests : TestIn) (bridleOk : Bool) (si : StartIn)
  /-- R389: The S1 cover contact reads open, which sets MAINTENANCE or is stored in DORMANT. -/
  | coverOpen
  /-- R386: The cover contact has read closed for 10 s, which clears MAINTENANCE. -/
  | coverClosed
  /-- R438: The once-per-second read of S1 records SEAL_CHANGED on a change or discrepancy. -/
  | sealRead (contacts : Seal)
  /-- R434: Removal of the carrier is recorded and refuses any staging, activation or change in progress. -/
  | carrierRemoved
  /-- R434: Insertion of a carrier outside DORMANT is recorded. -/
  | carrierInserted (c : Carrier)
  /-- R448: A force ends at the boundary of its EXPIRY cycle. -/
  | forceExpiry (f : ForceEntry)
  /-- R475: A pending first step without a confirm by 60 s is removed. -/
  | pendingExpiry (d : Die) (r : Nat) (e : PendEntry)
  /-- R188: Load word. -/
  | ldw (d : Die) (r : Nat) (rd ra : BitVec 4) (imm : BitVec 18) (ecc : Ecc)
  /-- R188: Load zero-extended halfword. -/
  | ldh (d : Die) (r : Nat) (rd ra : BitVec 4) (imm : BitVec 18) (ecc : Ecc)
  /-- R188: Load zero-extended byte. -/
  | ldb (d : Die) (r : Nat) (rd ra : BitVec 4) (imm : BitVec 18) (ecc : Ecc)
  /-- R188: Store word. -/
  | stw (d : Die) (r : Nat) (rd ra : BitVec 4) (imm : BitVec 18)
  /-- R188: Store halfword. -/
  | sth (d : Die) (r : Nat) (rd ra : BitVec 4) (imm : BitVec 18)
  /-- R188: Store byte. -/
  | stb (d : Die) (r : Nat) (rd ra : BitVec 4) (imm : BitVec 18)
  /-- R188: Load upper immediate. -/
  | lui (d : Die) (r : Nat) (rd : BitVec 4) (imm : BitVec 16)
  /-- R188: Add sign-extended immediate. -/
  | addi (d : Die) (r : Nat) (rd ra : BitVec 4) (imm : BitVec 18)
  /-- R188: AND with zero-extended immediate. -/
  | andi (d : Die) (r : Nat) (rd ra : BitVec 4) (imm : BitVec 16)
  /-- R188: OR with zero-extended immediate. -/
  | ori (d : Die) (r : Nat) (rd ra : BitVec 4) (imm : BitVec 16)
  /-- R188: XOR with zero-extended immediate. -/
  | xori (d : Die) (r : Nat) (rd ra : BitVec 4) (imm : BitVec 16)
  /-- R188: Bitwise AND of two registers. -/
  | andr (d : Die) (r : Nat) (rd ra rb : BitVec 4)
  /-- R188: Bitwise OR of two registers. -/
  | orr (d : Die) (r : Nat) (rd ra rb : BitVec 4)
  /-- R188: Bitwise XOR of two registers. -/
  | xorr (d : Die) (r : Nat) (rd ra rb : BitVec 4)
  /-- R188: AND with the complement of rb. -/
  | andn (d : Die) (r : Nat) (rd ra rb : BitVec 4)
  /-- R188: Add two registers modulo 2^32. -/
  | add (d : Die) (r : Nat) (rd ra rb : BitVec 4)
  /-- R188: Subtract two registers modulo 2^32. -/
  | sub (d : Die) (r : Nat) (rd ra rb : BitVec 4)
  /-- R188: Shift left. -/
  | shl (d : Die) (r : Nat) (rd ra rb : BitVec 4)
  /-- R188: Shift right with zero fill. -/
  | shr (d : Die) (r : Nat) (rd ra rb : BitVec 4)
  /-- R188: Shift right with sign fill. -/
  | sar (d : Die) (r : Nat) (rd ra rb : BitVec 4)
  /-- R188: Set to 1 if the two registers are equal. -/
  | ceq (d : Die) (r : Nat) (rd ra rb : BitVec 4)
  /-- R188: Set to 1 if ra is less than rb, signed. -/
  | clt (d : Die) (r : Nat) (rd ra rb : BitVec 4)
  /-- R188: Set to 1 if ra is less than rb, unsigned. -/
  | cltu (d : Die) (r : Nat) (rd ra rb : BitVec 4)
  /-- R188: Set to 1 if ra equals the immediate. -/
  | ceqi (d : Die) (r : Nat) (rd ra : BitVec 4) (imm : BitVec 16)
  /-- R188: Set to 1 if ra is less than the immediate, unsigned. -/
  | cltui (d : Die) (r : Nat) (rd ra : BitVec 4) (imm : BitVec 16)
  /-- R188: Branch if ra is zero. -/
  | bz (d : Die) (r : Nat) (rd : BitVec 4) (imm : BitVec 18)
  /-- R188: Branch if ra is not zero. -/
  | bnz (d : Die) (r : Nat) (rd : BitVec 4) (imm : BitVec 18)
  /-- R188: Branch if ra equals rb. -/
  | beq (d : Die) (r : Nat) (rd ra : BitVec 4) (imm : BitVec 18)
  /-- R188: Branch if ra differs from rb. -/
  | bne (d : Die) (r : Nat) (rd ra : BitVec 4) (imm : BitVec 18)
  /-- R188: Jump and link. -/
  | jal (d : Die) (r : Nat) (rd : BitVec 4) (imm : BitVec 18)
  /-- R188: Jump to the address in a register. -/
  | jr (d : Die) (r : Nat) (ra : BitVec 4)
  /-- R189: Read a cell record field after the class check. -/
  | crd (d : Die) (r : Nat) (rd ra : BitVec 4) (f : BitVec 5)
  /-- R190: Write a cell record field under the write rules and return a status. -/
  | cwr (d : Die) (r : Nat) (rd ra rb : BitVec 4) (f : BitVec 5)
  /-- R91: Clear cell FAULT bits by W1C, where the rules allow it. -/
  | cfc (d : Die) (r : Nat) (rd ra rb : BitVec 4) (f : BitVec 5)
  /-- R193: Read the SAMPLE reading of a bound input. -/
  | ird (d : Die) (r : Nat) (rd ra : BitVec 4) (k : BitVec 3)
  /-- R193: Set or clear the output share of a bound output. -/
  | owr (d : Die) (r : Nat) (ra rb : BitVec 4) (k : BitVec 3)
  /-- R86: Start an application timer of a cell. -/
  | tst (d : Die) (r : Nat) (ra rb : BitVec 4) (k : BitVec 2)
  /-- R86: Stop an application timer of a cell. -/
  | tsp (d : Die) (r : Nat) (ra : BitVec 4) (k : BitVec 2)
  /-- R164: Emit a drop request for a bound output. -/
  | drop (d : Die) (r : Nat) (ra : BitVec 4) (k : BitVec 3)
  /-- R191: End the task, or deliver the next event source. -/
  | ewait (d : Die) (r : Nat) (rd : BitVec 4)
  /-- R192: Fold a register value into the region's state digest. -/
  | dacc (d : Die) (r : Nat) (ra : BitVec 4)
  /-- R187: An undefined or malformed instruction word traps ILLEGAL. -/
  | illegal (d : Die) (r : Nat) (w : Word)
  /-- R463: QSPI WRITE on one line writes window bytes from an address. -/
  | write (addr : BitVec 24) (bytes : List Byte) (cut : Bool)
  /-- R463: QSPI STATUS returns ERR, IRQ pending and READY, and clears ERR. -/
  | status
  /-- R463: QSPI READ returns window bytes after 8 dummy clocks. -/
  | read (addr : BitVec 24) (count : Nat) (cut : Bool)
  /-- R463: QSPI quad write of window bytes. -/
  | qwrite (addr : BitVec 24) (bytes : List Byte) (cut : Bool)
  /-- R463: QSPI IDENT returns the four identification bytes. -/
  | ident
  /-- R463: QSPI quad read of window bytes after 6 dummy clocks. -/
  | qread (addr : BitVec 24) (count : Nat) (cut : Bool)
  /-- R463: An undefined command byte makes the port ignore the transfer and set ERR. -/
  | portCommandInvalid (code : Byte)
  /-- R464: The port ends a transfer that has lasted 2 ms. -/
  | portTransferTimeout
  /-- R468: A read of WIN.IRQ returns and clears the bits, and releases WIRQ# when none remains. -/
  | winIrqRead
  /-- R470: Outside cycles, request slots are taken once per P on the always-on time base. -/
  | requestPoll
  /-- R473: Bridle core pair 0 completes the signature and counter check of a signed slot. -/
  | signatureCheckDone (slot : Nat)
  /-- R479: A staging page not named by a WRITE within 10 s is returned unchanged. -/
  | stagingPageTimeout (page : Nat)
  /-- R113: A route request is tested and accepted into PROBING, taken as a re-clear, or refused. -/
  | routeSet (d : Die)
  /-- R134: Cancel a route, acted on at EVALUATE by the row for its state. -/
  | routeCancel (d : Die)
  /-- R93: Write a point call under R79 as an application write. -/
  | pointCall (d : Die)
  /-- R93: Change a FREE cell to BLOCKED. -/
  | block (d : Die)
  /-- R93: Change a BLOCKED cell to FREE. -/
  | unblock (d : Die)
  /-- R134: Replace the entrance of a PROVEN route, which falls to LOCKED with REPLACED set. -/
  | signalReplace (d : Die)
  /-- R475: The first step of an emergency release records a pending entry. -/
  | emergRelease (d : Die)
  /-- R475: A confirm within 5 s to 60 s takes the route or proxy to APPROACH_LOCKED or RELEASING. -/
  | emergReleaseConfirm (d : Die)
  /-- R475: The first step of a section restore records a pending entry. -/
  | sectionRestore (d : Die)
  /-- R93: A timely confirm replaces DISTURBED by the value the bound inputs give. -/
  | sectionRestoreConfirm (d : Die)
  /-- R446: Add or replace a force entry, with permissive forces allowed only under R447. -/
  | forceSet (d : Die)
  /-- R446: Remove a force entry. -/
  | forceClear (d : Die)
  /-- R491: Write a CLEAR record from which window readers start. -/
  | clearRecorder (slot : Nat)
  /-- R455: Erase the target slot and the new-format area, cancelling a pending activation. -/
  | stageUpdateOpen (slot : Nat)
  /-- R455: Program staging pages into the target slot and read them back. -/
  | stageUpdateWrite (slot : Nat)
  /-- R455: Check the staged slot, and with ACTIVATE write a PENDING entry. -/
  | stageUpdateClose (slot : Nat)
  /-- R461: Confirm the trial slot, raise CONF_VER, blow fuse steps and rewrite persistent data. -/
  | confirmUpdate (slot : Nat)
  /-- R440: Test a change request, and on acceptance set CHANGE and begin loading. -/
  | onlineChange (d : Die)
  /-- R379: Ask the active module to offer a handover to a ready partner. -/
  | handover (d : Die)
  /-- R471: A request with an undefined CMD is returned BAD_RECORD. -/
  | requestCmdUndefined (slot : Nat)
  /-- R489: A recorder page handed to the device is filled with records and handed back within 20 ms. -/
  | recorderPageRequest (page : Nat)
  /-- R483: The tail controller completes programming a record with its SEQ and MARK. -/
  | tailRecordWritten
  /-- R487: An erase of the log block ahead of the newest record completes. -/
  | tailBlockErased
  /-- R485: A suppressed count that has stood uncarried for 60 s is written as a SUPPRESSED record. -/
  | suppressedSummary (code : BitVec 16)
  /-- R488: Every 60 s the time base is written back to the RTC. -/
  | rtcWriteback
  /-- R322: Set the mark of a spool at the present read position. -/
  | spoolMark (sp : SpoolId)
  /-- R322: Set the read position of a spool back to the mark. -/
  | spoolRewind (sp : SpoolId)
  /-- R322: Free every item before the mark of a spool. -/
  | spoolRelease (sp : SpoolId)
  /-- R316: Abort the open packet of a spool and free its slot. -/
  | spoolAbort (sp : SpoolId)
  /-- R312: Restart a check unit with its SET and fold, or refuse and set ERR. -/
  | checkRestart (u : CuId) (writer : CorePair) (set_ : BitVec 2) (foldLen : BitVec 4)
  /-- R311: Feed 4 bytes into a check unit in its set's byte order. -/
  | checkData (u : CuId) (writer : CorePair) (w : Word)
  /-- R311: Feed 1 byte into a check unit. -/
  | checkData8 (u : CuId) (writer : CorePair) (b : Byte)
  /-- R311: Compare a value with the result and set MATCH or MISMATCH. -/
  | checkExpect (u : CuId) (writer : CorePair) (w : Word)
  /-- R311: Latch the high word of a 64-bit comparison. -/
  | checkExpectHi (u : CuId) (writer : CorePair) (w : Word)
  /-- R312: A write to a register with no row of its own, such as RUN, COUNT, FOLD or a W1C status bit. -/
  | registerWrite (q : RegWrite)
  /-- R497: A counter wraps, sets OVF, reloads if sampling and posts 0xC8 + n. -/
  | pmcOverflow (d : Die) (r n : Nat) (skidPc : Option (BitVec 17)) (ended : Bool)
  /-- R496: A read of PMC.CYC_LO latches CYC bits 63:32 into PMC.CYC_HI. -/
  | pmcCycLoRead (d : Die) (r : Nat)
  /-- R455: A background erase, program or read-back of the carrier by bridle core pair 0 completes, and the request
  slot that asked for it is handed back with its result. -/
  | carrierWriteComplete (done : CarrierDone)
  /-- R288: An ARP reply from a peer is taken and resolves that peer's hardware address for sending. -/
  | arpReply (p : Port) (ip : Word)
  /-- R287: A PHY completes auto-negotiation, and the port comes up at 1000 Mb/s full duplex, which starts the link
  clock, or it is held down for any other mode. -/
  | portUp (p : Port) (phy : PhyMode)
  /-- R287: A port loses its physical link, and the link clock stops once no configured port is up. -/
  | portDown (p : Port)
  /-- R265: A measurement of a group's field supply falls below 17.4 V, which suspends readback comparison and test
  steps of the group and stops resets of its undervoltage count. -/
  | supplySag (g : Nat) (q : SupplyIn)
  deriving DecidableEq, Repr

end Sys2Proof
end

