-- ==== Sys2Proof/Decode.lean ====
section
/-!
DEFINITION. The opcode table gives the commands no bits: a command arrives as an event, a request or a telegram, not as a
word. No word spells one.
-/

namespace Sys2Proof

/-- The command that a word spells by the table's bits: none, since no row gives bits. -/
def decodeTableWord (_nbits _w : Nat) : Option Instr := none

end Sys2Proof
end

