-- ==== Sys2Proof/Machine/State.lean ====
section
/-!
DEFINITION. The state of the module as plain data, with its queue of waiting commands, the state right after reset, and the
faults and refusals of the model.
-/

namespace Sys2Proof.Machine

/-- Where a start stands (14 Table 14.1): none, waiting for the BIST of the bridle (step 2), for the units of step 7, for the
first boundary (step 8), or in its cycles (step 9). -/
inductive StartPhase where
  | idle
  | bridleBist
  | unitBist (left : List BistUnit)
  | ready
  | cycles
  deriving DecidableEq, Repr

/-- Where a shutdown stands (14 Table 14.5): none, the units of step 3 outstanding and whether one has failed, or parked. `forRestart`:
it ends in WAKE. `last`: the last cycle number before SHUTDOWN. -/
inductive ShutPhase where
  | none
  | testing (left : List BistUnit) (failed : Bool) (forRestart : Bool) (last : Word)
  | parked
  deriving DecidableEq, Repr

/-- A module. -/
structure State where
  /-- Commands waiting, first in first out. -/
  pending : List Instr
  /-- Major mode (13 Table 13.1) and overlays (13 Table 13.3). -/
  mode : Mode
  overlays : Overlays
  /-- SAFE with reset held (13 R384, R397), the code of a refused start and its bridle-failure form (14 R412). -/
  heldForm : Bool
  refused : BitVec 8
  /-- The channel domains are off since the trip (13 R398). -/
  coresOff : Bool
  /-- The trip cause lines' first cause has fired in this run; the SAFE entry's time (13 R398). -/
  tripAt : Nat
  start : StartPhase
  startIn : Option StartIn
  fullBist : Bool
  shut : ShutPhase
  /-- The always-on domain. -/
  ao : AoSt
  /-- Cycle number (04 R143), boundaries since the start, their offset steering (11 R332, 12 R363) and a time-base fault. -/
  cycle : Word
  boundaries : Nat
  slkAdjust : Int
  firstBoundaryMs : Nat
  /-- The running STATION part with the slot it was loaded from. -/
  part : StationPart
  partSlotB : Bool
  /-- Digest of the firmware that runs (14 Table 14.4, FW_DIGEST). -/
  fwDigest : BitVec 256
  loaded : Bool
  /-- The carrier, the version record with the fuses, and the shutdown BIST record. -/
  carrier : Option Carrier
  versions : VersionSt
  bist : BistRecord
  /-- The record key, while PD2 holds it (14 R421). -/
  recordKey : Option (BitVec 256)
  /-- The three channel dies. -/
  dies : Tri DieSt
  /-- The voter, the copies and the drops. -/
  vote : VoteSt
  /-- Field inputs and outputs, and the image frozen at the latest boundary. -/
  ins : InSt
  outs : OutSt
  frozen : Image
  /-- Gate clamps that have acted, by switch: 2 × output, and + 1 for the low side (06 R223). All act before the first edge. -/
  clampOpen : List (Nat × Bool)
  /-- Switches that are fed and whose pump has seen no edge within the last 8 µs, numbered alike. -/
  edgeLost : List (Nat × Bool)
  /-- Links, check units, and the highest CYCLE + 2 taken from the own station system (14 R413). -/
  links : LinksSt
  unitWin : CheckUnit
  unitCar : CheckUnit
  alignTo : Option Word
  /-- Territories that are lost or not yet reconciled (11 R330, R353); addresses of the modules that are lost as owners of BOUNDARY
  cells (02 R101); positions of the modules whose FIELD link is lost (11 R351). -/
  lostTerr : List Nat
  lostOwners : List Nat
  lostFields : List Nat
  /-- Times of the latest telegram per module, and of the latest CYCLE_APART record (11 R333). -/
  apart : List (Nat × Word)
  apartAt : Option Nat
  /-- The tether. -/
  tether : TetherSt
  /-- Force table of the bridle (15 R446), online change, update. -/
  forces : List ForceEntry
  change : ChangeSt
  update : UpdateSt
  /-- The gateway window. -/
  win : WinSt
  /-- The tail recorder. -/
  tail : TailSt
  /-- Bridle fault counters by number (17 Table 17.10), and a counter setup that waits for the next cycle start (19 R501). -/
  faultCounts : List (Nat × Nat)
  pmcSetup : Option (List Word)
  /-- The setup that the present cycle-start message carries. -/
  pmcWith : Option (List Word)
  pmcActive : List Word
  pmcSamples : List Word
  /-- Counter values that the supervisors have read at COMMIT for the mirror (19 R502), by word of the mirror. -/
  pmcRead : List (Nat × Word)
  pmcLost : Nat
  /-- Rotation count of each die (14 R426). -/
  rotations : Tri Nat
  deriving DecidableEq, Repr

/-- A die as it leaves reset, with its strap: every cell UNUSED, every table empty, nothing running. -/
def dieReset (strap : BitVec 2) : DieSt :=
  { strap := strap, phase := 0, fastClock := false, runsPhases := false, abandoned := false, wakeLate := false, cycleNo := 0,
    dsCycle := 0, dsMode := 0x00010000,
    image := { read := 0, fault := 0, disc := 0, fell := 0, group := 0, outStatus := [] },
    cells := [], shadow := [], routeMem := [], proxyMem := [], profiles := [], active := false, routes := [], work := [],
    wave := .none, propDone := false, waveCut := false, refreshCut := false, outboxes := [], flights := [], credits := [],
    xbarPtr := [], switchPtr := [], spinePtr := 0, directory := [], steps := [],
    zoneOut := [], undefTokens := 0, dieFaults := 0, faultLog := [], accepted := 0, rank := 0, terrOut := [], todo := [], reconcile := [],
    evSpool := spEmpty 0, units := [], evDiscards := 0, restoredRun := [], mirrors := [], fields := [], shareRecs := [], dirtyCells := [], slicePtr := 0, sliceStep := [],
    sliceRun := none, sliceFail := [], slicePassed := 0, migrateDue := [], migrateCopied := [], pmcFreeze := false,
    logOut := [], regions := Vector.replicate 16 regionReset }

/-- The strap identities of dies A, B and C (01 Table 1.3). -/
def diesReset : Tri DieSt := { a := dieReset 1, b := dieReset 2, c := dieReset 3 }

/-- No shutdown BIST record. -/
def bistNone : BistRecord :=
  { m0 := -1, aoSec := 0, cycle := 0, count := 0, fwDigest := 0, results := 0, mac := 0 }

/-- The frozen image before the first boundary. -/
def imageReset : Image := { read := 0, fault := 0, disc := 0, fell := 0, group := 0, outStatus := [] }

/-- The module as shipped, unpowered, with the carrier that Gomosol delivers (00 R3, R4) and an empty queue. -/
def State.reset : State :=
  { pending := [], mode := .dormant, overlays := overlaysClear, heldForm := false, refused := 0, coresOff := false, tripAt := 0,
    start := .idle, startIn := none, fullBist := false, shut := .none, ao := aoReset, cycle := 0, boundaries := 0,
    slkAdjust := 0, firstBoundaryMs := 0, part := stationNone, partSlotB := false, fwDigest := 0, loaded := false,
    carrier := some carrierShipped, versions := versionReset, bist := bistNone, recordKey := none, dies := diesReset, vote := ballotReset,
    ins := inStReset, outs := outStReset, frozen := imageReset, clampOpen := [], edgeLost := [], links := linksReset,
    unitWin := checkUnitReset, unitCar := checkUnitReset, alignTo := none, lostTerr := [], lostOwners := [], lostFields := [], apart := [],
    apartAt := none, tether := tetherReset, forces := [], change := changeReset, update := updateReset, win := winReset,
    tail := tailReset, faultCounts := [], pmcSetup := none, pmcWith := none, pmcActive := [], pmcSamples := [], pmcRead := [], pmcLost := 0,
    rotations := triAll 0 }

/-- Faults of the model: the spec gives the block no behaviour without effect, so no command raises one. -/
inductive Fault where
  /-- Raised by no command; kept so that the type has a name to report. Safe: a stop allows no false claim. -/
  | none
  deriving DecidableEq, Repr

/-- Refusals of the model. -/
inductive Refusal where
  /-- A command whose meaning is not modelled, by its mnemonic; raised by an arm of `exec` alone. Safe. -/
  | notModelled (mnemonic : String)
  deriving DecidableEq, Repr

end Sys2Proof.Machine
end

