-- ==== Sys2Proof/Machine/Ops.lean ====
section
/-!
DEFINITION. Operations over the whole module that several commands share: addresses and contexts, records to the tail, mode and
overlay changes (13 R383, R386), exclusions (06 R215), claims (12 R355), trips (06 R226, R230) and the abandonment of what a
stop of the cycles ends (13 R385).
-/

namespace Sys2Proof.Machine

/-! ## Parts of the state -/

/-- A die of the module. -/
def dieOf (s : State) (d : Die) : DieSt := triGet s.dies d
/-- Change one die. -/
def onDie (d : Die) (f : DieSt → DieSt) (s : State) : State := { s with dies := triMod s.dies d f }
/-- Change every die. -/
def onDies (f : Die → DieSt → DieSt) (s : State) : State := { s with dies := triMap s.dies f }
def onVote (f : VoteSt → VoteSt) (s : State) : State := { s with vote := f s.vote }
def onAo (f : AoSt → AoSt) (s : State) : State := { s with ao := f s.ao }
def onWin (f : WinSt → WinSt) (s : State) : State := { s with win := f s.win }
def onTail (f : TailSt → TailSt) (s : State) : State := { s with tail := f s.tail }
def onLinks (f : LinksSt → LinksSt) (s : State) : State := { s with links := f s.links }
def onTether (f : TetherSt → TetherSt) (s : State) : State := { s with tether := f s.tether }
def onOuts (f : OutSt → OutSt) (s : State) : State := { s with outs := f s.outs }
def onIns (f : InSt → InSt) (s : State) : State := { s with ins := f s.ins }

/-- Module position and station number as latched (15 R437). -/
def stationNo (s : State) : BitVec 12 := sealStation s.ao.latched
def modulePos (s : State) : BitVec 6 := sealPosition s.ao.latched
/-- Module address (09 R290). -/
def moduleAddr (s : State) : BitVec 18 := stationNo s ++ modulePos s
/-- The S1 switch PREFERRED as latched. -/
def preferredSw (s : State) : Bool := bitOf s.ao.latched (swPREFERRED - 1)
/-- A permit switch at its moment of use; a discrepancy reads as off (14 R411). -/
def permitOn (s : State) (n : Nat) : Bool := switchOn s.ao.contacts n
/-- P in ms. -/
def periodOf (s : State) : Nat := s.part.params.period
/-- The partner's module position. -/
def partnerPos (s : State) : Option Nat := partnerOf s.part (modulePos s).toNat
/-- The link to the partner. -/
def partnerLink (s : State) : Option Nat := (partnerPos s).bind (linkToModule s.part)
/-- ROLE of the module: 1 is FIELD. -/
def ownRole (s : State) : Nat := sysRole (sysWord s.part (modulePos s).toNat)
/-- Own territory. -/
def ownTerr (s : State) : Nat := sysTerr (sysWord s.part (modulePos s).toNat)
/-- Key position: the lower module position of the pair (01 Table 1.8). -/
def keyPosOf (s : State) : Nat :=
  match partnerPos s with
  | some q => min q (modulePos s).toNat
  | none => (modulePos s).toNat
/-- This module counts as the preferred of its pair (12 R360): equal switches leave the lower position. -/
def isPreferred (s : State) : Bool :=
  match s.tether.heart, partnerPos s with
  | some h, some q => if h.preferred == preferredSw s then decide ((modulePos s).toNat < q) else preferredSw s
  | _, _ => preferredSw s

/-- Cycles run in the mode: WAKE after its first boundary, ACTIVE and STANDBY (13 Table 13.1). -/
def cyclesRun (s : State) : Bool :=
  match s.mode with
  | .active | .standby => true
  | .wake => decide (s.start = .cycles)
  | _ => false

/-- A transfer holds the receiver's regions halted, up to the restart that ends it (12 R367). -/
def xferHalted (s : State) : Bool :=
  decide (s.tether.held ≠ triAll 0) || (match s.tether.recv with
    | .receiving _ | .retry _ => true
    | _ => false)

/-- The bridle's logic runs: not DORMANT, and not held in reset. -/
def bridleRuns (s : State) : Bool := decide (s.mode ≠ .dormant) && !s.heldForm
/-- The links run: the bridle runs and a STATION part is loaded. -/
def linksRun (s : State) : Bool := bridleRuns s && s.loaded

/-- What the fabric of a die takes from the module. -/
def ctxOf (s : State) : Ctx :=
  { station := (stationNo s).toNat, modulePos := (modulePos s).toNat, keyPos := keyPosOf s, periodMs := periodOf s,
    running := decide (s.mode = .active) || decide (s.mode = .standby), isActive := decide (s.mode = .active),
    territory := s.part.system.foldl (fun m p => putA 0 p.1 (sysTerr p.2) m) [], lostTerr := s.lostTerr,
    lostOwners := s.lostOwners, lostFields := s.lostFields, fieldRole := decide (ownRole s = 1), budgetIn := 50000 * s.part.params.budgetIn, budgetOut := 50000 * s.part.params.budgetOut }

/-- What the links take from the module. -/
def linkCxOf (s : State) : LinkCx :=
  { part := s.part, addr := moduleAddr s, ms := s.ao.ms, cycle := s.cycle,
    safe := decide (s.mode = .safe) || decide (s.mode = .shutdown) }

/-- The claim gate passes the pump clocks (12 R357). -/
def claimGate (s : State) : Bool := s.ao.claimEn && s.ao.claimOutOk && decide (s.ao.claimIn = .static)

/-- What the outputs take from the module. -/
def outCxOf (s : State) : OutCx :=
  { claims := s.ao.claimEn, fired := s.ao.tripLatch, dropped := (s.vote.drops.map (·.1)), safe := decide (s.mode = .safe),
    ms := s.ao.ms }

/-! ## The tail -/

/-- What a record takes as it enters the staging spool. -/
def stampOf (s : State) : Stamp := { mode := modeCode s.mode, cycle := s.cycle, ms := s.ao.ms, rates := s.part.rates }

/-- A record of a hardware producer. -/
def logPut (q : LogReq) (s : State) : State := onTail (tailPut true (stampOf s) q 0) s
/-- A record of a core pair, which waits on a full spool (18 R487). -/
def logCore (q : LogReq) (s : State) : State := onTail (tailPut false (stampOf s) q 0) s
/-- Records in order. -/
def logAll (qs : List LogReq) (s : State) : State := qs.foldl (fun s q => logPut q s) s
/-- A record of the bridle whose DATA the spec does not state: a free value of what the source knows. -/
def logOpen (code : BitVec 16) (unit_ place index : Nat) (known : BitVec 64) (s : State) : State :=
  logPut { code := code, unit_ := BitVec.ofNat 4 unit_, place := BitVec.ofNat 4 place, index := BitVec.ofNat 8 index,
           data := Config.recordData code known } s
/-- A record with stated DATA. -/
def logData (code : BitVec 16) (unit_ place index : Nat) (data : BitVec 64) (s : State) : State :=
  logPut { code := code, unit_ := BitVec.ofNat 4 unit_, place := BitVec.ofNat 4 place, index := BitVec.ofNat 8 index,
           data := data } s

def unBRIDLE : Nat := 4
def unAO : Nat := 7

/-- Records that a die has raised reach the tail by way of the bridle. -/
def takeDieLogs (d : Die) (s : State) : State :=
  let qs := (dieOf s d).logOut
  if qs.isEmpty then s else logAll qs (onDie d (fun x => { x with logOut := [] }) s)

/-- A bridle fault counter. -/
def countFault (n : Nat) (s : State) : State := { s with faultCounts := putA 0 n (getA 0 s.faultCounts n + 1) s.faultCounts }
def bfCheckUnit : Nat := 0
def bfPmcSetup : Nat := 1
def bfDivergence : Nat := 2
def bfTransfer : Nat := 3
def bfPayload : Nat := 4
def bfSpool : Nat := 5
def bfField : Nat := 6

/-- Faults that the spools of the bridle have counted (10 R316, R317, R319, R322). -/
def bridleSpoolFaults (s : State) : Nat :=
  ((s.links.txS ++ s.links.txD ++ s.links.rxS).map (fun q => q.2.faults)).sum + s.tail.staging.faults

/-- The bridle's fault counters, those of its spools included. -/
def bridleFaults (s : State) : List (Nat × Nat) := putA 0 bfSpool (bridleSpoolFaults s) s.faultCounts

/-- A die's fault counter, with those of its spools. -/
def dieFaultCount (x : DieSt) : Nat := x.dieFaults + x.evSpool.faults + (x.outboxes.map (fun q => q.2.faults)).sum

/-! ## Events to every region -/

/-- Post a source with the present cycle number to every region of every die (05 R183). -/
def postEvery (src : Nat) (s : State) : State := onDies (fun _ x => postAll src x) s

/-! ## Overlays and modes -/

/-- Replace the overlays, as the mode lets them change (13 R390): each change of one posts 0xC6 and writes a record (13 R386). -/
def setOverlays (q : Overlays) (s : State) : State :=
  let o := overlaysIn s.mode s.overlays q
  if o = s.overlays then s
  else
    logOpen cdOVERLAY unBRIDLE 0 0 ((overlayBits s.overlays ++ overlayBits o : BitVec 12).setWidth 64)
      (postEvery 0xC6 { s with overlays := o })

/-- WIN.MODE and WIN.CYCLE are rewritten at each boundary and at each mode change (17 R466). -/
def winHeader (s : State) : State :=
  onWin (fun w => { w with modeW := modeWord s.mode s.overlays, cycleW := s.cycle,
                           moduleW := (b2v (preferredSw s) ++ b2v s.ao.claimEn ++ 0#12 ++ moduleAddr s : BitVec 32) }) s

/-- Change the major mode (13 R383): a record, 0xC6 and the header. -/
def setMode (m : Mode) (s : State) : State :=
  if s.mode = m then s
  else
    winHeader (logOpen cdMODECHANGE unBRIDLE 0 0 ((modeCode s.mode ++ modeCode m : BitVec 6).setWidth 64)
      (postEvery 0xC6 { s with mode := m }))

/-- CLAIM_EN is set; in ACTIVE alone it stays set (12 R355). The readback is judged anew from here. -/
def setClaim (s : State) : State := onAo (fun a => { a with claimEn := true, claimOutOk := true }) s
/-- CLAIM_EN is cleared. -/
def clearClaim (s : State) : State := onAo (fun a => { a with claimEn := false }) s

/-- Abort a change that has not switched (15 R445): CHANGE clears and the code is kept for the diagnostic pages. -/
def abortChange (code : BitVec 8) (s : State) : State :=
  if s.change.phase = .none then s
  else
    logOpen cdCHANGE unBRIDLE 0 0 (code.setWidth 64)
      (setOverlays { s.overlays with change := false }
        { s with change := { s.change with phase := .none, code := code, loaded := triAll false } })

/-- A transfer is under way, in either direction. -/
def transferOn (t : TetherSt) : Bool :=
  match t.send, t.recv with
  | .passing .., _ | .finalSent .., _ | _, .receiving _ => true
  | _, _ => false

/-- A transfer that is under way and is given up leaves its record (12 R367). -/
def recordAbandoned (s : State) : State :=
  onTail (fun t =>
    if transferOn s.tether then
      tailPut true (stampOf s) { code := cdTRANSFER, unit_ := BitVec.ofNat 4 unBRIDLE, place := 0, index := 2,
                                 data := Config.recordData cdTRANSFER 0 } 0 t
    else t) s

/-- Abort a transfer in either direction (13 R385). -/
def abortTransfer (s : State) : State :=
  onTether (fun t => { t with send := .idle, recv := .none, gotRoutes := false, gotModule := none, gotEnd := false }) (recordAbandoned s)

/-- What stops with the cycles, on entry to SAFE or SHUTDOWN (13 R385, 06 R228): the claim, the watchdog, a change, a transfer,
every phase of every die. -/
def stopCycles (s : State) : State :=
  let s1 := clearClaim (abortTransfer (abortChange chABORTED s))
  let s2 := onAo (fun a => { a with wdArmed := false, autoWait := none }) s1
  onDies (fun _ x => { discardTokens x with phase := phIDLE, fastClock := false, runsPhases := false, wave := .none, todo := [],
                                            sliceRun := none }) { s2 with start := .idle }

/-! ## Copies (06 R215, R216) -/

/-- Code of an exclusion's cause for the tail record. -/
def exclCode : ExclCause → Nat
  | .minority => 0
  | .differs => 1
  | .missLimit => 2
  | .halted => 3
  | .slice => 4
  | .clock => 5

/-- Exclude a copy: DEGRADED is set, a change that has not switched is aborted, and a record is written (06 R215; 13 R391). -/
def excludeCopy (d : Die) (r : Nat) (c : ExclCause) (s : State) : State :=
  if isExcluded (copyOf s.vote d r) then s
  else
    let s1 := onVote (modCopy d r (fun q => { q with excluded := some c, rejoin := .none })) s
    let s2 := abortChange chABORTED (setOverlays { s1.overlays with degraded := true } s1)
    logOpen cdEXCLUDED (strapIdent (dieOf s d)) r 0 (BitVec.ofNat 64 (exclCode c)) s2

/-- Halt a region (01 R39) until the copy re-joins: its pair executes nothing, and its tokens fall. -/
def haltRegion (d : Die) (r : Nat) (s : State) : State :=
  onDie d (fun x => idleClock (dropRegion r (modReg x r (fun g => { g with halted := true, task := 0, revert := false })))) s

/-! ## Trips (06 R225 to R232) -/

/-- The cause line of a cause as it fires. -/
def fireLine (c : Cause) (l : BitVec 2) (a : AoSt) : AoSt := { a with causeLines := putA (2 : BitVec 2) (causeBit c) l a.causeLines }

/-- Causes whose line does not read 0b10, by their bits. -/
def activeCauses (l : List (Nat × BitVec 2)) : BitVec 8 :=
  l.foldl (fun m p => if p.2 = 2 then m else setBitOf m p.1 true) 0

/-- The trip record of a cause (06 Table 6.8): FIRST holds every cause active. -/
def tripRecord (s : State) (kind : BitVec 4) (c : Cause) (region : Nat) (detail : BitVec 8) (avail : BitVec 4) : TripRec :=
  { kind := kind, autoCount := BitVec.ofNat 4 (min 3 (autoCount s.ao)), secondary := 0, first := setBitOf (activeCauses s.ao.causeLines) (causeBit c) true,
    cycle := s.cycle, region := BitVec.ofNat 4 region, detail := detail, avail := avail, aoTime := aoTime s.ao }

/-- The tail's copy of a trip record (18 Table 18.3, group 2). -/
def logTrip (t : TripRec) (s : State) : State :=
  let w := tripWords t
  onTail (tailPut true (stampOf s)
    { code := if t.kind = 1 then cdTRIP else cdPOWERLOSS, unit_ := 7, place := t.region, index := t.detail,
      data := w.getD 1 0 ++ w.getD 0 0 } (t.avail.setWidth 16)) s

/-- Gate drive is gone: the pump clocks stop and every clamp acts (06 R223, R226); the command latches stay (08 Table 8.2). -/
def removeDrive (s : State) : State :=
  let s1 := onAo (fun a => { a with pumpRun := false }) { s with clampOpen := [], edgeLost := [] }
  onOuts (refreshAllE (outCxOf s1)) s1

/-- SAFE in its tripped form. -/
def enterSafe (s : State) : State := setMode .safe (stopCycles { s with shut := .none })

/-- A trip qualifies for an automatic restart (06 R232). -/
def tripQualifies (c : Cause) (s : State) : Bool := decide (c ≠ .resetHeld) && decide (autoCount s.ao < 3)

/-- A cause that arises within 10 µs after the latch was set, in this ms by the module's count (06 R230). -/
def joinsTrip (q : CauseIn) (s : State) : Bool :=
  s.ao.tripLatch && decide (s.mode ≠ .wake) && decide (s.tripAt ≠ 0) && decide (s.ao.ms ≤ s.tripAt) && decide (q.us ≤ 10)

/-- A trip cause whose line does not read 0b10 (06 R225, R226, R230). Within 10 µs of a trip it joins SECONDARY of its record. A
LOGIC_SUPPLY cause that finds no gate drive writes POWER_LOSS and leaves the latch. With the latch set nothing more fires. Otherwise the
latch is set, the record is written and the module enters SAFE. -/
def tripBy (q : CauseIn) (c : Cause) (region : Nat) (detail : BitVec 8) (avail : BitVec 4) (s : State) : State :=
  if s.mode = .dormant || q.line = 2 then s
  else if joinsTrip q s then
    onAo (fun a => { fireLine c q.line a with tripHist := match a.tripHist.getLast? with
      | some t => a.tripHist.dropLast ++ [{ t with secondary := setBitOf t.secondary (causeBit c) true }]
      | none => [] }) s
  else if c = .logicSupply && (decide (s.mode = .safe) || decide (s.mode = .shutdown) ||
      (decide (s.mode = .wake) && !s.ao.pumpRan)) then
    let t := tripRecord s 2 c region detail avail
    logTrip t (onAo (pushTrip s.tail.running t) s)
  else if s.ao.tripLatch && decide (s.mode ≠ .wake) then onAo (fireLine c q.line) s
  else
    let t := tripRecord s 1 c region detail avail
    let w := tripQualifies c s
    let s1 := removeDrive (onAo (fun a => { pushTrip s.tail.running t (fireLine c q.line a) with tripLatch := true })
      { s with tripAt := s.ao.ms + 1 })
    let s2 := logTrip t (enterSafe s1)
    onAo (fun a => { a with autoWait := if w then some { since := a.ms, overtemp := decide (c = .overtemp) } else none }) s2

/-- A cause that the module itself finds. -/
def tripNow (c : Cause) (region : Nat) (detail : BitVec 8) (avail : BitVec 4) (s : State) : State :=
  tripBy causeNow c region detail avail s

/-! ## Link ports (09 R287, R288) -/

/-- A configured port of the STATION part (09 R289). -/
def portUsed (s : State) (p : Port) : Bool := decide ((partPort s.part p).ip ≠ 0) && s.loaded

/-- Links that use a port. -/
def linksOn (s : State) (p : Port) : List Nat := (validLinks s.part).filter (fun n => (linkPorts (linkOf s.part n)).contains p)

/-- Ask for the hardware address of every peer on a port, and note when. -/
def askPeers (p : Port) (s : State) : State :=
  onLinks (fun x => { x with arpAt := putA 0 (portIndex p) (s.ao.ms + 1) x.arpAt, asked := (linksOn s p).foldl (fun m n => putA false (4 * n + portIndex p) true m) x.asked }) s

/-- The link clock runs while a configured port is up. -/
def linkClock (s : State) : State :=
  onLinks (fun x => { x with clock := allPorts.any (fun p => portUsed s p && getA false x.up (portIndex p)) }) s

/-- The STATION part is loaded: an unused port's PHY is powered down, and the ports that have come up ask for their peers. -/
def startPorts (s : State) : State :=
  let s1 := linkClock (onLinks (fun x => { x with up := allPorts.foldl (fun m p =>
    putA false (portIndex p) (portUsed s p && getA false x.up (portIndex p)) m) [] }) s)
  (allPorts.filter (fun p => getA false s1.links.up (portIndex p))).foldl (fun s p => askPeers p s) s1

/-! ## Outputs -/

/-- The pump of a switch is fed: the ripcord has not fired, the module claims through its gate, no drop holds the output, and the
command latch of the switch is set (06 R222, R223; 04 R164). -/
def pumpFed (s : State) (o : Nat) (high : Bool) : Bool :=
  let c := outCell s.outs o
  (if high then c.latchH else c.latchL) && s.ao.pumpRun && !s.ao.tripLatch && claimGate s && !isDropped s.vote o

/-- A switch by its number. -/
def switchNo (o : Nat) (high : Bool) : Nat := 2 * o + (if high then 0 else 1)

/-- Every gate clamp as its conditions stand (06 R223): it holds the gate off unless the pump of its switch is fed and has seen an edge within
the last 8 µs. A switch that is no longer fed starts with a first edge when it is fed again (log entry 62). -/
def refreshClamps (s : State) : State :=
  let sw : List (Nat × Bool) := (numsFrom 0 96).flatMap (fun o => [(o, true), (o, false)])
  let lost := sw.foldl (fun m q =>
    putA false (switchNo q.1 q.2) (getA false s.edgeLost (switchNo q.1 q.2) && pumpFed s q.1 q.2) m) []
  { s with edgeLost := lost,
           clampOpen := sw.foldl (fun m q =>
             putA false (switchNo q.1 q.2) (pumpFed s q.1 q.2 && !getA false lost (switchNo q.1 q.2)) m) [] }

/-- Change the outputs with their tail records; the clamps follow. -/
def onOutsLog (f : OutCx → OutSt → OutSt × List LogReq) (s : State) : State :=
  let r := f (outCxOf s) s.outs
  logAll r.2 (refreshClamps { s with outs := r.1 })

/-- Bring every E and every clamp up to date with the module. -/
def refreshOuts (s : State) : State := refreshClamps (onOuts (refreshAllE (outCxOf s)) s)

/-- An output is bound with PARALLEL 1 by a live cell of the module. -/
def parallelOuts (p : StationPart) : BitVec 96 :=
  p.cells.foldl (fun (m : BitVec 96) q =>
    if isLive q.2 && !bindRemote q.2 && bindParallel q.2 then (boundOuts q.2).foldl (fun m o => setBitOf m o true) m else m) 0

/-- The module is HEALTHY (12 R368). -/
def isHealthy (s : State) : Bool :=
  let par := (numsFrom 0 96).filter (bitOf s.outs.parallel)
  (decide (s.mode = .standby) || decide (s.mode = .active)) &&
    healthyFlags s.overlays.degraded (par.all (fun o => !(groupSt s.outs (outGroup o)).cut))
      (par.all (fun o => decide ((outCell s.outs o).kind = fkNONE))) s.tether

/-- The partner is ready to take over (12 R379, 13 R394). -/
def partnerReady (s : State) : Bool :=
  match s.tether.heart with
  | some h => h.standby && h.healthy && h.inStep && decide (h.shadow = 32)
  | none => false

end Sys2Proof.Machine
end

