-- ==== Sys2Proof/Machine/Counters.lean ====
section
/-!
DEFINITION. Performance counters in the module (19): overflow and samples, the read at COMMIT and the mirror.
-/

namespace Sys2Proof.Machine

/-- Fields of the setup in use: SAMPLE_PAIR, MIRROR and FREEZE (19 Table 19.5). -/
def pmcPair (ws : List Word) : Nat := ((ws.getD 0 0).extractLsb' 18 6).toNat
def pmcMirrorOn (ws : List Word) : Bool := bitOf (ws.getD 0 0) 17
def pmcFreezeOn (ws : List Word) : Bool := bitOf (ws.getD 0 0) 16

/-- Selectors that Table 19.1 defines. -/
def pmcSelOk (c : Nat) : Bool := [0, 1, 2, 3, 4, 8, 9, 0xA, 0xB, 0xC, 0x10, 0x11, 0x12, 0x13, 0x14, 0x15, 0x16, 0x18, 0x19].contains c

/-- A setup that R501 accepts: 48 bytes, FUNC 0x40, defined selectors, reserved bits 0, SAMPLE_PAIR up to 47. -/
def pmcSetupOk (ws : List Word) : Bool :=
  let w := fun (k : Nat) => ws.getD k 0
  decide (ws.length = 12) && decide ((w 0).extractLsb' 24 8 = 0x40) && decide ((w 0).extractLsb' 0 8 = 0) && decide (w 3 = 0) &&
    decide (pmcPair ws ≤ 47) &&
    (numsFrom 0 4).all (fun n => pmcSelOk ((w 1).extractLsb' (8 * n) 8).toNat && pmcSelOk ((w 2).extractLsb' (8 * n) 8).toNat)

/-- Events that the model counts as they occur: every other selector counts clocks. -/
def pmcCounted (c : Nat) : Bool := [1, 8, 9, 0xA, 0xB, 0x11, 0x16, 0x18].contains c

/-- The counters of a pair as they stand now: CYC and the counters of clocks have advanced by the clocks that passed since their
last read, a free value; the pair of a region that halted before this cycle, or of a die under FREEZE, counts none (19 R494,
R500). A counter stops at its end here, since PMC_OVERFLOW is its wrap. -/
def pmcNow (x : DieSt) (r : Nat) : PmcSt :=
  let g := reg x r
  let p := g.pmc
  if x.pmcFreeze || (g.halted && !g.haltCycle) then p
  else
    let run := fun (sel : Nat) (v : BitVec 64) => (Config.clocksCounted x.strap r sel x.cycleNo v).toNat
    { p with
      cyc := p.cyc + BitVec.ofNat 64 (run 0 p.cyc),
      cnt := (numsFrom 0 8).foldl (fun m n =>
        if pmcSel p n = 0 || pmcCounted (pmcSel p n) then m
        else
          let v : Word := getA 0 p.cnt n
          putA 0 n (BitVec.ofNat 32 (min 0xFFFFFFFF (v.toNat + run (pmcSel p n) (v.setWidth 64)))) m) p.cnt }

/-- A sample record (19 Table 19.4). Without a PC the supervisor runs: TASK is 0 and the PC field is a free value. -/
def pmcSampleOf (x : DieSt) (r n : Nat) (skidPc : Option (BitVec 17)) (ended : Bool) : List Word :=
  let lo := (pmcNow x r).cyc.extractLsb' 0 32
  match skidPc with
  | some pc => [(runningTask x r ++ BitVec.ofNat 3 n ++ b2v ended ++ 0#7 ++ pc : BitVec 32), lo]
  | none => [(0#4 ++ BitVec.ofNat 3 n ++ 0#8 ++ Config.samplePc lo : BitVec 32), lo]

/-- Capture a sample: the ring holds 16, a further one is lost. -/
def pmcCapture (r n : Nat) (skidPc : Option (BitVec 17)) (ended : Bool) (x : DieSt) : DieSt :=
  modReg x r (fun g =>
    if 32 ≤ g.pmc.ring.length then { g with pmc := { g.pmc with lost := g.pmc.lost + 1 } }
    else { g with pmc := { g.pmc with ring := g.pmc.ring ++ pmcSampleOf x r n skidPc ended } })

/-- PMC_OVERFLOW (19 R497, R498). A counter of clocks wraps here; a counter of events has wrapped as it counted, and its OVF bit
stands. The sample follows where the counter samples and the pair is the sampled one. -/
def execPmcOverflow (d : Die) (r n : Nat) (skidPc : Option (BitVec 17)) (ended : Bool) (s : State) : Host.Outcome State Fault Refusal :=
  let x := dieOf s d
  let p := (reg x r).pmc
  let clocks := !pmcCounted (pmcSel p n)
  let sampled := bitOf p.stat (16 + n) && decide (pmcPair s.pmcActive = 16 * dieIndex d + r) && decide (s.pmcActive ≠ [])
  .next (if 8 ≤ n || 16 ≤ r || decide (pmcSel p n = 0) || (reg x r).halted then s
         else if clocks then
           onDie d (fun x =>
             let y := postEvent r (0xC8 + n) (modReg x r (fun g => { g with pmc := pmcWrap n g.pmc }))
             if sampled then pmcCapture r n skidPc ended y else y) s
         else if sampled && bitOf p.stat n then onDie d (pmcCapture r n skidPc ended) s
         else s)

/-- PMC_CYC_LO_READ (19 R496): the read latches the high word. -/
def execPmcCycLoRead (d : Die) (r : Nat) (s : State) : Host.Outcome State Fault Refusal :=
  .next (if 16 ≤ r then s
         else onDie d (fun x => modReg x r (fun g => { g with pmc := { g.pmc with cycHi := (pmcNow x r).cyc.extractLsb' 32 32 } })) s)

/-- The ten words that a supervisor reads (19 R499). -/
def pmcReadWords (p : PmcSt) : List Word :=
  [p.cyc.extractLsb' 0 32, p.cyc.extractLsb' 32 32] ++ (numsFrom 0 8).map (fun n => getA 0 p.cnt n)

/-- The read of every pair of a die at COMMIT (19 R502): its words and OVF for the mirror; the samples of the sampled pair leave its
ring, the 14 newest for the mirror and the others lost. -/
def pmcReadDie (d : Die) (s : State) : State :=
  let x := dieOf s d
  let i := dieIndex d
  let rd := (numsFrom 0 16).foldl (fun m r =>
    let p := pmcNow x r
    (numsFrom 0 10).foldl (fun m k => putA 0 (32 + 10 * (16 * i + r) + k) ((pmcReadWords p).getD k 0) m) m) s.pmcRead
  let s1 := { s with pmcRead := rd }
  let q := pmcPair s.pmcActive
  let s2 := if s.pmcActive ≠ [] && decide (q / 16 = i) then
      let p := (reg x (q % 16)).pmc
      { s1 with pmcSamples := lastN 28 p.ring, pmcLost := p.lost.toNat + (p.ring.length / 2 - 14) }
    else s1
  onDie d (fun x => mapRegs x (fun r g =>
    let p := pmcNow x r
    { g with pmc := { p with cycHi := p.cyc.extractLsb' 32 32, ring := [], lost := 0 } })) s2

/-- OVF summary: bit 16 × die + region. -/
def pmcOvf (s : State) : BitVec 64 :=
  allDies.foldl (fun v d => (numsFrom 0 16).foldl (fun v r =>
    if (reg (dieOf s d) r).pmc.stat.extractLsb' 0 8 ≠ 0 then setBitOf v (16 * dieIndex d + r) true else v) v) 0

/-- The words of the mirror of cycle `k` (19 Table 19.6). -/
def pmcMirror (k : Word) (s : State) : List (Nat × Word) :=
  let ws := s.pmcActive
  if !pmcMirrorOn ws then []
  else
    let h1 : Word := BitVec.ofNat 6 (pmcPair ws) ++ b2v (pmcFreezeOn ws) ++ 1#1 ++ BitVec.ofNat 8 (min 255 s.pmcLost) ++
      BitVec.ofNat 8 (s.pmcSamples.length / 2) ++ 0#8
    let v := pmcOvf s
    let head := [k, h1, v.extractLsb' 0 32, v.extractLsb' 32 32] ++ s.pmcSamples
    (numsFrom 0 head.length).foldl (fun m i => putA 0 i (head.getD i 0) m) s.pmcRead

end Sys2Proof.Machine
end

