-- ==== Sys2Proof/Machine/Commit.lean ====
section
/-!
DEFINITION. COMMIT in a die: gated shares (02 R89, 11 R349, R350), the records that the supervisor appends (09 R298; 11 R334,
R339, R348; 12 R361), the state digest (06 R205) and the COMMIT block (06 R202, R203).
-/

namespace Sys2Proof.Machine

/-! ## Shares -/

/-- Gated shares of the outputs bound to cells of a region (02 R89). -/
def gatedShares (x : DieSt) (r : Nat) : BitVec 96 :=
  let s := (reg x r).sup.shares
  (x.cells.filter (fun q => decide (regionOf q.1 = r) && isLive q.2 && !bindRemote q.2)).foldl (fun v q =>
    (numsFrom 0 (outCount q.2)).foldl (fun v k =>
      let o := outBase q.2 + k
      if bitOf s o && gate q.2 k then setBitOf v o true else v) v) 0

/-- Module positions that a served entry takes SHARE from: its link's module and that module's partner (11 R350). -/
def servedMods (p : StationPart) (e : Served) : List Nat :=
  match (numsFrom 0 64).find? (fun m => linkToModule p m = some e.link) with
  | none => []
  | some m => match partnerOf p m with
    | some q => [m, q]
    | none => [m]

/-- Shares of the served outputs that a region owns: the OR over the records within T_max (11 R350). -/
def servedShares (cx : Ctx) (p : StationPart) (x : DieSt) (r : Nat) : BitVec 96 :=
  let mine : BitVec 96 := (numsFrom (6 * r) 6).foldl (fun m o => setBitOf m o true) 0
  let fresh := fun (q : ShareRec) => decide ((x.cycleNo - q.taken).toNat * cx.periodMs ≤ q.leftMs)
  p.served.foldl (fun v e =>
    let ms := servedMods p e
    v ||| (e.outMask &&& mine &&& (x.shareRecs.filter (fun q => fresh q && ms.contains q.mod_)).foldl (fun s q => s ||| q.share) 0)) 0

/-- Output `k` of a remote cell is energised by its coded fields (11 Table 11.11). -/
def remoteShare (c : CellRec) (k : Nat) : Bool :=
  match clsOf c.cls with
  | some .point | some .switchedDiamond =>
    (k = 0 && decide (c.cmd = cmdNORMAL)) || (k = 1 && decide (c.cmd = cmdREVERSE))
  | some .mainSignal | some .shuntSignal =>
    if k = 0 then decide (c.aspect = aspDANGER)
    else if k = 1 then decide (c.aspect = aspPROCEED1) || decide (c.aspect = aspSHUNT)
    else if k = 2 then decide (c.aspect = aspPROCEED2)
    else if k = 3 then decide (c.aspect = aspPROCEED3)
    else if k = 4 then decide (c.aspect = aspPROCEED4)
    else if k = 5 then decide (c.aspect = aspPROCEED5)
    else if k = 6 then decide (c.aspect = aspCALLON) else false
  | some .levelCrossing => if k = 0 then decide (c.cmd = cmdOPEN) else decide (c.cmd = cmdNONE)
  | some .powerSection => k = 0 && decide (c.cmd = cmdCHANGEOVER)
  | some .zone | some .keyLock => k = 0 && decide (c.cmd = cmdKEY)
  | some .lineBlock => k = 0 && decide (c.cmd = cmdOPEN)
  | _ => false

/-- Field modules that cells of a region bind, and the shares of their outputs. -/
def remoteShares (x : DieSt) (r : Nat) : List (Nat × BitVec 96) :=
  (x.cells.filter (fun q => decide (regionOf q.1 = r) && isLive q.2 && bindRemote q.2 && decide (outCount q.2 ≠ 0))).foldl
    (fun m q =>
      let c := q.2
      let s := getA 0 (m.map (fun p => (p.1, p.2))) (remoteModule c)
      let s1 := (numsFrom 0 (outCount c)).foldl (fun v k => if remoteShare c k && gate c k then setBitOf v (outBase c + k) true else v) s
      (m.filter (fun p => p.1 ≠ remoteModule c)) ++ [(remoteModule c, s1)]) []

/-! ## Records of the supervisor (09 R298) -/

/-- Cut a list into pieces of at most `n`. -/
def chunks {α : Type} (n : Nat) : Nat → List α → List (List α)
  | 0, _ => []
  | f + 1, l => if l.isEmpty then [] else l.take n :: chunks n f (l.drop n)

/-- A link to a module of ROLE LOGIC or LOGIC_FIELD of another territory of the own station system: link and territory. -/
def terrLinks (p : StationPart) (own : Nat) : List (Nat × Nat) :=
  (numsFrom 0 64).filterMap (fun m =>
    let w := sysWord p m
    if sysValid w && sysLinked w && decide (sysRole w ≠ 1) && decide (sysTerr w ≠ own) then some (sysLink w, sysTerr w) else none)

/-- Entry of a CELLS record (11 Table 11.2). -/
def cellsEntry (n : Nat) (c : CellRec) : List Word :=
  [BitVec.ofNat 32 n, (coded .occ c ++ coded .pos c : BitVec 32), (coded .lock c ++ coded .aspect c : BitVec 32),
   (cellWords n c).getD 4 0]

/-- CELLS records of a region for every export list (11 R334). -/
def cellsRecords (cx : Ctx) (p : StationPart) (x : DieSt) (r : Nat) : List PayRec :=
  p.exports.flatMap (fun e =>
    let ids := (e.2.filter (fun n => decide (regionOf n = r))).mergeSort
    (chunks 63 16 ids).map (fun l =>
      ({ typ := tyCELLS, link := e.1, region := 0,
         data := (b2v cx.isActive ++ 0#23 ++ BitVec.ofNat 8 l.length : BitVec 32) :: l.flatMap (fun n => cellsEntry n (getCell x n)) } : PayRec)))

/-- Words of a TERR entry (11 Table 11.5). -/
def terrWords (op : BitVec 4) (proven calling failed : Bool) (reason : BitVec 8) (route : BitVec 13) (key : Word) (progress : BitVec 6) :
    List Word :=
  [ (op ++ b2v proven ++ b2v calling ++ b2v failed ++ 0#1 ++ reason ++ 0#3 ++ route : BitVec 32), key,
    (progress ++ 0#26 : BitVec 32) ]

/-- The entry that a live route table entry gives toward a territory (11 Table 11.6). -/
def terrEntryOf (cx : Ctx) (x : DieSt) (t i : Nat) : List (List Word) :=
  let e := getRoute x i
  let w := getWork x i
  let d := entryDesc cx x e
  if isProxy e then
    if d.reqTerr ≠ t then []
    else if e.state = rsPROBED then [terrWords 8 false false false 0 d.routeId e.key 0]
    else if e.state = rsPROBING then []
    else [terrWords 0xA (decide (e.state = rsPROVEN)) (decide (e.state = rsCALLING)) (decide (e.state = rsFAILED)) 0 d.routeId e.key e.progress]
  else if exitTerr cx x d ≠ some t then []
  else if e.state = rsPROBING then (if w.waiting then [terrWords 1 false false false 0 e.routeId e.key 0] else [])
  else if e.state = rsENTERED then
    [terrWords (if holdsNothing cx x e { w with proxyHeld := false } then 4 else 3) false false false 0 e.routeId e.key 0]
  else if e.state = rsRELEASING then [terrWords 4 false false false 0 e.routeId e.key 0]
  else if [rsCALLING, rsLOCKED, rsPROVEN, rsAPPROACH, rsFAILED].contains e.state then
    [terrWords 2 false false false 0 e.routeId e.key 0]
  else []

/-- TERR entries of region `r` toward a territory: of its live entries, then what is sent once (11 R339). -/
def terrEntries (cx : Ctx) (x : DieSt) (t r : Nat) : List (List Word) :=
  ((liveRoutes x).filter (fun i => decide (entryRegion x (getRoute x i) = r))).flatMap (terrEntryOf cx x t) ++
    (x.terrOut.filter (fun q => decide (q.terr = t) && decide (q.region = r))).map (fun q =>
      terrWords q.op false false false q.reason q.route q.key 0)

/-- TERR records of region `r` (11 R339): parts number over the regions; without entries region 0 sends an empty record. A
module in FIELD role has no territory and sends none (01 R65). -/
def terrRecords (cx : Ctx) (p : StationPart) (own : Nat) (x : DieSt) (r : Nat) : List PayRec :=
  (if cx.fieldRole then [] else terrLinks p own).flatMap (fun l =>
    let parts := (numsFrom 0 16).map (fun q => chunks 84 16 (terrEntries cx x l.2 q))
    let total := (parts.map List.length).sum
    let before := ((parts.take r).map List.length).sum
    let head := fun (n k c : Nat) =>
      (b2v cx.isActive ++ 0#2 ++ BitVec.ofNat 5 own ++ BitVec.ofNat 8 n ++ BitVec.ofNat 8 k ++ BitVec.ofNat 8 c : BitVec 32)
    if total = 0 then (if r = 0 then [({ typ := tyTERR, link := l.1, region := 0, data := [head 1 0 0] } : PayRec)] else [])
    else (parts.getD r []).zipIdx.map (fun q =>
      ({ typ := tyTERR, link := l.1, region := 0, data := head total (before + q.2) q.1.length :: q.1.flatten } : PayRec)))

/-- Words of a 96-bit and of a 192-bit vector. -/
def words96 (v : BitVec 96) : List Word := [v.extractLsb' 0 32, v.extractLsb' 32 32, v.extractLsb' 64 32]
def words192 (v : BitVec 192) : List Word := (numsFrom 0 6).map (fun k => v.extractLsb' (32 * k) 32)

/-- FIELD records toward field modules, and from a field module toward the modules it serves (11 R348). -/
def fieldRecords (cx : Ctx) (p : StationPart) (role : Nat) (x : DieSt) (r : Nat) : List PayRec :=
  (remoteShares x r).filterMap (fun q =>
    (linkToModule p q.1).map (fun l =>
      ({ typ := tyFIELD, link := l, region := 0, data := (b2v cx.isActive ++ 0#31 : BitVec 32) :: words96 q.2 } : PayRec))) ++
  (if r ≠ 0 || role = 0 then []
   else p.served.map (fun e =>
     ({ typ := tyFIELD, link := e.link, region := 0,
        data := (x.image.group.extractLsb' 0 8).setWidth 32 :: words192 (x.image.read &&& e.inMask) ++
          words192 (x.image.fault &&& e.inMask) ++
          (numsFrom 0 96).map (fun o => if bitOf e.outMask o then getA 0xFF x.image.outStatus o else 0) ++
          words192 (x.image.disc &&& e.inMask) } : PayRec)))

/-- The HEART record of region 0 (12 R361): partner's link, D0 and D1. -/
def heartRecords (heart : Option (Nat × Word × Word)) (r : Nat) : List PayRec :=
  match heart with
  | some (l, d0, d1) => if r = 0 then [{ typ := tyHEART, link := l, region := 0, data := heartData d0 d1 }] else []
  | none => []

/-! ## Payload (09 R298, 06 R203) -/

/-- What the supervisor of a die needs from the module to build its blocks. -/
structure CommitCx where
  cx : Ctx
  part : StationPart
  own : Nat
  role : Nat
  ownMasks : List (BitVec 96)
  heart : Option (Nat × Word × Word)

/-- The APP records at the head of an area of words, up to the first malformed record or record of another type; their words,
and whether the area was cut. -/
def appPart (p : StationPart) (ws : List Word) : List Word × Bool :=
  let q := payRecords (fun n => (linkOf p n).valid) 1024 ws
  let good := q.1.takeWhile (fun r => decide (r.typ = tyAPP))
  (good.flatMap recWords, q.2 || decide (good.length ≠ q.1.length))

/-- The payload of a region at COMMIT: the application's records, then the supervisor's. The transmit area and the length of the
application's part are written back; a cut or a faulty length posts 0xC4. -/
def buildPayload (c : CommitCx) (r : Nat) (x : DieSt) : DieSt × List Word :=
  let g := reg x r
  let len := (memWord g.mem memTX).toNat
  let put := fun (a : Nat) (y : DieSt) => modReg y r (fun g => { g with sup := { g.sup with appLen := BitVec.ofNat 32 a } })
  if 1024 < len || len % 4 ≠ 0 then (put 0 (postEvent r 0xC4 x), [])
  else
    let a := appPart c.part ((numsFrom 0 (len / 4)).map (fun k => memWord g.mem (memTX + 4 + 4 * k)))
    let x1 := if a.2 then postEvent r 0xC4 x else x
    let sup := (cellsRecords c.cx c.part x r ++ terrRecords c.cx c.part c.own x r ++ fieldRecords c.cx c.part c.role x r ++
      heartRecords c.heart r).flatMap recWords
    let all := a.1 ++ sup
    let total := 4 * all.length
    let x2 := put (4 * a.1.length) x1
    if 1024 < total then
      (modReg (postEvent r 0xC4 x2) r (fun g => markDirty memTX { g with mem := memPutWord g.mem memTX (BitVec.ofNat 32 total) }), [])
    else
      let fits := sup
      (modReg x2 r (fun g =>
        let m := memPutWords (memPutWord g.mem memTX (BitVec.ofNat 32 total)) (memTX + 4 + 4 * a.1.length) fits
        if m = g.mem then g
        else markDirty memTX (if 1020 < total then markDirty (memTX + 1024) { g with mem := m } else { g with mem := m })), all)

/-! ## The state digest (06 R205) -/

/-- `n` bytes from address `a` on of a store that lists nothing below `a`. -/
def spanBytes : Nat → Nat → List Host.Cell → List Byte
  | 0, _, _ => []
  | n + 1, a, [] => 0 :: spanBytes n (a + 1) []
  | n + 1, a, (k, b) :: t => if k = a then b :: spanBytes n (a + 1) t else 0 :: spanBytes n (a + 1) ((k, b) :: t)

/-- Bytes of region memory from `lo` up to `hi`. -/
def memSpan (m : List Host.Cell) (lo hi : Nat) : List Byte := spanBytes (hi - lo) lo (m.filter (fun c => decide (lo ≤ c.1)))

/-- The digest message of a region (06 Table 6.4). -/
def digestMessage (x : DieSt) (r : Nat) : List Byte :=
  let g := reg x r
  leBytes x.cycleNo ++ leBytes (BitVec.ofNat 32 r) ++ memSpan g.mem memDATA memSUP ++
    (numsFrom 0 0x1000).map (supByte g.sup) ++ memSpan g.mem memSAVE memSCRATCH ++
    (numsFrom (256 * r) 256).flatMap (fun n => (cellWords n (getCell x n)).flatMap leBytes) ++
    ((liveRoutes x).filter (fun i => decide (entryRegion x (getRoute x i) = r))).flatMap (fun i =>
      leBytes (BitVec.ofNat 32 i) ++ (routeWords (getRoute x i)).flatMap leBytes) ++
    leBytes ((g.dacc ^^^ crc64Ones).extractLsb' 0 32) ++ leBytes ((g.dacc ^^^ crc64Ones).extractLsb' 32 32) ++ leBytes g.daccN

/-- DIGEST of a region. -/
def regionDigest (x : DieSt) (r : Nat) : BitVec 64 := crc64 (digestMessage x r)

/-! ## The block -/

/-- SUMMARY (06 Table 6.2) of a block that is not forced. -/
def summaryOf (x : DieSt) (r : Nat) (share : BitVec 96) : BitVec 6 :=
  let cells := (x.cells.filter (fun q => decide (regionOf q.1 = r) && isLive q.2)).map (·.2)
  let proceed := cells.any (fun c => (isSignal c && decide (c.aspect ≠ aspDANGER)) || (isCls .lineBlock c && decide (c.aspect = aspPROCEED1)))
  let permit := cells.any (fun c => [cmdOPEN, cmdKEY, cmdCHANGEOVER].contains c.cmd)
  let call := cells.any (fun c => isCall c.cmd)
  b2v false ++ b2v (!(reg x r).sup.initDone) ++ b2v (!proceed) ++ b2v (!permit) ++ b2v (!call) ++ b2v (decide (share = 0))

/-- A region's block is forced into its restrictive form: in a cycle it is marked OVERRUN (04 R151), after a trap or a REVERT overrun
(04 R162, 05 R194), and while INIT has not ended (05 R180). -/
def blockForced (g : RegionSt) : Bool := g.forceNext || g.overIn || g.overOut || !g.sup.initDone

/-- The digest engine of a region and the check units of both lanes have fed a block (09 Table 9.11). -/
def feedCommit (b : Block) (x : DieSt) : DieSt :=
  let lane := fun (k : Side) => modA checkUnitReset (laneUnit k) (feedLane x.strap k b.region b.cycle (laneForm k (blockWords b)))
  let dig := modA checkUnitReset (digestUnit b.region)
    (cuTransfer 2 [x.cycleNo, BitVec.ofNat 32 b.region] ((digestMessage x b.region).drop 8))
  { x with units := lane .h (lane .l (dig x.units)) }

/-- COMMIT of one region: payload, forced variables, the supervisor register area written 0 (05 R173), digest and block, which leaves in
the die's encoding; a region that does not run sends none. -/
def commitRegion (c : CommitCx) (x : DieSt) (r : Nat) : DieSt :=
  let g := reg x r
  if g.halted || g.haltCycle then modReg x r (fun g => { g with sent := [] })
  else
    let own := c.ownMasks.getD r 0
    let forced := blockForced g
    let share := if forced then 0 else forceOutputs g.sup.forces own (gatedShares x r ||| servedShares c.cx c.part x r)
    let p := buildPayload c r x
    let y := modReg p.1 r (fun g => { g with sup := { g.sup with regs := 0 }, mem := forceVars c.part r g.sup.forces g.mem, dirty := (numsFrom 184 4).foldl (fun m b => putA false b true m) g.dirty })
    let b : Block := { region := r, cycle := x.cycleNo, summary := if forced then 0x3F else summaryOf y r share, share := share,
                       expect := share, digest := regionDigest y r, payload := if forced then [] else p.2 }
    modReg (feedCommit b y) r (fun g => { g with sent := (blockWords b).map (encodeWord x.strap), forceNext := false })

/-- COMMIT in a die (02 Table 2.19): conditions, cap, then every region in order. The fast clock stops unless an input event
is pending (04 R148). -/
def commitDie (c : CommitCx) (x : DieSt) : DieSt :=
  let x1 := mapCells x (fun n q => if regHalted x (regionOf n) then q else capCell c.cx x (evalCmd (cellProf c.cx x q) q))
  let x2 := (numsFrom 0 16).foldl (commitRegion c) x1
  let busy := (numsFrom 0 16).any (fun r => (reg x2 r).revert)
  { x2 with phase := phIDLE, fastClock := busy, terrOut := [] }

end Sys2Proof.Machine
end

