-- ==== Sys2Proof/Machine/StartChecks.lean ====
section
/-!
DEFINITION. The start checks of the STATION part over its cells, routes, proxies and code (02 R66, R80, R81, R88, R100; 03 R104, R105;
11 R336, R338; 01 R27; 05 R181; 09 R292), made on a die that has loaded the part into bank 0.
-/

namespace Sys2Proof.Machine

/-! ## Cells -/

/-- Link types that a port of a class may hold (02 Table 2.16): bits 0 NONE, 1 TRACK, 2 ASSOC, 3 EDGE. -/
def portLinks (k : Cls) (p : Nat) : BitVec 4 :=
  let track : BitVec 4 := 0b1010
  let trackNone : BitVec 4 := 0b1011
  let assoc : BitVec 4 := 0b0101
  let none_ : BitVec 4 := 0b0001
  match k with
  | .trackSection => if p = 0 then track else if p = 1 then trackNone else none_
  | .point => if p = 0 then track else if p = 3 then none_ else trackNone
  | .diamond | .switchedDiamond => track
  | .mainSignal | .shuntSignal => if p ≤ 1 then track else if p = 3 then assoc else none_
  | .buffer | .lineBlock => if p = 0 then 0b0010 else none_
  | .levelCrossing => if p ≤ 1 then track else trackNone
  | .powerSection | .zone | .keyLock => assoc
  | .boundary => if p = 0 then 0b1000 else none_
  | .virtual => 0b1111
  | .unused => none_

/-- A port of cell `n`: a permitted link to another live cell that names this port back (02 R80, R81). -/
def portCheck (x : DieSt) (n : Nat) (k : Cls) (c : CellRec) (p : Nat) : Bool :=
  let w := portOf c p
  let m := adjCell w
  let back := portOf (getCell x m) (adjPort w)
  bitOf (portLinks k p) (adjLink w) &&
    (if adjLink w = 0 then decide (w = 0)
     else decide (m ≠ n) && isLive (getCell x m) && decide (adjLink back = adjLink w) && decide (adjCell back = n) &&
       decide (adjPort back = p))

/-- Counts of bound inputs and outputs of a class (02 Table 2.18): least and most of each. -/
def bindCounts : Cls → Nat × Nat × Nat × Nat
  | .trackSection => (1, 2, 0, 0)
  | .point | .switchedDiamond => (3, 3, 0, 2)
  | .diamond => (1, 1, 0, 0)
  | .mainSignal | .shuntSignal => (0, 1, 1, 8)
  | .levelCrossing => (2, 3, 1, 8)
  | .powerSection => (1, 4, 0, 1)
  | .zone | .keyLock => (1, 1, 1, 1)
  | .lineBlock => (3, 3, 1, 1)
  | .virtual => (0, 1, 0, 8)
  | .buffer | .boundary | .unused => (0, 0, 0, 0)

/-- A cell's bindings (02 R88; 11 R347: no VIRTUAL cell is bound remotely). -/
def bindCheck (k : Cls) (c : CellRec) : Bool :=
  let q := bindCounts k
  inRange q.1 q.2.1 (inCount c) && inRange q.2.2.1 q.2.2.2 (outCount c) &&
    decide (inBase c + inCount c ≤ 192 ∨ inCount c = 0) && decide (outBase c + outCount c ≤ 96 ∨ outCount c = 0) &&
    (decide (k = .boundary) || ((decide (inCount c ≠ 0) || decide (inBase c = 0)) && (decide (outCount c ≠ 0) || decide (outBase c = 0)))) &&
    (decide (k ≠ .virtual) || !bindRemote c)

/-- OWNER_ADDR: station, module and cell (00 R16). -/
def ownerStation (c : CellRec) : BitVec 12 := (ownerAddr c).extractLsb' 18 12
def ownerMod (c : CellRec) : Nat := ((ownerAddr c).extractLsb' 12 6).toNat

/-- A BOUNDARY cell (02 R100): MIRROR_CLASS, and an owner that is neither the module nor its partner; CLASS_EXT is 0 elsewhere but in a
POWER_SECTION. -/
def extCheck (p : StationPart) (station : BitVec 12) (pos : Nat) (k : Cls) (c : CellRec) : Bool :=
  if k = .boundary then
    inRange 1 9 c.ext.toNat &&
      !(decide (ownerStation c = station) && (decide (ownerMod c = pos) || decide (partnerOf p pos = some (ownerMod c))))
  else decide (k = .powerSection) || decide (c.ext = 0)

/-- Every start check of one cell of the part. -/
def cellStartOk (p : StationPart) (station : BitVec 12) (pos : Nat) (x : DieSt) (q : Nat × CellRec) : Bool :=
  decide (q.1 < 4096) &&
    (match clsOf q.2.cls with
     | none => false
     | some k =>
       decide (k = .unused) ||
         ((numsFrom 0 4).all (portCheck x q.1 k q.2) && bindCheck k q.2 && extCheck p station pos k q.2))

/-- A bound channel: 0 or 1 + remote module, and number. -/
def boundKeys (bound : CellRec → List Nat) (p : StationPart) : List (Nat × Nat) :=
  p.cells.flatMap (fun q => if isLive q.2 then (bound q.2).map (fun n => (if bindRemote q.2 then 1 + remoteModule q.2 else 0, n)) else [])

/-- No element stands twice. -/
def allApart {α : Type} [DecidableEq α] : List α → Bool
  | [] => true
  | a :: t => !t.contains a && allApart t

/-- The cells of the part: each by itself, no channel bound twice (01 R27), and at most 512 BOUNDARY cells (01 R66). -/
def cellsCheck (p : StationPart) (station : BitVec 12) (pos : Nat) (x : DieSt) : Bool :=
  p.cells.all (cellStartOk p station pos x) && allApart (boundKeys boundIns p) && allApart (boundKeys boundOuts p) &&
    decide ((p.cells.filter (fun q => isCls .boundary q.2)).length ≤ 512)

/-! ## Routes and proxies -/

/-- A track walk from cell `a`, entered at a port and passed in a position: each next cell is joined by a TRACK link from a port that
the passage reaches, or at the end by an EDGE link into a BOUNDARY cell (03 R104). -/
def walkOk (x : DieSt) (a : Nat) (pos : BitVec 2) (enter : Nat) : List Half → Bool
  | [] => true
  | h :: t =>
    let c := getCell x a
    let b := entCell h
    match (reach c pos enter).find? (fun q => isTrackLink (portOf c q) && decide (adjCell (portOf c q) = b)) with
    | none => false
    | some q =>
      (decide (adjLink (portOf c q) = 1) || (t.isEmpty && isCls .boundary (getCell x b))) &&
        walkOk x b (entPos h) (adjPort (portOf c q)) t

/-- POS, CHG and NOFLANK of an entry stand only where its class has them (03 Table 3.3, R104). -/
def entryOk (x : DieSt) (h : Half) : Bool :=
  let c := getCell x (entCell h)
  isLive c && (if isPointLike c then decide (entPos h = 1) || decide (entPos h = 2) else decide (entPos h = 0)) &&
    (!entChg h || isCls .powerSection c) && (!entNoflank h || isPointLike c)

/-- Classes of an entry between the ends. -/
def midClass (c : CellRec) : Bool :=
  [Cls.trackSection, .point, .diamond, .switchedDiamond, .mainSignal, .shuntSignal, .levelCrossing, .powerSection, .virtual].any
    (fun k => isCls k c)

/-- Classes of an overlap entry (03 R105). -/
def ovlClass (c : CellRec) : Bool :=
  [Cls.trackSection, .point, .diamond, .switchedDiamond, .levelCrossing, .virtual].any (fun k => isCls k c)

/-- Track entries of a path. -/
def trackEntries (x : DieSt) (l : List Half) : List Half := l.filter (fun h => !isSideCell x (entCell h))

/-- The owner of a BOUNDARY cell is a module of the own station system. -/
def ownSystem (p : StationPart) (station : BitVec 12) (c : CellRec) : Bool :=
  decide (ownerStation c = station) && sysValid (sysWord p (ownerMod c))

/-- An overlap set by itself (03 R105, Table 3.4): COUNT, the lengths of its alternatives and beyond, classes. -/
def ovlSetOk (x : DieSt) (o : Nat) : Bool :=
  let ws := ovlWords x x.active o
  let n := ovlCount ws
  inRange 1 4 n && (numsFrom 0 4).all (fun a =>
    let es := ovlAlt ws a
    if a < n then inRange 1 8 es.length && es.all (fun h => ovlClass (getCell x (entCell h)) && entryOk x h) else es.isEmpty)

/-- A flank list by itself (Table 3.5): COUNT, and no TYPE outside its values. -/
def flkListOk (x : DieSt) (f : Nat) : Bool :=
  let ws := flkWords x x.active f
  decide ((ws.getD 0 0).extractLsb' 0 5 ≤ 28) && (flankList ws).all (fun e => decide (e.1 ≠ 3))

/-- Every overlap set and flank list that the part holds, named by a descriptor or not. -/
def refsCheck (p : StationPart) (x : DieSt) : Bool :=
  let held := p.routes.filter (fun q => decide (q.2 ≠ 0))
  (((held.filter (fun q => decide (262144 ≤ q.1) && decide (q.1 < 294912))).map (fun q => (q.1 - 262144) / 32)).eraseDups).all
      (ovlSetOk x) &&
    (((held.filter (fun q => decide (294912 ≤ q.1))).map (fun q => (q.1 - 294912) / 16)).eraseDups).all (flkListOk x)

/-- The overlap of a descriptor (03 R105): the set, and a walk of each alternative from port 1 of EXIT. -/
def ovlCheck (x : DieSt) (d : Desc) : Bool :=
  match d.ovl with
  | none => true
  | some o =>
    let alts := alternatives x d
    ovlSetOk x o && isSignal (getCell x d.exit) &&
      alts.all (fun a => walkOk x d.exit 0 0 a && allApart ((d.path ++ a).map entCell))

/-- The flank list of a descriptor (03 Table 3.5). -/
def flkCheck (x : DieSt) (d : Desc) : Bool :=
  match d.flk with
  | none => true
  | some f => flkListOk x f

/-- What a route and a proxy share of R104 and R105. -/
def pathCheck (p : StationPart) (x : DieSt) (d : Desc) : Bool :=
  decide (d.kind ≠ 3) && decide (d.path.length = d.pathLen) && bitOf (partProfile p d.profile.toNat).p0 7 &&
    decide ((d.path.head?.map entCell) = some d.entrance) && decide ((d.path.getLast?.map entCell) = some d.exit) &&
    d.path.all (entryOk x) && ((d.path.drop 1).dropLast).all (fun h => midClass (getCell x (entCell h))) &&
    allApart (d.path.map entCell) && decide ((d.path.filter entChg).length ≤ 1) &&
    (systemIndex d.traction).isSome && (systemIndex d.tractionExit).isSome &&
    (decide (d.traction = d.tractionExit) || d.path.any entChg) && ovlCheck x d && flkCheck x d

/-- A route descriptor (03 R104, 11 R336). -/
def routeCheck (p : StationPart) (station : BitVec 12) (x : DieSt) (n : Nat) : Bool :=
  let d := descOf false (descWords x x.active n)
  let e := getCell x d.entrance
  let o := getCell x d.exit
  !d.valid ||
    (decide (d.routeId.toNat = n) && inRange 2 48 d.pathLen && pathCheck p x d &&
      (if d.kind = 1 then isCls .shuntSignal e else isCls .mainSignal e) &&
      (isSignal o || isCls .buffer o || isCls .lineBlock o || (isCls .boundary o && ownSystem p station o && d.ovl.isNone)) &&
      walkOk x d.entrance 0 0 ((trackEntries x d.path).drop 1) && (decide (d.kind ≠ 2) || d.approach.isSome) &&
      d.approach.all (fun a => (codeCls (getCell x a)).any hasOcc))

/-- Ports of FIRST with an EDGE link to a BOUNDARY cell whose owner lies in a territory (11 R338). -/
def edgePorts (p : StationPart) (station : BitVec 12) (x : DieSt) (n terr : Nat) : List Nat :=
  let c := getCell x n
  (numsFrom 0 4).filter (fun q =>
    let b := getCell x (adjCell (portOf c q))
    decide (adjLink (portOf c q) = 3) && isCls .boundary b && ownSystem p station b &&
      decide (sysRole (sysWord p (ownerMod b)) ≠ 1) && decide (sysTerr (sysWord p (ownerMod b)) = terr))

/-- A proxy descriptor (11 R338). -/
def proxyCheck (p : StationPart) (station : BitVec 12) (x : DieSt) (n : Nat) : Bool :=
  let d := descOf true (proxyWords x x.active n)
  let o := getCell x d.exit
  !d.valid ||
    (inRange 1 48 d.pathLen && pathCheck p x d && midClass (getCell x d.entrance) &&
      (isSignal o || isCls .buffer o || isCls .lineBlock o) &&
      (edgePorts p station x d.entrance d.reqTerr).any (fun q =>
        walkOk x d.entrance ((d.path.head?.map entPos).getD 0) q ((trackEntries x d.path).drop 1)))

/-- Routes, and proxies of which no two share REQ_TERR and REQ_ROUTE. -/
def routesCheck (p : StationPart) (station : BitVec 12) (x : DieSt) : Bool :=
  let ids := ((p.routes.filter (fun q => q.1 < 262144)).map (fun q => q.1 / 32)).eraseDups
  let pxs := (p.proxies.map (fun q => q.1 / 32)).eraseDups
  refsCheck p x && ids.all (routeCheck p station x) && pxs.all (proxyCheck p station x) &&
    allApart ((pxs.map (fun n => descOf true (proxyWords x x.active n))).filterMap (fun d =>
      if d.valid then some (d.reqTerr, d.routeId) else none))

/-! ## Code -/

/-- A region owns the binding of a revert-flagged input. -/
def ownsRevert (p : StationPart) (r : Nat) : Bool :=
  p.cells.any (fun q => decide (regionOf q.1 = r) && isLive q.2 && !bindRemote q.2 &&
    (boundIns q.2).any (fun n => cfgRevert (getA inCfgDefault p.inCfg n)))

/-- A code bank (05 R181); a region without one has every entry point 0. -/
def bankCheck (p : StationPart) (r : Nat) : Bool :=
  let w := fun (a : Nat) => memWord (regionImage p r).code a
  let len := (w 0x14).toNat
  decide (len ≤ 131072) &&
    [0, 4, 8, 0xC, 0x10].all (fun a =>
      let e := (w a).toNat
      decide (e = 0) || (decide (e % 4 = 0) && decide (0x20 ≤ e) && decide (e < len))) &&
    (!ownsRevert p r || decide (w 0xC ≠ 0))

/-! ## The whole part -/

/-- The checks of the sections that an online change may replace (15 R440). -/
def changeChecks (cx : Ctx) (station : BitVec 12) (p : StationPart) : Bool :=
  let x := loadDie cx p (dieReset 1) (dieReset 1)
  p.recordsOk && p.formOk && profilesOk p && routesCheck p station x && (numsFrom 0 16).all (bankCheck p) &&
    (numsFrom 0 16).all (fun r => varmapOk (regionImage p r).varmap)

/-- Every start check of the STATION part, with the keys that its links need (09 R292) and the position (15 R436). -/
def startChecks (cx : Ctx) (station : BitVec 12) (pos : BitVec 6) (keys : List (Nat × BitVec 256)) (p : StationPart) : Bool :=
  let x := loadDie cx p (dieReset 1) (dieReset 1)
  bitOf p.modules pos.toNat && stationChecks p station pos && cellsCheck p station pos.toNat x && changeChecks cx station p &&
    (validLinks p).all (fun n =>
      let l := linkOf p n
      !l.protect || keys.any (fun q => decide (q.1 = 2 * n + (if l.keyId then 1 else 0))))

end Sys2Proof.Machine
end

