-- ==== Sys2Proof/Machine/Take.lean ====
section
/-!
DEFINITION. What SAMPLE takes from the links (09 R306, R307; 11 R332, R333, R335, R340, R349 to R351): telegrams with their ages,
the receive image, mirrors, TERR sets, FIELD records, link states and losses.
-/

namespace Sys2Proof.Machine

/-- A class S telegram taken at SAMPLE with its age in ms. -/
structure Taken where
  link : Nat
  tel : Tel
  age : Nat
  deriving DecidableEq, Repr

/-- Module position of the peer of a link, where it belongs to the own station system. -/
def ownSystemPos (s : State) (n : Nat) : Option Nat :=
  let a := (linkOf s.part n).peer
  if a.extractLsb' 6 12 = stationNo s then some (a.extractLsb' 0 6).toNat else none

/-- Lead of a telegram's cycle over the own, signed (11 R332). -/
def leadOf (s : State) (t : Tel) : Int := (t.h6 + 1 - s.cycle).toInt

/-- The lead lies too far apart (11 R333). -/
def tooFar (l : Int) : Bool := decide (4096 < l) || decide (l < -4096)

/-- Order of the receive image: ascending link, then ascending SEQ. -/
def takenLe (a b : Taken) : Bool := decide (a.link < b.link) || (decide (a.link = b.link) && !serialAfter a.tel.h3 b.tel.h3)

/-- One telegram leaves its spool: it counts for L, and is discarded where it is too old or its cycle lies too far apart. -/
def takeOne (port : Port) (lt : LinkTel) (q : State × List Taken) : State × List Taken :=
  let s := q.1
  let e := linkOf s.part lt.link
  let s1 := onLinks (modLinkSt lt.link (fun l => { l with taken := lt.tel.h3, takenAny := true })) s
  let drop := fun (c : BitVec 4) (s : State) =>
    logAll (discardRecord port lt.link c) (onLinks (countDiscard lt.link c) s)
  if !ageWithin s.ao.ms (effTMax s.part e) lt.tel then (drop dcAGE s1, q.2)
  else
    match ownSystemPos s lt.link with
    | none => (s1, q.2 ++ [{ link := lt.link, tel := lt.tel, age := (telAge s.ao.ms lt.tel).getD 0 }])
    | some m =>
      if tooFar (leadOf s lt.tel) then (drop dcCYCLE { s1 with apart := putA 0 m lt.tel.h6 s1.apart }, q.2)
      else
        ({ s1 with apart := s1.apart.filter (fun p => p.1 ≠ m) },
          q.2 ++ [{ link := lt.link, tel := lt.tel, age := (telAge s.ao.ms lt.tel).getD 0 }])

/-- Once per hour, one CYCLE_APART record for each module that lies apart (11 R333). -/
def apartRecord (s : State) : State :=
  let due := match s.apartAt with
    | some m => decide (m + 3600000 ≤ s.ao.ms)
    | none => true
  if due && decide (s.apart ≠ []) then
    s.apart.foldl (fun s q =>
      logData cdCYCLEAPART unBRIDLE 0 0 ((stationNo s ++ BitVec.ofNat 6 q.1 : BitVec 18).setWidth 32 ++ (q.2 + 1 - s.cycle)) s)
      { s with apartAt := some s.ao.ms }
  else s

/-- A link all of whose telegrams of this SAMPLE lie too far apart has not been heard: its last_accept stands where it stood, so that
the link is lost at T_loss (11 R333). -/
def unheard (all : List LinkTel) (ts : List Taken) (s : State) : State :=
  ((all.map (·.link)).eraseDups.filter (fun n => !ts.any (fun t => decide (t.link = n)) &&
      (ownSystemPos s n).any (fun m => s.apart.any (fun p => decide (p.1 = m))))).foldl (fun s n =>
    onLinks (modLinkSt n (fun l => { l with acceptS := l.acceptPrev, accNow := false })) s) s

/-- Every class S telegram leaves the RX spools (09 R306). -/
def takeSpools (s : State) : State × List Taken :=
  let all := allPorts.flatMap (fun p => ((spoolRxS s.links p).items).map (fun t => (p, t)))
  let s1 := onLinks (fun x => allPorts.foldl (fun x p =>
    let q := spoolRxS x p
    if q.items.isEmpty then x else putRxS p { spDrop q with last := q.items.getLastD q.last } x) x) s
  let r := all.foldl (fun q t => takeOne t.1 t.2 q) (s1, [])
  (unheard (all.map (·.2)) r.2 r.1, r.2.mergeSort takenLe)

/-! ## The receive image (09 Table 9.9) -/

/-- Words of a record of the image. -/
def imageRecord (t : Taken) : List Word :=
  [ (BitVec.ofNat 8 (telType t.tel) ++ BitVec.ofNat 6 t.link ++ 0#6 ++ BitVec.ofNat 12 (telPayLen t.tel) : BitVec 32),
    t.tel.h6, t.tel.h3, BitVec.ofNat 32 (min t.age 65535) ] ++ t.tel.payload

/-- The records that fit, those that do not. `room`: words left. -/
def fitRecords : Nat → List Taken → List Taken × List Taken
  | _, [] => ([], [])
  | room, t :: l =>
    let n := (imageRecord t).length
    if n ≤ room then
      let r := fitRecords (room - n) l
      (t :: r.1, r.2)
    else
      let r := fitRecords room l
      (r.1, t :: r.2)

/-- Bits of the links that meet a condition. -/
def linkBits (p : StationPart) (f : Nat → Bool) : BitVec 64 :=
  (validLinks p).foldl (fun v n => if f n then setBitOf v n true else v) 0

/-- The words of the receive image. -/
def rxImage (s : State) (ts : List Taken) (full : Bool) : List Word :=
  let up := linkBits s.part (fun n => decide ((linkSt s.links n).state = .up))
  let safe := linkBits s.part (fun n => (linkSt s.links n).peerSafe)
  [ (b2v full ++ 0#23 ++ BitVec.ofNat 8 ts.length : BitVec 32), up.extractLsb' 0 32, up.extractLsb' 32 32,
    safe.extractLsb' 0 32, safe.extractLsb' 32 32, s.links.utcShown.extractLsb' 0 32, s.links.utcShown.extractLsb' 32 32 ] ++
    List.replicate 9 0 ++ ts.flatMap imageRecord

/-- Blocks of the receive image whose bytes differ between two memories: 180 to 183. -/
def rxDirty (a b : List Host.Cell) (d : List (Nat × Bool)) : List (Nat × Bool) :=
  (numsFrom 0 4).foldl (fun d k =>
    let part := fun (m : List Host.Cell) => m.filter (fun c => decide (memRX + 1024 * k ≤ c.1) && decide (c.1 < memRX + 1024 * (k + 1)))
    if part a = part b then d else putA false (180 + k) true d) d

/-- Rewrite the receive image of every region of a die, halted ones too: it is the bridle that writes (09 R306). -/
def writeImage (ws : List Word) (x : DieSt) : DieSt :=
  mapRegs x (fun _ g =>
    let m := memPutWords (memClear g.mem memRX memSUP) memRX ws
    { g with mem := m, dirty := rxDirty g.mem m g.dirty })

/-! ## CELLS (11 R335) -/

/-- A CELLS entry taken: sender's station and position, cell, mirror, and what is left to T_max. -/
structure CellsIn where
  station : BitVec 12
  pos : Nat
  cell : Nat
  mirror : Mirror
  leftMs : Nat
  deriving DecidableEq, Repr

/-- Entries of a CELLS payload. -/
def cellsEntries : Nat → List Word → List (Nat × Mirror)
  | 0, _ => []
  | n + 1, ws =>
    match ws with
    | a :: b :: c :: d :: t =>
      ((a.extractLsb' 0 12).toNat, { occ := b.extractLsb' 16 16, pos := b.extractLsb' 0 16, lock := c.extractLsb' 16 16,
                                     aspect := c.extractLsb' 0 16, owner := d }) :: cellsEntries n t
    | _ => []

/-- ms left to T_max of a taken telegram. -/
def leftOf (s : State) (t : Taken) : Nat := effTMax s.part (linkOf s.part t.link) - t.age

/-- CELLS entries of records with ACTIVE 1. -/
def cellsTaken (s : State) (ts : List Taken) : List CellsIn :=
  (ts.filter (fun t => decide (telType t.tel = tyCELLS) && bitOf (t.tel.payload.getD 0 0) 31)).flatMap (fun t =>
    let src := telSrc t.tel
    (cellsEntries (min 63 ((t.tel.payload.getD 0 0).extractLsb' 0 8).toNat) (t.tel.payload.drop 1)).map (fun q =>
      { station := src.extractLsb' 6 12, pos := (src.extractLsb' 0 6).toNat, cell := q.1, mirror := q.2, leftMs := leftOf s t }))

/-- Module positions whose entries a BOUNDARY cell takes. -/
def ownerMods (s : State) (c : CellRec) : List Nat :=
  let m := ((ownerAddr c).extractLsb' 12 6).toNat
  if (ownerAddr c).extractLsb' 18 12 = stationNo s then
    match partnerOf s.part m with
    | some q => [m, q]
    | none => [m]
  else [m]

/-- The newest mirror of each BOUNDARY cell of a die; none is taken while both modules of the pair show ACTIVE. -/
def takeMirrors (s : State) (es : List CellsIn) (x : DieSt) : DieSt :=
  (x.cells.filter (fun q => isCls .boundary q.2)).foldl (fun x q =>
    let c := q.2
    let ms := ownerMods s c
    let st := (ownerAddr c).extractLsb' 18 12
    let from_ := es.filter (fun e => decide (e.station = st) && ms.contains e.pos)
    let mine := from_.filter (fun e => decide (e.cell = ((ownerAddr c).extractLsb' 0 12).toNat))
    match mine.getLast? with
    | none => x
    | some e =>
      if from_.any (fun o => decide (o.pos ≠ e.pos)) then x
      else { x with mirrors := (x.mirrors.filter (fun p => decide (p.1 < q.1))) ++
                      [(q.1, { mirror := e.mirror, taken := x.cycleNo, leftMs := e.leftMs })] ++
                      x.mirrors.filter (fun p => decide (q.1 < p.1)) }) x

/-! ## TERR (11 R340) -/

/-- A TERR record taken. -/
structure TerrRec where
  mod_ : Nat
  terr : Nat
  parts : Nat
  part : Nat
  cycle : Word
  link : Nat
  leftMs : Nat
  data : List Word
  deriving DecidableEq, Repr

/-- TERR records with ACTIVE 1 of other territories of the own station system. -/
def terrRecs (s : State) (ts : List Taken) : List TerrRec :=
  (ts.filter (fun t => decide (telType t.tel = tyTERR) && bitOf (t.tel.payload.getD 0 0) 31)).filterMap (fun t =>
    let d := t.tel.payload.getD 0 0
    let terr := (d.extractLsb' 24 5).toNat
    match ownSystemPos s t.link with
    | none => none
    | some m =>
      if terr ≠ ownTerr s && decide (sysTerr (sysWord s.part m) = terr) then
        some { mod_ := m, terr := terr, parts := (d.extractLsb' 16 8).toNat, part := (d.extractLsb' 8 8).toNat, cycle := t.tel.h6,
               link := t.link, leftMs := leftOf s t, data := t.tel.payload.drop 1 }
      else none)

/-- Entries of a TERR record. -/
def terrEntriesOf (cycle : Word) (r : TerrRec) : Nat → List Word → List TerrEntry
  | 0, _ => []
  | n + 1, ws =>
    match ws with
    | a :: b :: c :: t =>
      { terr := r.terr, forProxy := decide ((a.extractLsb' 28 4).toNat < 8), op := a.extractLsb' 28 4, proven := bitOf a 27,
        calling := bitOf a 26, failed := bitOf a 25, reason := a.extractLsb' 16 8, route := a.extractLsb' 0 13, key := b,
        progress := c.extractLsb' 26 6, taken := cycle, leftMs := r.leftMs } :: terrEntriesOf cycle r n t
    | _ => []

/-- The records of one module and sender CYCLE hold every part: a complete set (11 R340). -/
def setWhole (rs : List TerrRec) (m : Nat) (k : Word) : Bool :=
  let q := rs.filter (fun r => decide (r.mod_ = m) && decide (r.cycle = k))
  decide (q ≠ []) && q.all (fun r => (numsFrom 0 r.parts).all (fun i => q.any (fun o => decide (o.part = i) && decide (o.parts = r.parts))))

/-- Sender CYCLEs of the sets of a module. -/
def setCycles (rs : List TerrRec) (m : Nat) : List Word := ((rs.filter (fun r => decide (r.mod_ = m))).map (·.cycle)).eraseDups

/-- The newest complete set of a module: its records with one sender CYCLE and every part. -/
def newestSet (rs : List TerrRec) (m : Nat) : Option (List TerrRec) :=
  let mine := rs.filter (fun r => decide (r.mod_ = m))
  let ks := (setCycles rs m).filter (setWhole rs m)
  match ks.foldl (fun (b : Option Word) k => match b with
      | none => some k
      | some o => some (if serialAfter k o then k else o)) none with
  | none => none
  | some k => some (mine.filter (fun r => decide (r.cycle = k)))

/-- Sets taken from the other territories, in ascending order of the link they came by: territory, and its entries by part. Both
modules of a pair with a complete set: neither (11 R340). -/
def terrSets (s : State) (ts : List Taken) : List (Nat × List TerrEntry) :=
  let rs := terrRecs s ts
  let sets := ((rs.map (·.terr)).eraseDups).filterMap (fun t =>
    match (terrModules s.part t).filterMap (newestSet rs) with
    | [set] => some (t, set)
    | _ => none)
  let link : Nat × List TerrRec → Nat := fun q => (q.2.head?.map (·.link)).getD 0
  (sets.mergeSort (fun a b => decide (link a ≤ link b))).map (fun q =>
    (q.1, (q.2.mergeSort (fun a b => decide (a.part ≤ b.part))).flatMap (fun r => terrEntriesOf s.cycle r 84 r.data)))

/-- Incomplete sets, each module's by sender CYCLE: discarded and counted. -/
def terrIncomplete (s : State) (ts : List Taken) : Nat :=
  let rs := terrRecs s ts
  (((rs.map (·.mod_)).eraseDups).map (fun m => ((setCycles rs m).filter (fun k => !setWhole rs m k)).length)).sum

/-! ## FIELD (11 R348 to R350) -/

/-- A 192-bit vector of six words. -/
def vec192 (ws : List Word) : BitVec 192 :=
  (numsFrom 0 6).foldl (fun v k => v ||| ((ws.getD k 0).setWidth 192 <<< (32 * k))) 0

/-- The record of a FIELD-role module. -/
def fieldRecOf (s : State) (t : Taken) : FieldRec :=
  let w := t.tel.payload
  { cut := (w.getD 0 0).extractLsb' 0 8, read := vec192 (w.drop 1), fault := vec192 (w.drop 7), disc := vec192 (w.drop 109),
    status := (numsFrom 0 96).foldl (fun m o => putA 0 o (w.getD (13 + o) 0) m) [], taken := s.cycle, leftMs := leftOf s t }

/-- Every channel of a FIELD-role module that a cell of the part binds is served for this module (11 R347). How the logic module
learns the served masks is not stated: a free value (log entry 42). -/
def servedAll (p : StationPart) (m : Nat) : Bool :=
  p.cells.all (fun q => !isLive q.2 || !bindRemote q.2 || decide (remoteModule q.2 ≠ m) ||
    ((boundIns q.2).all (Config.serves m false) && (boundOuts q.2).all (Config.serves m true)))

/-- A FIELD record of a field module: at the first acceptance the served channels are checked, and a record that fails the check is
discarded and counted (11 R347). -/
def takeField (p : StationPart) (m : Nat) (r : FieldRec) (x : DieSt) : DieSt :=
  if x.fields.any (fun q => decide (q.1 = m)) || servedAll p m then { x with fields := putA fieldNone m r x.fields }
  else { x with dieFaults := x.dieFaults + 1 }

/-- FIELD records of the field side and of the logic side. -/
def takeFields (s : State) (ts : List Taken) (x : DieSt) : DieSt :=
  let fs := ts.filter (fun t => decide (telType t.tel = tyFIELD))
  let x1 := fs.foldl (fun x t =>
    match ownSystemPos s t.link with
    | some m =>
      if t.tel.payload.length = 115 && decide (sysRole (sysWord s.part m) ≠ 0) then takeField s.part m (fieldRecOf s t) x else x
    | none => x) x
  let shares := (fs.filter (fun t => decide (t.tel.payload.length = 4) && bitOf (t.tel.payload.getD 0 0) 31)).filterMap (fun t =>
    (ownSystemPos s t.link).map (fun m =>
      ({ mod_ := m, share := share96 (t.tel.payload.getD 1 0) (t.tel.payload.getD 2 0) (t.tel.payload.getD 3 0), taken := s.cycle,
         leftMs := leftOf s t } : ShareRec)))
  let kept := shares.filter (fun q => match partnerOf s.part q.mod_ with
    | some p => !shares.any (fun o => decide (o.mod_ = p))
    | none => true)
  let live := x1.shareRecs.filter (fun q => decide ((s.cycle - q.taken).toNat * periodOf s ≤ q.leftMs))
  if ownRole s = 0 then x1 else { x1 with shareRecs := live ++ kept }

/-! ## Link states and losses (09 R307, 11 R351) -/

/-- A link becomes LOST: 0xC2, a record, and its echo candidate is cleared. -/
def linkLost (n : Nat) (s : State) : State :=
  logOpen cdLINKLOST unBRIDLE 0 n (BitVec.ofNat 64 n) (postEvery 0xC2 s)

/-- Milliseconds since the first boundary. -/
def sinceFirst (s : State) : Nat := if s.boundaries = 0 then 0 else s.ao.ms - s.firstBoundaryMs

/-- The state of one link at SAMPLE, with NET_DOWN. -/
def linkSample (s : State) (n : Nat) : State :=
  let l := linkSt s.links n
  let q := linkStep s.part s.ao.ms (sinceFirst s) n l
  let l1 := netStep s.part s.ao.ms n q.1
  let s1 := onLinks (putLinkSt n l1) s
  let s2 := if q.2 then linkLost n s1 else s1
  if (l1.netDownA && !l.netDownA) || (l1.netDownB && !l.netDownB) then
    logOpen cdNETDOWN unBRIDLE (if l1.netDownA then 1 else 2) n (BitVec.ofNat 64 n) s2 else s2

/-- A link is UP. -/
def linkUp (s : State) (n : Nat) : Bool := decide ((linkSt s.links n).state = .up)

/-- No link to the two modules of a territory's pair is UP. -/
def terrLost (s : State) (t : Nat) : Bool :=
  !(terrModules s.part t).any (fun m => match linkToModule s.part m with
    | some n => linkUp s n
    | none => false)

/-- Other territories that the system table names. -/
def otherTerrs (s : State) : List Nat :=
  (((numsFrom 0 64).filter (fun m => sysValid (sysWord s.part m) && decide (sysRole (sysWord s.part m) ≠ 1))).map (fun m =>
    sysTerr (sysWord s.part m))).eraseDups.filter (fun t => t ≠ ownTerr s)

/-- A module has had a link that is LOST and is not UP again. -/
def modLost (s : State) (n : Nat) : Bool := decide ((linkSt s.links n).state = .lost)

/-- Territories that are lost or not yet reconciled: lost while no link of theirs is UP (11 R330), and then listed until a complete
set of theirs has been taken (11 R353). `sets`: territories with a set in this SAMPLE. -/
def nextLostTerr (s : State) (sets : List Nat) : List Nat :=
  (otherTerrs s).filter (fun t => terrLost s t || (s.lostTerr.contains t && !sets.contains t))

/-- The link to a module position of the own station system is LOST. -/
def posLost (s : State) (m : Nat) : Bool :=
  match linkToModule s.part m with
  | some n => modLost s n
  | none => false

/-- Address of a module position of the own station system. -/
def ownAddrOf (s : State) (m : Nat) : Nat := (stationNo s ++ BitVec.ofNat 6 m : BitVec 18).toNat

/-- Addresses of the modules that are lost as owners (02 R101): those of a lost territory one of whose links is LOST, until the
territory is reconciled, and those of another station system whose one link is LOST (11 R330). DEDUCED (log entry 55): R101 ties
FAULT.REMOTE_LOST to T_loss, so a territory whose links are only DOWN after a start sets none. -/
def nextLostOwners (s : State) (lost : List Nat) : List Nat :=
  ((numsFrom 0 64).filter (fun m =>
      let w := sysWord s.part m
      sysValid w && decide (sysRole w ≠ 1) && lost.contains (sysTerr w) &&
        (s.lostOwners.contains (ownAddrOf s m) || (terrModules s.part (sysTerr w)).any (posLost s)))).map (ownAddrOf s) ++
    ((validLinks s.part).filter (fun n => decide ((linkOf s.part n).peer.extractLsb' 6 12 ≠ stationNo s) && modLost s n)).map
      (fun n => (linkOf s.part n).peer.toNat)

/-- Positions of the modules with a served table whose FIELD link is LOST (11 R351, R353). -/
def nextLostFields (s : State) : List Nat :=
  (numsFrom 0 64).filter (fun m => sysValid (sysWord s.part m) && decide (sysRole (sysWord s.part m) ≠ 0) && posLost s m)

/-- The largest lead of the telegrams taken from the own station system (11 R332). -/
def largestLead (s : State) (ts : List Taken) : Option Int :=
  (ts.filter (fun t => (ownSystemPos s t.link).isSome)).foldl (fun b t =>
    let l := leadOf s t.tel
    match b with
    | none => some l
    | some o => some (max o l)) none

/-- TELEGRAM_TAKE: everything that SAMPLE takes from the links. `ts`: dies that run this cycle. -/
def takeTelegrams (s0 : State) : State :=
  let q := takeSpools s0
  let s1 := (validLinks q.1.part).foldl linkSample (apartRecord q.1)
  let shown := onLinks (fun x => { x with utcShown := x.utcNew }) s1
  let recs := q.2.filter (fun t => decide (telType t.tel ≠ tyIDLE))
  let fit := fitRecords 1008 recs
  let s2 := fit.2.foldl (fun s t => onLinks (countDiscard t.link dcFULL) s) shown
  let sets := terrSets s2 fit.1
  let lost := nextLostTerr s2 (sets.map (·.1))
  let back := s2.lostTerr.filter (fun t => !lost.contains t)
  let lead := largestLead s2 q.2
  let steer : Int :=
    if s2.mode = .standby then s2.slkAdjust
    else match lead with
      | some l => if s2.mode = .active && decide (ownRole s2 ≠ 1) && decide (1 ≤ l) && decide (l ≤ 4096) then -64 else 0
      | none => 0
  let s3 := { s2 with lostTerr := lost, slkAdjust := steer }
  let s4 := { s3 with lostOwners := nextLostOwners s3 lost, lostFields := nextLostFields s3 }
  let ws := rxImage s4 fit.1 (decide (fit.2 ≠ []))
  let es := cellsTaken s4 fit.1
  let todo := (sets.flatMap (·.2)).map Todo.terr
  let bad := terrIncomplete s4 fit.1
  onDies (fun _ x =>
    if x.phase ≠ phWAKE then x
    else
      let y := takeFields s4 fit.1 (takeMirrors s4 es (writeImage ws x))
      { y with todo := todo, reconcile := back, dieFaults := y.dieFaults + bad }) s4

end Sys2Proof.Machine
end

