-- ==== Sys2Proof/Machine/Requests.lean ====
section
/-!
DEFINITION. What a die does at step 5 of RULES_IN: cell commands (02 R93), route requests (03 R113), the two-step commands (17
R475), forces (15 R446, R447), the tests of an online change (15 R440), HANDOVER (12 R379), and TERR entries with
reconciliation (11 R341 to R344, R353).
-/

namespace Sys2Proof.Machine

/-! ## Results -/

/-- Result of a request by the supervisor of a region; a halted region gives none. -/
def giveResult (r n : Nat) (result reason : BitVec 8) (info : Word) (x : DieSt) : DieSt :=
  if (reg x r).halted then x else putResult r { slot := n, result := result, reason := reason, info := info } x

/-! ## Routes -/

/-- Enter a new live entry for a route or a proxy, in the table and in the directory (03 R107, R109). -/
def enterRoute (cx : Ctx) (proxy : Bool) (id : BitVec 13) (key : Word) (x : DieSt) : DieSt :=
  match lowestFree x with
  | none => x
  | some i =>
    listRoute cx i <| setWork (setRoute { x with accepted := x.accepted + 1 } i
      { routeIdle with state := rsPROBING, origin := if proxy then 1 else 0, routeId := id, key := key }) i workNone

/-- ROUTE_SET (03 R113). A module in FIELD role runs no route logic (01 R65; the REASON it gives: log entry 57). -/
def dieRouteSet (cx : Ctx) (n : Nat) (id : BitVec 13) (x : DieSt) : DieSt :=
  let d := readDesc cx x false id.toNat
  let r := regionOf d.1.entrance
  let refuse := fun (c : BitVec 8) => giveResult r n rsREFROUTE c 0 x
  if (reg x r).halted then x
  else if !cx.running then refuse rnMODE
  else if cx.fieldRole then refuse rnNOTALLOWED
  else match findRoute x false id with
    | some i =>
      if (getRoute x i).replaced then giveResult r n rsDONE 0 0 (modRoute x i (fun e => { e with replaced := false }))
      else refuse rnDUPLICATE
    | none =>
      if 64 ≤ x.accepted || (lowestFree x).isNone then refuse rnCAPACITY
      else if !d.1.valid || !d.2 then refuse rnDESCRIPTOR
      else
        let y := enterRoute cx false id (mkKey x.cycleNo cx.keyPos x.rank) x
        giveResult r n rsDONE 0 0 { y with rank := y.rank + 1 }

/-- A command on a live route, kept for EVALUATE (03 R134, 17 R472). A route takes one command in a cycle. -/
def dieRouteCmd (cx : Ctx) (n : Nat) (proxy : Bool) (id : BitVec 13) (cmd : Nat → RouteCmd) (x : DieSt) : DieSt :=
  let r := regionOf (readDesc cx x proxy id.toNat).1.entrance
  if (reg x r).halted then x
  else match findRoute x proxy id with
    | none => giveResult r n rsREFROUTE rnNOTALLOWED 0 x
    | some i =>
      if (getWork x i).cmd.isSome then giveResult r n rsREFROUTE rnNOTALLOWED 0 x
      else modWork x i (fun w => { w with cmd := some (cmd n) })

/-! ## Cells (02 R93) -/

/-- A command on a cell: `ok` tells the classes it may name, `act` gives the record, none where the cell holds another value. -/
def dieCellCmd (n cell : Nat) (ok : CellRec → Bool) (act : CellRec → Option CellRec) (x : DieSt) : DieSt :=
  let r := regionOf cell
  let c := fabricRead (getCell x cell)
  if (reg x r).halted then x
  else if !ok c then giveResult r n rsREFUSED wrTARGET 0 x
  else match act c with
    | none => giveResult r n rsREFUSED wrSTATE 0 (setCell x cell c)
    | some c1 => giveResult r n rsDONE 0 0 (setCell x cell c1)

/-- Any class except UNUSED and BOUNDARY. -/
def blockable (c : CellRec) : Bool := isLive c && !isCls .boundary c

/-- BLOCK and UNBLOCK. -/
def dieBlock (n cell : Nat) (from_ to_ : Half) (x : DieSt) : DieSt :=
  dieCellCmd n cell blockable (fun c => if c.lock = from_ then some (putCoded .lock to_ c) else none) x

/-- POINT_CALL: an application write under R79; refused with STATE where NONE is stored. -/
def diePointCall (cx : Ctx) (n cell : Nat) (pos : BitVec 2) (x : DieSt) : DieSt :=
  let r := regionOf cell
  let c := fabricRead (getCell x cell)
  let v := if pos = 1 then cmdNORMAL else cmdREVERSE
  if (reg x r).halted then x
  else if !isPointLike c then giveResult r n rsREFUSED wrTARGET 0 x
  else
    let q := appWrite .cmd (v.setWidth 32) (cellProf cx x c) false false c
    if q.1 = stSTORED then giveResult r n rsDONE 0 0 (setCell x cell q.2)
    else giveResult r n rsREFUSED wrSTATE 0 (setCell x cell q.2)

/-- Classes of SECTION_RESTORE. -/
def restorable (c : CellRec) : Bool :=
  isCls .trackSection c || isPointLike c || isCls .diamond c || isCls .levelCrossing c

/-- DISTURBED replaced by what the bound inputs give. -/
def restoreCell (cx : Ctx) (x : DieSt) (c : CellRec) : CellRec :=
  match clsOf c.cls with
  | some k => putCoded .occ (deriveOccPos k (senseOf cx x c) (putCoded .occ occOCCUPIED c)).occ c
  | none => c

/-! ## Two-step commands (17 R475) -/

/-- Pending entries of the module as a die holds them. -/
def allPendings (x : DieSt) : List PendEntry := (numsFrom 0 16).flatMap (fun r => (reg x r).sup.pendings)

/-- The pending entry for a command and a target. -/
def pendingFor (x : DieSt) (r : Nat) (cmd : BitVec 8) (target : Word) : Option PendEntry :=
  (reg x r).sup.pendings.find? (fun p => decide (p.cmd = cmd) && decide (p.target = target))

/-- A first step without its confirm by 60 s (17 R475). -/
def pendingOver (n : Word) (p : Nat) (e : PendEntry) : Bool := decide (60000 < (n - e.taken).toNat * p)

/-- The pending entries whose time is over leave the supervisors that run. -/
def expirePendings (n : Word) (p : Nat) (x : DieSt) : DieSt :=
  mapRegs x (fun _ g => if g.halted then g else { g with sup := { g.sup with pendings := g.sup.pendings.filter (fun e => !pendingOver n p e) } })

/-- Remove it. -/
def dropPending (r : Nat) (cmd : BitVec 8) (target : Word) (x : DieSt) : DieSt :=
  modReg x r (fun g => { g with sup := { g.sup with pendings := g.sup.pendings.filter (fun p =>
    !(decide (p.cmd = cmd) && decide (p.target = target))) } })

/-- A two-step request: `test` gives the refusal of the command's own tests, `act` carries it out and gives its result. -/
def twoStep (cx : Ctx) (n r : Nat) (cmd : BitVec 8) (target ticket : Word) (confirm : Bool)
    (test : DieSt → Option (BitVec 8 × BitVec 8)) (act : DieSt → DieSt) (x : DieSt) : DieSt :=
  if (reg x r).halted then x
  else if !confirm then
    match test x with
    | some q => giveResult r n q.1 q.2 0 x
    | none =>
      if (pendingFor x r cmd target).isSome then giveResult r n rsREFUSED wrPENDING 0 x
      else if 16 ≤ (allPendings x).length then giveResult r n rsREFUSED wrFULL 0 x
      else
        giveResult r n rsPENDING 0 0 (modReg x r (fun g => { g with sup := { g.sup with
          pendings := g.sup.pendings ++ [{ cmd := cmd, target := target, taken := x.cycleNo, slot := n, ticket := ticket }] } }))
  else
    match pendingFor x r cmd target with
    | none => giveResult r n rsREFUSED wrNOPENDING 0 x
    | some p =>
      let ms := (x.cycleNo - p.taken).toNat * cx.periodMs
      let y := dropPending r cmd target x
      if ms < 5000 then giveResult r n rsREFUSED wrEARLY 0 y
      else if 60000 < ms then giveResult r n rsREFUSED wrNOPENDING 0 y
      else match test y with
        | some q => giveResult r n q.1 q.2 0 y
        | none => act y

/-- States from which 03 Table 3.15 has a row for a confirmed EMERG_RELEASE. -/
def emergStates : List (BitVec 8) := [rsLOCKED, rsPROVEN, rsFAILED, rsENTERED]

/-- EMERG_RELEASE. The first step is tested against the route's state (17 R475); at the confirm EVALUATE decides (17 R472). -/
def dieEmergRelease (cx : Ctx) (n : Nat) (ws : List Word) (x : DieSt) : DieSt :=
  let a := ws.getD 4 0
  let proxy := bitOf a 13
  let id := a.extractLsb' 0 13
  let r := regionOf (readDesc cx x proxy id.toNat).1.entrance
  twoStep cx n r 7 a (ws.getD 1 0) (bitOf (ws.getD 5 0) 0)
    (fun x => match findRoute x proxy id with
      | none => some (rsREFROUTE, rnNOTALLOWED)
      | some i => if bitOf (ws.getD 5 0) 0 || emergStates.contains (getRoute x i).state then none else some (rsREFROUTE, rnNOTALLOWED))
    (dieRouteCmd cx n proxy id RouteCmd.emergency) x

/-- SECTION_RESTORE. -/
def dieSectionRestore (cx : Ctx) (n : Nat) (ws : List Word) (x : DieSt) : DieSt :=
  let a := ws.getD 4 0
  let cell := (a.extractLsb' 0 12).toNat
  twoStep cx n (regionOf cell) 8 a (ws.getD 1 0) (bitOf (ws.getD 5 0) 0)
    (fun x =>
      let c := fabricRead (getCell x cell)
      if !restorable c then some (rsREFUSED, wrTARGET)
      else if c.occ ≠ occDISTURBED then some (rsREFUSED, wrSTATE) else none)
    (fun x => giveResult (regionOf cell) n rsDONE 0 0 (setCell x cell (restoreCell cx x (fabricRead (getCell x cell))))) x

/-! ## Forces (15 R446, R447) -/

/-- Force entry of a request's arguments. -/
def forceOf (ws : List Word) : ForceEntry := { f0 := ws.getD 4 0, f1 := ws.getD 5 0, f2 := ws.getD 6 0, f3 := ws.getD 7 0 }

/-- Why a FORCE_SET is refused; none: accepted. `permit`: FORCE_PERMIT reads on. -/
def forceRefusal (p : StationPart) (mode change permit : Bool) (f : ForceEntry) (l : List ForceEntry) (added : Nat) :
    Option (BitVec 8) :=
  let tgt := forceTarget f
  if !mode || change then some wrMODE
  else if tgt = tgINPUT && 191 < forceChannel f then some wrTARGET
  else if tgt = tgOUTPUT && 95 < forceChannel f then some wrTARGET
  else
    let var := if tgt = tgVARIABLE then varOf p (forceRegion f) f.f1 else none
    if tgt = tgVARIABLE && var.isNone then some wrTARGET
    else if var.any (fun v => decide (5 ≤ v.typ.toNat)) then some wrTYPE
    else if !forceRestrictive p f && !(p.commissioning && permit) then some wrPERMIT
    else if !l.any (sameForce f) && 64 ≤ l.length + added then some wrFULL
    else none

/-- FORCE_SET at the supervisor of region 0: the bridle changes the table with the result. -/
def dieForceSet (s : State) (n : Nat) (ws : List Word) (x : DieSt) : DieSt :=
  let g := reg x 0
  let f := forceOf ws
  let added := (g.results.filter (fun q => decide (q.info = 1))).length
  match forceRefusal s.part (decide (s.mode = .active) || decide (s.mode = .standby)) s.overlays.change (permitOn s swFORCE) f
      g.sup.forces added with
  | some c => giveResult 0 n rsREFUSED c 0 x
  | none => giveResult 0 n rsDONE 0 (if g.sup.forces.any (sameForce f) then 0 else 1) x

/-- FORCE_CLEAR: refused with STATE where no such force stands. -/
def dieForceClear (s : State) (n : Nat) (ws : List Word) (x : DieSt) : DieSt :=
  if s.overlays.change || !(decide (s.mode = .active) || decide (s.mode = .standby)) then giveResult 0 n rsREFUSED wrMODE 0 x
  else if !(reg x 0).sup.forces.any (sameForce (forceOf ws)) then giveResult 0 n rsREFUSED wrSTATE 0 x
  else giveResult 0 n rsDONE 0 0 x

/-! ## Online change and handover -/

/-- The tests of 15 Table 15.9 in order; 0: accepted. -/
def changeTest (s : State) (slotB : Bool) : BitVec 8 :=
  match s.carrier with
  | none => chCHECK
  | some c =>
    let img := slotOf c slotB
    let act := slotOf c s.partSlotB
    let cx := ctxOf s
    if !(decide (s.mode = .active) || decide (s.mode = .standby)) || s.overlays.degraded || s.overlays.probation || s.overlays.change then
      chMODE
    else if !permitOn s swCHANGE then chPERMIT
    else if slotB = s.partSlotB then chCHECK
    else if slotFails s.recordKey s.versions (stationNo s) slotB img = some .manifest then chSIGNATURE
    else if [0, 1, 2, 4].any (fun p => decide (partDigest img p ≠ partDigest act p)) then chPARTS
    else if !topologySame s.part img.data then chTOPOLOGY
    else if !layoutKept s.part img.data then chLAYOUT
    else if !forcesKept img.data s.part s.forces then chFORCE
    else if (numsFrom 0 16).any (fun r => decide (cx.budgetIn / 4 < carryCharge s.part img.data r)) then chCHARGE
    else if (slotFails s.recordKey s.versions (stationNo s) slotB img).isSome || !changeChecks cx (stationNo s) img.data then chCHECK
    else chNONE

/-- ONLINE_CHANGE. -/
def dieOnlineChange (s : State) (n : Nat) (ws : List Word) (x : DieSt) : DieSt :=
  let c := changeTest s (bitOf (ws.getD 4 0) 0)
  if c = chNONE then giveResult 0 n rsDONE 0 0 x else giveResult 0 n rsREFCHANGE c 0 x

/-- HANDOVER. -/
def dieHandover (s : State) (n : Nat) (x : DieSt) : DieSt :=
  if s.mode ≠ .active || s.overlays.change then giveResult 0 n rsREFUSED wrMODE 0 x
  else if !partnerReady s then giveResult 0 n rsREFUSED wrPARTNER 0 x
  else giveResult 0 n rsDONE 0 0 x

/-- One request at one die. -/
def dieRequest (s : State) (n : Nat) (x : DieSt) : DieSt :=
  let cx := ctxOf s
  let ws := reqWords s.win n
  let a := ws.getD 4 0
  let id := a.extractLsb' 0 13
  let cell := (a.extractLsb' 0 12).toNat
  match reqCmd ws with
  | some .routeSet => dieRouteSet cx n id x
  | some .routeCancel => dieRouteCmd cx n false id RouteCmd.cancel x
  | some .pointCall => diePointCall cx n cell (a.extractLsb' 12 2) x
  | some .block => dieBlock n cell lockFREE lockBLOCKED x
  | some .unblock => dieBlock n cell lockBLOCKED lockFREE x
  | some .signalReplace => dieRouteCmd cx n false id RouteCmd.replace x
  | some .emergRelease => dieEmergRelease cx n ws x
  | some .sectionRestore => dieSectionRestore cx n ws x
  | some .forceSet => dieForceSet s n ws x
  | some .forceClear => dieForceClear s n ws x
  | some .onlineChange => dieOnlineChange s n ws x
  | some .handover => dieHandover s n x
  | _ => x

/-! ## TERR entries (11 R341 to R344) -/

/-- The valid proxy of a territory's route. -/
def proxyOf (x : DieSt) (terr : Nat) (route : BitVec 13) : Option Nat :=
  (numsFrom 0 512).find? (fun n =>
    let ws := proxyWords x x.active n
    let d := descOf true ws
    d.valid && decide (d.reqTerr = terr) && decide (d.routeId = route))

/-- Keep the newest taken entry in the supervisor data of a region. -/
def keepTerr (r : Nat) (e : TerrEntry) (x : DieSt) : DieSt :=
  modReg x r (fun g => { g with sup := { g.sup with terrs := g.sup.terrs.filter (fun t =>
    !(decide (t.terr = e.terr) && (t.forProxy == e.forProxy) && decide (t.route = e.route))) ++ [e] } })

/-- Live proxies of a region for a territory. -/
def proxyCount (cx : Ctx) (x : DieSt) (r terr : Nat) : Nat :=
  ((liveRoutes x).filter (fun i =>
    let e := getRoute x i
    isProxy e && decide (entryRegion x e = r) && decide ((entryDesc cx x e).reqTerr = terr))).length

/-- A PROBE for a proxy without a live entry (11 R342). -/
def acceptProxy (cx : Ctx) (r : Nat) (e : TerrEntry) (x : DieSt) : DieSt :=
  let nack := fun (c : BitVec 8) => pushTerr r e.terr 0x9 c e.route e.key x
  if !cx.running then nack rnMODE
  else match proxyOf x e.terr e.route with
    | none => nack (if 64 ≤ x.accepted || (lowestFree x).isNone then rnCAPACITY else rnDESCRIPTOR)
    | some n =>
      let d := readDesc cx x true n
      if 64 ≤ x.accepted || (lowestFree x).isNone || 84 ≤ proxyCount cx x (regionOf d.1.entrance) e.terr then nack rnCAPACITY
      else if !d.2 then nack rnDESCRIPTOR
      else enterRoute cx true (BitVec.ofNat 13 n) e.key x

/-- A committed proxy. -/
def isCommitted (e : RouteEntry) : Bool := isLiveEntry e && decide (e.state ≠ rsPROBING) && decide (e.state ≠ rsPROBED)

/-- The proxy returns to IDLE with CANCEL: every mark of it goes. -/
def cancelProxy (i : Nat) (x : DieSt) : DieSt := toIdle i rnNONE (cancelMarks (getRoute x i) x)

/-- Live entry of the proxy a requester's entry names. -/
def proxyEntry (x : DieSt) (e : TerrEntry) : Option Nat :=
  match proxyOf x e.terr e.route with
  | none => none
  | some n => findRoute x true (BitVec.ofNat 13 n)

def ownerProbe (cx : Ctx) (r : Nat) (e : TerrEntry) (x : DieSt) : DieSt :=
  match proxyEntry x e with
  | none => acceptProxy cx r e x
  | some i =>
    let p := getRoute x i
    if p.key = e.key then x
    else if isCommitted p then pushTerr r e.terr 0x9 rnDUPLICATE e.route e.key x
    else acceptProxy cx r e (cancelProxy i x)

/-- RELEASED for a key that no proxy holds (11 Table 11.7). -/
def ownerReleased (r : Nat) (e : TerrEntry) (x : DieSt) : DieSt := pushTerr r e.terr 0xB 0 e.route e.key x

def ownerCommit (r : Nat) (e : TerrEntry) (x : DieSt) : DieSt :=
  match proxyEntry x e with
  | none => ownerReleased r e x
  | some i =>
    let p := getRoute x i
    if p.key ≠ e.key then ownerReleased r e x
    else if p.state = rsPROBED then modWork x i (fun w => { w with granted := true }) else x

def ownerEntered (cx : Ctx) (r : Nat) (e : TerrEntry) (x : DieSt) : DieSt :=
  match proxyEntry x e with
  | none => ownerReleased r e x
  | some i =>
    let p := getRoute x i
    if p.key ≠ e.key then ownerReleased r e x
    else if [rsCALLING, rsLOCKED, rsPROVEN].contains p.state then toEntered cx i x else x

def ownerRelease (r : Nat) (e : TerrEntry) (x : DieSt) : DieSt :=
  match proxyEntry x e with
  | none => ownerReleased r e x
  | some i =>
    let p := getRoute x i
    if p.key ≠ e.key then ownerReleased r e x
    else if isCommitted p then setRoute x i { p with state := rsRELEASING } else x

def ownerCancel (e : TerrEntry) (x : DieSt) : DieSt :=
  match proxyEntry x e with
  | none => x
  | some i =>
    let p := getRoute x i
    if p.key = e.key && !isCommitted p then cancelProxy i x else x

/-- Live crossing route that an owner's entry names. -/
def crossingEntry (x : DieSt) (e : TerrEntry) : Option Nat :=
  (findRoute x false e.route).filter (fun i => decide ((getRoute x i).key = e.key))

def reqProbed (e : TerrEntry) (x : DieSt) : DieSt :=
  match crossingEntry x e with
  | none => x
  | some i =>
    let p := getRoute x i
    let w := getWork x i
    if p.state = rsPROBING && w.waiting then
      setWork (setRoute x i { p with state := rsPROBED }) i { w with granted := true, waiting := false }
    else x

def reqNack (cx : Ctx) (e : TerrEntry) (x : DieSt) : DieSt :=
  match crossingEntry x e with
  | none => x
  | some i =>
    let p := getRoute x i
    if p.state = rsPROBING && (getWork x i).waiting then afterNack cx i e.reason (cancelMarks p x) else x

/-- States of a crossing route that a lost proxy fails. -/
def failsByProxy (s : BitVec 8) : Bool := [rsCALLING, rsLOCKED, rsPROVEN, rsAPPROACH].contains s

def reqHeld (e : TerrEntry) (x : DieSt) : DieSt :=
  match crossingEntry x e with
  | none => x
  | some i =>
    let p := getRoute x i
    if e.failed && failsByProxy p.state then setFailed x i p rnLOCKLOST else x

def reqReleased (e : TerrEntry) (x : DieSt) : DieSt :=
  match crossingEntry x e with
  | none => x
  | some i =>
    let p := getRoute x i
    let y := modWork x i (fun w => { w with proxyHeld := false })
    if failsByProxy p.state then setFailed y i p rnLOCKLOST else y

/-- Region that keeps a taken entry: of FIRST of the proxy, or of the crossing route. -/
def terrRegion (cx : Ctx) (x : DieSt) (e : TerrEntry) : Nat :=
  if e.forProxy then
    match proxyOf x e.terr e.route with
    | some n => regionOf (readDesc cx x true n).1.entrance
    | none => 0
  else regionOf (readDesc cx x false e.route.toNat).1.entrance

/-- An operation of 11 Table 11.6. -/
def terrOpKnown (op : BitVec 4) : Bool := [1, 2, 3, 4, 5, 8, 9, 0xA, 0xB].contains op

/-- One TERR entry at one die: recorded, then acted on; an undefined OP is ignored and counted, and the supervisor of a halted region
takes nothing (01 R38). A module in FIELD role runs no route logic (01 R65). -/
def dieTerr (cx : Ctx) (e : TerrEntry) (x0 : DieSt) : DieSt :=
  if cx.fieldRole then x0
  else if !terrOpKnown e.op then { x0 with dieFaults := x0.dieFaults + 1 }
  else if regHalted x0 (terrRegion cx x0 e) then x0
  else
    let r := terrRegion cx x0 e
    let x := keepTerr r e x0
    if e.op = 1 then ownerProbe cx r e x
    else if e.op = 2 then ownerCommit r e x
    else if e.op = 3 then ownerEntered cx r e x
    else if e.op = 4 then ownerRelease r e x
    else if e.op = 5 then ownerCancel e x
    else if e.op = 8 then reqProbed e x
    else if e.op = 9 then reqNack cx e x
    else if e.op = 0xA then reqHeld e x
    else reqReleased e x

/-- Reconciliation of the frozen proxies of a returned territory (11 R353). -/
def reconcileTerr (cx : Ctx) (es : List TerrEntry) (x : DieSt) (t : Nat) : DieSt :=
  (liveRoutes x).foldl (fun y i =>
    let p := getRoute y i
    let d := entryDesc cx y p
    if !isProxy p || d.reqTerr ≠ t || !isCommitted p then y
    else
      match es.find? (fun e => e.forProxy && decide (e.terr = t) && decide (e.route = d.routeId) && decide (e.key = p.key)) with
      | some e =>
        if e.op = 2 || e.op = 3 then y
        else if e.op = 4 then setRoute y i { p with state := rsRELEASING }
        else setFailed y i p rnLOCKLOST
      | none => setFailed y i p rnLOCKLOST) x

/-- TERR entries of a work list. -/
def todoTerrs (l : List Todo) : List TerrEntry := l.filterMap (fun t => match t with
  | .terr e => some e
  | .request _ => none)

end Sys2Proof.Machine
end

