-- ==== Sys2Proof/Machine/Phases.lean ====
section
/-!
DEFINITION. The phases of a cycle in a channel die from its cycle-start message to RULES_OUT (04 R144 to R154), the taking of
window requests (17 R470, R471), the work of step 5 of RULES_IN, and the stops of tasks and pairs.
-/

namespace Sys2Proof.Machine

/-! ## Cycle start (01 R51, 04 R154; 14 R424; 19 R501) -/

/-- Place a logical cluster in a physical one. -/
def placeCluster (l p : Nat) (g : RegionSt) : RegionSt := { g with map := putA 99 l (if p = l then 99 else p) g.map }

/-- The region map changes: the freshly tested spare is live, and its successor is the spare. -/
def migrateRegion (g : RegionSt) : RegionSt :=
  let old := (g.spare + 1) % 17
  match logicalOf g old with
  | some l => { placeCluster l g.spare g with spare := old }
  | none => { g with spare := old }

/-- A setup applied to one pair: SAMPLE_EN, selectors and reloads, with every count cleared (19 R501). -/
def pmcApply (ws : List Word) (p : PmcSt) : PmcSt :=
  { p with cyc := 0, cycHi := 0, cnt := [], selA := ws.getD 1 0, selB := ws.getD 2 0,
           stat := (0#8 ++ (ws.getD 0 0).extractLsb' 8 8 ++ 0#16 : BitVec 32),
           reload := (numsFrom 0 8).foldl (fun m n => putA 0 n (ws.getD (4 + n) 0) m) [], ring := [] }

/-- What a new cycle clears in a region. REVERT_OVER stands until the next VOTE has published it: a run may end between cycles. -/
def regionCycleStart (g : RegionSt) : RegionSt :=
  { g with task := 0, haltCycle := false, overIn := false, overOut := false, charge := 0, results := [], sent := [], errLeft := [] }

/-- A die that ran no phases or abandons its cycle releases and marks its spool before WAKE (10 R326). -/
def spoolRestart (x : DieSt) : DieSt :=
  if x.phase ≠ phIDLE || !x.runsPhases then { x with evSpool := spMark true (spRelease true x.evSpool) } else x

/-- A cycle in which the die derives no cell breaks every run of clean cycles (02 R94). -/
def cellsNotClean (x : DieSt) : DieSt := { x with cells := mapA cellUnused (fun _ c => notClean c) x.cells }

/-- The pairs halted for their real clock count run again (04 R146), and take the events that have come since. -/
def wakePairs (was : DieSt) (x : DieSt) : DieSt :=
  (numsFrom 0 16).foldl (fun y r => if (reg was r).haltCycle then startRevert r y else y) x

/-- A die takes a good cycle-start message of cycle `k`. -/
def dieCycleStart (k : Word) (setup : Option (List Word)) (x0 : DieSt) : DieSt :=
  let x := spoolRestart (if x0.phase = phWAKE || x0.phase = phSAMPLE then cellsNotClean x0 else x0)
  let x1 := { discardTokens x with abandoned := decide (x0.phase ≠ phIDLE), phase := phWAKE, cycleNo := k, fastClock := true,
                                   runsPhases := true, wakeLate := false, wave := .none, waveCut := false, todo := [], reconcile := [], sliceRun := none }
  let x2 := mapRegs x1 (fun r g => regionCycleStart (if x.migrateCopied.contains r then migrateRegion g else g))
  wakePairs x <| match setup with
  | none => { x2 with migrateCopied := [] }
  | some ws => { mapRegs x2 (fun _ g => { g with pmc := pmcApply ws g.pmc }) with migrateCopied := [] }

/-- A die whose cycle-start message fails its check runs no phases. -/
def dieCycleSkip (x : DieSt) : DieSt :=
  wakePairs x <| idleClock <|
    mapRegs { cellsNotClean (discardTokens x) with abandoned := decide (x.phase ≠ phIDLE), phase := phIDLE, runsPhases := false,
                                                   wakeLate := false, wave := .none, waveCut := false, todo := [] }
      (fun _ g => { g with task := 0, haltCycle := false, overIn := false, overOut := false, sent := [], results := [] })

/-- CYCLE_START_MESSAGE (01 R51, 04 R154). -/
def execCycleStartMessage (d : Die) (ok : Bool) (s : State) : Host.Outcome State Fault Refusal :=
  .next (if !cyclesRun s then s
         else onDie d (fun x => if ok then dieCycleStart s.cycle s.pmcWith x else dieCycleSkip x) s)

/-- WAKE_LATE (04 R154): a die in WAKE runs no phases in this cycle. -/
def execWakeLate (d : Die) (s : State) : Host.Outcome State Fault Refusal :=
  .next (onDie d (fun x => if x.phase = phWAKE then idleClock { cellsNotClean x with phase := phIDLE, runsPhases := false, wakeLate := true }
                           else x) s)

/-! ## Taking requests (17 R470, R471) -/

/-- A gateway fault is counted in WIN.REC_BAD and recorded (17 R479). -/
def recBad (n : Nat) (s : State) : State :=
  logOpen cdGATEWAYFAULT unBRIDLE 0 n 0 (onWin (fun w => { w with recBad := satInc w.recBad }) s)

/-- Result of a command handled by the dies where no cycles run (17 R471 test 4). -/
def modeRefusal : WinCmd → BitVec 8 × BitVec 8
  | .routeSet | .routeCancel | .signalReplace | .emergRelease => (rsREFROUTE, rnMODE)
  | .onlineChange => (rsREFCHANGE, wrMODE)
  | _ => (rsREFUSED, wrMODE)

/-- Result of a signed command that fails R473 or R474 with the given reason (17 R471 test 3). -/
def authRefusal (c : WinCmd) (k : Nat) : BitVec 8 × BitVec 8 :=
  match c with
  | .onlineChange => (rsREFCHANGE, 3)
  | .stageUpdate | .confirmUpdate => (rsREFUPDATE, upSIGNATURE)
  | _ => (rsBADAUTH, BitVec.ofNat 8 k)

/-- Outcome of the checks of a signed slot. -/
def slotChecked (w : WinSt) (n : Nat) : Option Nat := (w.checked.find? (fun p => decide (p.1 = n))).map (·.2)

/-- A command of a slot is signed. -/
def slotSigned (ws : List Word) : Bool :=
  match reqCmd ws with
  | some c => (cmdRole c).isSome
  | none => false

/-- The slot that the device would take next makes it stop: owned by the gateway, taken before and not yet handed back, or signed and
unchecked. -/
def slotWaits (s : State) : Bool :=
  let n := s.win.take
  if winFlag s.win n = ownGATEWAY || s.win.delivered.contains n || s.win.bridle.contains n then true
  else decide (winFlag s.win n = ownDEVICE) && slotSigned (reqWords s.win n) && (slotChecked s.win n).isNone

/-- A refused slot goes back at once. -/
def returnSlot (n : Nat) (q : BitVec 8 × BitVec 8) (s : State) : State := onWin (finishSlot n q.1 q.2 s.cycle) s

/-- Test the slot at WIN.TAKE (17 R471) and return it, deliver it to the dies, or give it to the bridle. -/
def takeSlot (running : Bool) (s0 : State) : State :=
  let n := s0.win.take
  let s := onWin (fun w => { w with take := (n + 1) % 64, takenAt := putA 0 n s0.cycle w.takenAt }) s0
  let ws := reqWords s.win n
  if winFlag s.win n ≠ ownDEVICE then returnSlot n (rsBADFLAG, 0) s
  else
    match reqCmd ws with
    | none => recBad n (returnSlot n (rsBADRECORD, 0) s)
    | some c =>
      if !recordOk (reqAddr n) ws c then recBad n (returnSlot n (rsBADRECORD, 0) s)
      else
        let bad := if (cmdRole c).isSome then (slotChecked s.win n).getD 3 else 0
        if bad ≠ 0 then
          let q := authRefusal c bad
          let s1 := returnSlot n q s
          if q.1 = rsBADAUTH then recBad n s1 else s1
        else if cmdBridle c then onWin (fun w => { w with bridle := w.bridle ++ [n] }) s
        else if running then onWin (fun w => { w with delivered := w.delivered ++ [n] }) s
        else returnSlot n (modeRefusal c) s

/-- Slots in ring order up to the first that waits. -/
def takeSlots (running : Bool) : Nat → State → State
  | 0, s => s
  | k + 1, s => if slotWaits s then s else takeSlots running k (takeSlot running s)

/-- REQUEST_TAKE: up to 64 slots, where the window is alive. -/
def takeRequests (running : Bool) (s : State) : State := if s.win.alive then takeSlots running 64 s else s

/-- REQUEST_CMD_UNDEFINED (17 R471): the slot at WIN.TAKE holds an undefined command. -/
def execRequestCmdUndefined (slot : Nat) (s : State) : Host.Outcome State Fault Refusal :=
  .next (if s.win.alive && decide (slot = s.win.take) && decide (winFlag s.win slot = ownDEVICE) && (reqCmd (reqWords s.win slot)).isNone
         then takeSlot (cyclesRun s) s else s)

/-! ## SAMPLE (04 R144, 05 R177, R185) -/

/-- The snapshot of a region: its sources of the previous cycle, input sources from FELL (07 R253); the sources of the counters
are the supervisor's alone (05 Table 5.9). -/
def snapshotOf (fell : BitVec 192) (prev : BitVec 256) : BitVec 256 := (0#56 ++ prev.extractLsb' 192 8 ++ fell : BitVec 256)

/-- A cell command (02 R93). -/
def isCellCmd : WinCmd → Bool
  | .pointCall | .block | .unblock | .sectionRestore => true
  | _ => false

/-- The work of step 5: cell commands in ring order, then every other command in ring order (02 R93, 03 R113, R134). -/
def orderRequests (w : WinSt) (l : List Nat) : List Todo :=
  let isCell := fun n => (reqCmd (reqWords w n)).any isCellCmd
  (l.filter isCell ++ l.filter (fun n => !isCell n)).map Todo.request

/-- What SAMPLE gives a die that has completed WAKE. -/
def dieSample (img : Image) (mode : Word) (forces : List ForceEntry) (reqs : List Todo) (x : DieSt) : DieSt :=
  let y := { x with phase := phSAMPLE, dsCycle := x.cycleNo, dsMode := mode, todo := reqs ++ x.todo,
                    image := { img with read := forceInputs forces img.read }, evSpool := spMark true x.evSpool }
  mapRegs y (fun _ g => { g with sup := { g.sup with snap := snapshotOf img.fell g.postedPrev, forces := forces } })

/-- SAMPLE: telegrams, requests, image, fall vector and snapshot. -/
def execSample (s : State) : Host.Outcome State Fault Refusal :=
  .next (if !cyclesRun s then s
         else
           let s1 := takeTelegrams s
           let before := s1.win.delivered.length
           let s2 := takeRequests true s1
           let reqs := orderRequests s2.win (s2.win.delivered.drop before)
           onDies (fun _ x => if x.phase = phWAKE then dieSample s2.frozen (modeWord s2.mode s2.overlays) s2.forces reqs x else x) s2)

/-! ## RULES_IN (02 Table 2.19, 05 R179) -/

/-- Steps 1 to 4 at one cell (02 R73, R83, R521, R101, R94). -/
def cellStepsIn (cx : Ctx) (x : DieSt) (n : Nat) (c : CellRec) : CellRec :=
  if regHalted x (regionOf n) then c
  else
    let c1 := stepTimers cx.periodMs (verifyCell c)
    startRelease (if isCls .boundary c1 then mirrorCell (freshMirror cx x n) (ownerLost cx c1) (settle c1)
                  else derive (senseOf cx x c1) c1)

/-- A cell of region `r` has newly set FAULT.REMOTE_LOST. -/
def newlyLost (old new : DieSt) (r : Nat) : Bool :=
  new.cells.any (fun p => decide (regionOf p.1 = r) && hasFault p.2 fREMOTE && !hasFault (getCell old p.1) fREMOTE)

/-- A cause of SUBSTITUTE at one cell (13 Table 13.3). -/
def substCell (cx : Ctx) (x : DieSt) (n : Nat) (c : CellRec) : Bool :=
  isLive c && (hasFault c fREMOTE || (isCls .boundary c && (freshMirror cx x n).isNone) ||
    (!isCls .boundary c && bindRemote c && decide (inCount c ≠ 0) && !fieldFresh cx x (remoteModule c)))

/-- A die holds a cause of SUBSTITUTE. -/
def substCause (cx : Ctx) (x : DieSt) : Bool := x.cells.any (fun p => substCell cx x p.1 p.2)

/-- Forced variables of every region, then the tasks of RULES_IN (15 R448, 05 R179). -/
def startTasksIn (part : StationPart) (x : DieSt) : DieSt :=
  let y := mapRegs x (fun r g => { g with mem := forceVars part r g.sup.forces g.mem })
  (numsFrom 0 16).foldl (fun z r => runTasksIn r 0 z) y

/-- The count of cycles for which each group has been shown restored (04 R160): the groups of the module by their number, those of the
FIELD-role module at position `m` by 8 × (m + 1) + number, from its records within T_max. -/
def restoredCount (cx : Ctx) (x : DieSt) : List (Nat × Nat) :=
  let up := fun (key : Nat) (shown : Bool) (m : List (Nat × Nat)) => putA 0 key (if shown then getA 0 x.restoredRun key + 1 else 0) m
  x.fields.foldl (fun m q => (numsFrom 0 8).foldl (fun m g =>
      up (8 * (q.1 + 1) + g) (fieldFresh cx x q.1 && !bitOf q.2.cut g) m) m)
    ((numsFrom 0 8).foldl (fun m g => up g (!bitOf x.image.group g) m) [])

/-- RULES_IN up to request acceptance. -/
def dieRulesIn (s : State) (x0 : DieSt) : DieSt :=
  let cx := ctxOf s
  let carry := decide (s.change.carryAt = some x0.cycleNo)
  let x1 := { x0 with phase := phRULESIN, restoredRun := restoredCount cx x0, accepted := 0, rank := 0 }
  let x2 := mapRegs x1 (fun r g =>
    let g1 := { g with dacc := crc64Ones, daccN := 0, charge := 8000 }
    if carry && !g.halted && !g.haltCycle then (carryRegion x0.image.read s.change.oldImage s.part r g1).1 else g1)
  let x3 := mapCells x2 (cellStepsIn cx x2)
  let x4 := (numsFrom 0 16).foldl (fun y r =>
    let y1 := if newlyLost x2 y r && !regHalted y r then postEvent r 0xC1 y else y
    if s.boundaries = 1 && !regHalted y r then postEvent r 0xC0 y1 else y1) x3
  let x5 := { x4.reconcile.foldl (reconcileTerr cx (todoTerrs x4.todo)) x4 with reconcile := [] }
  if x5.todo.isEmpty then startTasksIn s.part x5 else x5

/-- The bridle sets SUBSTITUTE where a die shows a cause (13 Table 13.3). -/
def noteSubstitute (d : Die) (s : State) : State :=
  if substCause (ctxOf s) (dieOf s d) then setOverlays { s.overlays with substitute := true } s else s

/-- RULES_IN. -/
def execRulesIn (d : Die) (s : State) : Host.Outcome State Fault Refusal :=
  .next (if (dieOf s d).phase = phSAMPLE then noteSubstitute d (takeDieLogs d (onDie d (dieRulesIn s) s)) else s)

/-! ## Step 5 of RULES_IN -/

/-- The image of a change that has been accepted and has neither switched nor been aborted. -/
def changeImage (s : State) (x : DieSt) : Option StationPart :=
  if s.change.phase ≠ .none then some s.change.image
  else
    match (reg x 0).results.find? (fun q => decide (reqCmd (reqWords s.win q.slot) = some .onlineChange) && decide (q.result = rsDONE)),
        s.carrier with
    | some q, some c => some (slotOf c (bitOf ((reqWords s.win q.slot).getD 4 0) 0)).data
    | _, _ => none

/-- A die that holds the image in its inactive banks. -/
def withImage (s : State) (x : DieSt) (p : StationPart) : DieSt := loadTables (ctxOf s) (!x.active) p x

/-- A ROUTE_SET for a route that the accepted change alters (15 R443). -/
def barredSet (s : State) (x : DieSt) (n : Nat) : Option (BitVec 13) :=
  let ws := reqWords s.win n
  match reqCmd ws, changeImage s x with
  | some .routeSet, some p =>
    let id := (ws.getD 4 0).extractLsb' 0 13
    if descChanged (withImage s x p) id.toNat then some id else none
  | _, _ => none

/-- A PROBE of a key that no proxy holds, for a proxy that the accepted change alters (15 R443). -/
def barredProbe (s : State) (x : DieSt) (e : TerrEntry) : Bool :=
  match changeImage s x, proxyOf x e.terr e.route with
  | some p, some n =>
    decide (e.op = 1) && proxyChanged (withImage s x p) n &&
      (match findRoute x true (BitVec.ofNat 13 n) with
       | some i => decide ((getRoute x i).key ≠ e.key)
       | none => true)
  | _, _ => false

/-- One item of the work of step 5. -/
def todoStep (s : State) (x : DieSt) (t : Todo) : DieSt :=
  match t with
  | .request n =>
    match barredSet s x n with
    | some id => giveResult (regionOf (readDesc (ctxOf s) x false id.toNat).1.entrance) n rsREFROUTE rnNOTALLOWED 0 x
    | none => dieRequest s n x
  | .terr e => if barredProbe s x e then pushTerr (terrRegion (ctxOf s) x e) e.terr 0x9 rnNOTALLOWED e.route e.key x else dieTerr (ctxOf s) e x

/-- The items left are done, and the tasks start. -/
def finishTodo (s : State) (x : DieSt) : DieSt :=
  if x.todo.isEmpty then x else startTasksIn s.part (x.todo.foldl (todoStep s) { x with todo := [] })

/-- The head of the work of step 5, where it is the item the command stands for. -/
def todoRow (p : Todo → Bool) (d : Die) (s : State) : State :=
  let x := dieOf s d
  match x.todo with
  | [] => s
  | t :: rest =>
    if x.phase = phRULESIN && p t then
      takeDieLogs d (onDie d (fun x =>
        let y := todoStep s { x with todo := rest } t
        if rest.isEmpty then startTasksIn s.part y else y) s)
    else s

/-- A request of a command; for two-step commands its CONFIRM bit. -/
def isRequest (s : State) (c : WinCmd) (confirm : Option Bool) (t : Todo) : Bool :=
  match t with
  | .terr _ => false
  | .request n =>
    let ws := reqWords s.win n
    decide (reqCmd ws = some c) && (match confirm with | none => true | some b => bitOf (ws.getD 5 0) 0 == b)

/-- A TERR entry of an operation. -/
def isTerrOp (op : BitVec 4) (t : Todo) : Bool :=
  match t with
  | .terr e => decide (e.op = op)
  | .request _ => false

/-- ROUTE_SET (03 R113). -/
def execRouteSet (d : Die) (s : State) : Host.Outcome State Fault Refusal := .next (todoRow (isRequest s .routeSet none) d s)
/-- ROUTE_CANCEL (03 R134, 17 R472). -/
def execRouteCancel (d : Die) (s : State) : Host.Outcome State Fault Refusal := .next (todoRow (isRequest s .routeCancel none) d s)
/-- POINT_CALL (02 R93). -/
def execPointCall (d : Die) (s : State) : Host.Outcome State Fault Refusal := .next (todoRow (isRequest s .pointCall none) d s)
/-- BLOCK (02 R93). -/
def execBlock (d : Die) (s : State) : Host.Outcome State Fault Refusal := .next (todoRow (isRequest s .block none) d s)
/-- UNBLOCK (02 R93). -/
def execUnblock (d : Die) (s : State) : Host.Outcome State Fault Refusal := .next (todoRow (isRequest s .unblock none) d s)
/-- SIGNAL_REPLACE (03 R134). -/
def execSignalReplace (d : Die) (s : State) : Host.Outcome State Fault Refusal := .next (todoRow (isRequest s .signalReplace none) d s)
/-- EMERG_RELEASE, first step (17 R475). -/
def execEmergRelease (d : Die) (s : State) : Host.Outcome State Fault Refusal :=
  .next (todoRow (isRequest s .emergRelease (some false)) d s)
/-- EMERG_RELEASE, confirm (17 R475). -/
def execEmergReleaseConfirm (d : Die) (s : State) : Host.Outcome State Fault Refusal :=
  .next (todoRow (isRequest s .emergRelease (some true)) d s)
/-- SECTION_RESTORE, first step (17 R475). -/
def execSectionRestore (d : Die) (s : State) : Host.Outcome State Fault Refusal :=
  .next (todoRow (isRequest s .sectionRestore (some false)) d s)
/-- SECTION_RESTORE, confirm (17 R475, 02 R93). -/
def execSectionRestoreConfirm (d : Die) (s : State) : Host.Outcome State Fault Refusal :=
  .next (todoRow (isRequest s .sectionRestore (some true)) d s)
/-- FORCE_SET (15 R446, R447). -/
def execForceSet (d : Die) (s : State) : Host.Outcome State Fault Refusal := .next (todoRow (isRequest s .forceSet none) d s)
/-- FORCE_CLEAR (15 R446). -/
def execForceClear (d : Die) (s : State) : Host.Outcome State Fault Refusal := .next (todoRow (isRequest s .forceClear none) d s)
/-- ONLINE_CHANGE (15 R440). -/
def execOnlineChange (d : Die) (s : State) : Host.Outcome State Fault Refusal := .next (todoRow (isRequest s .onlineChange none) d s)
/-- HANDOVER (12 R379). -/
def execHandover (d : Die) (s : State) : Host.Outcome State Fault Refusal := .next (todoRow (isRequest s .handover none) d s)

/-- TERR_PROBE (11 R341, R342). -/
def execTerrProbe (d : Die) (s : State) : Host.Outcome State Fault Refusal := .next (todoRow (isTerrOp 1) d s)
/-- TERR_COMMIT (11 R341). -/
def execTerrCommit (d : Die) (s : State) : Host.Outcome State Fault Refusal := .next (todoRow (isTerrOp 2) d s)
/-- TERR_ENTERED (11 R341). -/
def execTerrEntered (d : Die) (s : State) : Host.Outcome State Fault Refusal := .next (todoRow (isTerrOp 3) d s)
/-- TERR_RELEASE (11 R341). -/
def execTerrRelease (d : Die) (s : State) : Host.Outcome State Fault Refusal := .next (todoRow (isTerrOp 4) d s)
/-- TERR_CANCEL (11 R341). -/
def execTerrCancel (d : Die) (s : State) : Host.Outcome State Fault Refusal := .next (todoRow (isTerrOp 5) d s)
/-- TERR_PROBED (11 R344). -/
def execTerrProbed (d : Die) (s : State) : Host.Outcome State Fault Refusal := .next (todoRow (isTerrOp 8) d s)
/-- TERR_NACK (11 R344). -/
def execTerrNack (d : Die) (s : State) : Host.Outcome State Fault Refusal := .next (todoRow (isTerrOp 9) d s)
/-- TERR_HELD (11 R344). -/
def execTerrHeld (d : Die) (s : State) : Host.Outcome State Fault Refusal := .next (todoRow (isTerrOp 0xA) d s)
/-- TERR_RELEASED (11 R344). -/
def execTerrReleased (d : Die) (s : State) : Host.Outcome State Fault Refusal := .next (todoRow (isTerrOp 0xB) d s)
/-- TERR_OP_UNDEFINED (11 R339): ignored and counted. -/
def execTerrOpUndefined (d : Die) (s : State) : Host.Outcome State Fault Refusal :=
  .next (todoRow (fun t => match t with | .terr e => !terrOpKnown e.op | .request _ => false) d s)

/-- The requester's newest entry for the key of a proxy, if one is held. -/
def proxyHeard (x : DieSt) (d : Desc) (key : Word) : Option TerrEntry :=
  (numsFrom 0 16).findSome? (fun r => (reg x r).sup.terrs.find? (fun e => e.forProxy && decide (e.terr = d.reqTerr) &&
    decide (e.route = d.routeId) && decide (e.key = key)))

/-- TERR_ABSENT (11 R341): an uncommitted proxy whose key has had no entry for 4 cycles; a lost territory freezes it (R352). -/
def terrAbsent (cx : Ctx) (i : Nat) (x : DieSt) : DieSt :=
  let e := getRoute x i
  let d := entryDesc cx x e
  if x.phase = phRULESIN && isProxy e && (e.state = rsPROBING || e.state = rsPROBED) && !cx.lostTerr.contains d.reqTerr &&
      (match proxyHeard x d e.key with
       | some t => decide (4 ≤ (x.cycleNo - t.taken).toNat)
       | none => true) then cancelProxy i x
  else x

/-- TERR_ABSENT. -/
def execTerrAbsent (d : Die) (i : Nat) (s : State) : Host.Outcome State Fault Refusal := .next (onDie d (terrAbsent (ctxOf s) i) s)

/-- REMOTE_TIMEOUT (11 R345): WAIT reaches 5. -/
def execRemoteTimeout (d : Die) (i : Nat) (s : State) : Host.Outcome State Fault Refusal :=
  .next (onDie d (fun x => if x.phase = phPROPAGATE && (getWork x i).waiting && decide ((getRoute x i).wait = 4)
                           then countWait (ctxOf s) i x else x) s)

/-- PENDING_EXPIRY (17 R475): an entry without a confirm by 60 s. -/
def execPendingExpiry (d : Die) (r : Nat) (e : PendEntry) (s : State) : Host.Outcome State Fault Refusal :=
  .next (onDie d (fun x => modReg x r (fun g => if pendingOver s.cycle (periodOf s) e && !g.halted then
    { g with sup := { g.sup with pendings := g.sup.pendings.filter (· ≠ e) } } else g)) s)

/-- The timer step of this cycle, which is due, takes the timer to EXPIRED (02 R83). -/
def timerDue (p n k : Nat) (x : DieSt) : Bool :=
  let t := timerOf (getCell x n) k
  decide (x.phase = phSAMPLE) && isLive (getCell x n) && !regHalted x (regionOf n) && decide (t.tstate = tRUNNING) && !t.fresh &&
    decide (t.trem.toNat ≤ p)

/-- TIMER_EXPIRED (02 R83): the timer step stands in RULES_IN after the check sweep, so the die enters RULES_IN, where this timer
expires with the step of every other. -/
def execTimerExpired (d : Die) (n k : Nat) (s : State) : Host.Outcome State Fault Refusal :=
  if timerDue (periodOf s) n k (dieOf s d) then execRulesIn d s else .next s

/-- TELEGRAM_AGE_EXPIRED (02 R101; 11 R349, R350): the data of a BOUNDARY cell or of a remote binding is past T_max. -/
def execTelegramAgeExpired (d : Die) (n : Nat) (s : State) : Host.Outcome State Fault Refusal :=
  let x := dieOf s d
  let cx := ctxOf s
  .next (if x.phase = phRULESIN && substCell cx x n (getCell x n) && !regHalted x (regionOf n) then
           noteSubstitute d (onDie d (fun x => modCell x n (fun c =>
             if isCls .boundary c then mirrorCell (freshMirror cx x n) (ownerLost cx c) c else derive (senseOf cx x c) c)) s)
         else s)

/-! ## PROPAGATE (03 R110) -/

/-- A region has finished the work of its phase. -/
def regionDone (x : DieSt) (r : Nat) : Bool :=
  let g := reg x r
  g.halted || g.haltCycle || (decide (g.task = 0) && !g.revert)

/-- Every region has finished. -/
def regionsDone (x : DieSt) : Bool := (numsFrom 0 16).all (regionDone x)

/-- PROPAGATE begins once every region has finished RULES_IN; work of step 5 left over is done first. -/
def diePropagate (s : State) (x0 : DieSt) : DieSt :=
  if x0.phase ≠ phRULESIN then x0
  else
    let x := finishTodo s x0
    if regionsDone x then startPropagate (ctxOf s) { x with phase := phPROPAGATE } else x

/-- PROPAGATE. -/
def execPropagate (d : Die) (s : State) : Host.Outcome State Fault Refusal := .next (takeDieLogs d (onDie d (diePropagate s) s))

/-- An operation of the fabric, in PROPAGATE alone. -/
def fabricRow (d : Die) (f : DieSt → DieSt) (s : State) : State :=
  takeDieLogs d (onDie d (fun x => if x.phase = phPROPAGATE then f x else x) s)

/-- WAVE_END (03 R110). -/
def execWaveEnd (d : Die) (s : State) : Host.Outcome State Fault Refusal := .next (fabricRow d (waveEnd (ctxOf s)) s)
/-- WAVE_CUT (03 R110, 04 R152). -/
def execWaveCut (d : Die) (loaded : List Nat) (s : State) : Host.Outcome State Fault Refusal :=
  .next (fabricRow d (fun x => (numsFrom 0 16).foldl (fun y r => if x.wave = .none then y else pmcCount r 0x16 y)
    (waveCut (ctxOf s) loaded x)) s)

/-- A token in flight reaches its receiver. -/
def deliverRow (d : Die) (t : Token) (s : State) : State := fabricRow d (fun x => countOut t x (deliver (ctxOf s) t x)) s

/-- A token in flight reaches its receiver, where it is of the type the command stands for. -/
def tokenRow (d : Die) (ty : BitVec 4) (t : Token) (s : State) : State := if t.typ = ty then deliverRow d t s else s

/-- PROBE (03 R115). -/
def execProbe (d : Die) (t : Token) (s : State) : Host.Outcome State Fault Refusal := .next (tokenRow d tyPROBE t s)
/-- HOLD (03 R108, R119). -/
def execHold (d : Die) (t : Token) (s : State) : Host.Outcome State Fault Refusal := .next (tokenRow d tyHOLD t s)
/-- NACK (03 R118). -/
def execNack (d : Die) (t : Token) (s : State) : Host.Outcome State Fault Refusal := .next (tokenRow d tyNACK t s)
/-- COMMIT of a route (03 R126 to R128). -/
def execCommitToken (d : Die) (t : Token) (s : State) : Host.Outcome State Fault Refusal := .next (tokenRow d tyCOMMIT t s)
/-- LOCKED_ACK (03 R129, R136). -/
def execLockedAck (d : Die) (t : Token) (s : State) : Host.Outcome State Fault Refusal := .next (tokenRow d tyACK t s)
/-- FLANK_SEEK (03 R121). -/
def execFlankSeek (d : Die) (t : Token) (s : State) : Host.Outcome State Fault Refusal := .next (tokenRow d tySEEK t s)
/-- FLANK_FOUND (03 R123). -/
def execFlankFound (d : Die) (t : Token) (s : State) : Host.Outcome State Fault Refusal := .next (tokenRow d tyFOUND t s)
/-- FLANK_NONE (03 R123). -/
def execFlankNone (d : Die) (t : Token) (s : State) : Host.Outcome State Fault Refusal := .next (tokenRow d tyNONE t s)
/-- RELEASE of a route (03 R136, R137). -/
def execReleaseToken (d : Die) (t : Token) (s : State) : Host.Outcome State Fault Refusal := .next (tokenRow d tyRELEASE t s)
/-- CANCEL (03 Table 3.9). -/
def execCancel (d : Die) (t : Token) (s : State) : Host.Outcome State Fault Refusal := .next (tokenRow d tyCANCEL t s)
/-- A token of undefined TYPE (03 R108). -/
def execTokenTypeInvalid (d : Die) (t : Token) (s : State) : Host.Outcome State Fault Refusal :=
  .next (if [tyPROBE, tyHOLD, tyNACK, tyCOMMIT, tyACK, tySEEK, tyFOUND, tyNONE, tyRELEASE, tyCANCEL].contains t.typ then s
         else deliverRow d t s)

/-! ## RULES_OUT (02 Table 2.19, 05 R179) -/

/-- Command conditions and aspect cap at one cell (02 R79, R95). -/
def cellStepOut (cx : Ctx) (x : DieSt) (n : Nat) (c : CellRec) : CellRec :=
  if regHalted x (regionOf n) then c else capCell cx x (evalCmd (cellProf cx x c) c)

/-- CYCLIC_OUT of a region, where INIT has ended. -/
def runTaskOut (x : DieSt) (r : Nat) : DieSt :=
  let g := reg x r
  if g.halted || g.haltCycle || !g.sup.initDone || decide (entryPoint x r tkCYCOUT = 0) then x else startTask r tkCYCOUT x

/-- RULES_OUT begins after EVALUATE has ended. -/
def dieRulesOut (s : State) (x0 : DieSt) : DieSt :=
  if x0.phase ≠ phPROPAGATE || !x0.propDone then x0
  else
    let x1 := { x0 with phase := phRULESOUT }
    let x2 := mapCells x1 (cellStepOut (ctxOf s) x1)
    let x3 := mapRegs x2 (fun r g => { g with charge := 4000, mem := forceVars s.part r g.sup.forces (memPutWord g.mem memTX g.sup.appLen) })
    (numsFrom 0 16).foldl runTaskOut x3

/-- RULES_OUT. -/
def execRulesOut (d : Die) (s : State) : Host.Outcome State Fault Refusal := .next (takeDieLogs d (onDie d (dieRulesOut s) s))

/-! ## Stops of tasks and pairs -/


/-- Charge of an instruction word (05 Table 5.7); a word that traps ILLEGAL carries none. -/
def wordCharge (x : DieSt) (r : Nat) (w : Word) : Nat :=
  let op := (w.extractLsb' 26 6).toNat
  let ra := (w.extractLsb' 18 4).toNat
  if illegalWord w then 0
  else if op < 0x08 then 12
  else if op < 0x20 then 1
  else if op < 0x28 then 3
  else if op = 0x28 then crdCharge x r ra
  else if op = 0x2B || op = 0x2C then 14
  else if op < 0x2F then 18
  else if op = 0x2F then 24
  else if op = 0x30 then 10
  else 6

/-- The fetched instruction would take the running set past its budget. -/
def overruns (cx : Ctx) (x : DieSt) (r : Nat) : Bool :=
  canRun x r && decide (curBudget cx x r < curCharge x r + wordCharge x r (fetchedWord x r))

/-- RULES_OVERRUN (04 R151). -/
def execRulesOverrun (d : Die) (r : Nat) (s : State) : Host.Outcome State Fault Refusal :=
  .next (takeDieLogs d (onDie d (fun x => if overruns (ctxOf s) x r && !inRevert x r then doOverrun r x else x) s))

/-- REVERT_OVERRUN (04 R162). -/
def execRevertOverrun (d : Die) (r : Nat) (s : State) : Host.Outcome State Fault Refusal :=
  .next (takeDieLogs d (onDie d (fun x => if overruns (ctxOf s) x r && inRevert x r then doRevertOverrun r x else x) s))

/-- REAL_CLOCK_HALT (04 R146): the pair stops for the rest of the cycle, and its region sends no block. While REVERT runs the real count
stands still (04 R162). -/
def realClockHalt (cx : Ctx) (r : Nat) (x : DieSt) : DieSt :=
  let g := reg x r
  if (x.phase = phRULESIN || x.phase = phRULESOUT) && decide (r < 16) && !g.halted && !g.revert && decide (g.charge < curBudget cx x r) then
    modReg x r (fun g => { g with haltCycle := true, task := 0 })
  else x

/-- REAL_CLOCK_HALT. -/
def execRealClockHalt (d : Die) (r : Nat) (s : State) : Host.Outcome State Fault Refusal :=
  .next (onDie d (realClockHalt (ctxOf s) r) s)

/-- A fault of a pair that executes (05 R169): the region is halted, the die's fault log and the tail take it, and the copy is
excluded. -/
def pairFault (kind : BitVec 8) (d : Die) (r : Nat) (clock : BitVec 24) (lines : Word) (s : State) : State :=
  let x := dieOf s d
  let f : PairRec := { kind := kind, region := r, clock := clock, lines := lines }
  if !x.fastClock || decide (16 ≤ r) || (reg x r).halted then s
  else
    let s1 := onDie d (fun x => modReg { x with faultLog := x.faultLog ++ [f] } r (fun g => { g with pairFault := some f })) s
    excludeCopy d r .halted (logOpen cdPAIRFAULT (strapIdent x) r kind.toNat (kind ++ clock ++ lines) (haltRegion d r s1))

/-- PAIR_MISMATCH (05 R169). -/
def execPairMismatch (d : Die) (r : Nat) (clock : BitVec 24) (lines : Word) (s : State) : Host.Outcome State Fault Refusal :=
  .next (pairFault 1 d r clock lines s)

/-- CHECKER_FAULT (05 R169). -/
def execCheckerFault (d : Die) (r : Nat) (clock : BitVec 24) (s : State) : Host.Outcome State Fault Refusal :=
  .next (pairFault 2 d r clock 0 s)

/-! ## Input events (04 R161, R162; 10 R326) -/

/-- The region of the cell that binds an input. -/
def inputRegion (x : DieSt) (n : Nat) : Option Nat :=
  (x.cells.find? (fun p => isLive p.2 && !bindRemote p.2 && (boundIns p.2).contains n)).map (fun p => regionOf p.1)

/-- A source enters the pending set of its region. -/
def pendSource (src : Nat) (x : DieSt) : DieSt :=
  match inputRegion x src with
  | none => x
  | some r => pmcCount r 0x18 (modReg x r (fun g => { g with pend := setBitOf g.pend src true }))

/-- The event controller reads one item: its source is pending, a slice on the region is aborted, and REVERT starts. A read of
an empty spool delivers nothing. -/
def dieInputEvent (x : DieSt) : DieSt :=
  let q := spRead true x.evSpool
  let x1 := { x with evSpool := q.2 }
  if spIsEmpty x.evSpool then x1
  else
    let src := (q.1.extractLsb' 0 8).toNat
    let x2 := pendSource src x1
    match inputRegion x2 src with
    | none => x2
    | some r =>
      let x3 := if x2.sliceRun.any (fun q => decide (q.region = r)) then { x2 with sliceRun := none } else x2
      idleClock (startRevert r x3)

/-- INPUT_EVENT. -/
def execInputEvent (d : Die) (s : State) : Host.Outcome State Fault Refusal :=
  .next (if bridleRuns s && !s.coresOff then onDie d dieInputEvent s else s)

end Sys2Proof.Machine
end

