-- ==== Sys2Proof/Machine/Vote.lean ====
section
/-!
DEFINITION. The vote (06): the arrival of COMMIT blocks, the deadline, exclusions and misses (06 R207 to R216, 04 R153), the cycle
status words (04 R156), request results, reports and the route table mirror that the bridle reads from two agreeing copies
(17 R472, R476), the heartbeat (06 R228), and the die clock check (13 R405).
-/

namespace Sys2Proof.Machine

/-! ## What arrives (06 R200, R201, R207) -/

/-- Words that stand on a lane for the block a die has sent (06 R200, R201): its converter takes them from the die's encoding into lane
form, and its check unit appends CHECK as it computes it, on both lanes alike (log entry 58); none where none was sent. -/
def sentOnLane (lane : Side) (r : Nat) (x : DieSt) : Option (List Word) :=
  let ws := (reg x r).sent
  if ws.isEmpty then none
  else
    let l := laneForm lane (ws.map (decodeWord x.strap))
    some (l ++ [laneCheck x.strap lane r x.cycleNo l])

/-- Words received on a lane. -/
def laneWords (lane : Side) (r : Nat) (x : DieSt) : LaneRx → Option (List Word)
  | .sent => sentOnLane lane r x
  | .words w => some w
  | .lost => none

/-- The lane check unit of a half has fed what its lane delivered, CHECK compared last. -/
def feedCheck (s : State) (d : Die) (lane : Side) (r : Nat) (rx : LaneRx) (v : VoteSt) : VoteSt :=
  match laneWords lane r (dieOf s d) rx with
  | none => v
  | some ws =>
    { v with units := modA checkUnitReset (laneCheckUnit d lane) (fun u =>
        cuExpect (ws.getLast?.getD 0) (feedLane (dieOf s d).strap lane r s.cycle (ws.take (ws.length - 1)) u)) v.units }

/-- The usable words of a lane, in true form. -/
def laneUsable (s : State) (d : Die) (lane : Side) (r : Nat) (rx : LaneRx) : Option (List Word) :=
  (laneWords lane r (dieOf s d) rx).bind (usableBlock (dieOf s d).strap lane r s.cycle (s.vote.own.toList.getD r 0))

/-! ## Agreeing copies -/

/-- Available dies whose blocks of a region equal the voted block. -/
def agreeing (v : VoteSt) (r : Nat) : List Die :=
  (availDies v r).filter (fun d => decide ((copyOf v d r).rxH = some (regionVote v r).h))

/-- Two of them. -/
def twoAgreeing (v : VoteSt) (r : Nat) : Option (Die × Die) :=
  match agreeing v r with
  | d :: e :: _ => some (d, e)
  | _ => none

/-! ## Results of requests (17 R472) -/

/-- The force table changes: FORCING follows it, and a record is written (15 R446, R448). -/
def setForces (l : List ForceEntry) (f : ForceEntry) (s : State) : State :=
  logOpen cdFORCE unBRIDLE (forceRegion f) (forceChannel f) (f.f0 ++ f.f1)
    (setOverlays { s.overlays with forcing := !l.isEmpty } { s with forces := l })

/-- An accepted ONLINE_CHANGE (15 R440). -/
def acceptChange (ws : List Word) (s : State) : State :=
  let b := bitOf (ws.getD 4 0) 0
  match s.carrier with
  | none => s
  | some c =>
    logOpen cdCHANGE unBRIDLE 0 0 0
      (setOverlays { s.overlays with change := true }
        { s with change := { phase := .loading, slotB := b, image := (slotOf c b).data, earliest := ws.getD 5 0, at_ := 0,
                             loaded := triAll false, code := chNONE, deferred := 0, report := [], oldImage := s.part,
                             carryAt := none } })

/-- What the bridle does with a result before it hands the slot over. -/
def bridleEffect (q : ReqResult) (s : State) : State :=
  let ws := reqWords s.win q.slot
  let f := storedForce s.part (forceOf ws)
  if q.result ≠ rsDONE then
    (if reqCmd ws = some .onlineChange then { s with change := { s.change with code := if s.change.phase = .none then q.reason else s.change.code } }
     else s)
  else
    match reqCmd ws with
    | some .forceSet => setForces (putForce f s.forces) f s
    | some .forceClear => setForces (s.forces.filter (fun g => !sameForce f g)) f s
    | some .onlineChange => acceptChange ws s
    | some .handover => onTether (fun t => { t with hoAsked := true }) s
    | _ => s

/-- The results of a region, read from two agreeing copies, are written and their slots handed over. -/
def readResults (r : Nat) (s : State) : State :=
  match twoAgreeing s.vote r with
  | none => s
  | some (d, e) =>
    let qs := (reg (dieOf s d) r).results
    if qs ≠ (reg (dieOf s e) r).results then s
    else
      let s1 := qs.foldl (fun s q => onWin (finishSlot q.slot q.result q.reason s.cycle) (bridleEffect q s)) s
      onDies (fun _ x => modReg x r (fun g => { g with results := [] })) s1

/-! ## Cycle status words (04 R156) -/

/-- Phase that the region had reached. -/
def phaseReached (x : DieSt) (r : Nat) : BitVec 4 := if (reg x r).sent.isEmpty then x.phase else phCOMMIT

/-- Publish the status word of a copy and write the records of its events; REVERT_OVER is then cleared. -/
def publishStatus (r : Nat) (s : State) (d : Die) : State :=
  let x := dieOf s d
  let g := reg x r
  let c := copyOf s.vote d r
  let ev := fun (b : Bool) (code : BitVec 16) (s : State) => if b then logOpen code (strapIdent (dieOf s d)) r 0 0 s else s
  ev g.revOver cdREVERTOVER (ev g.overOut cdOVERRUNOUT (ev g.overIn cdOVERRUNIN (ev x.abandoned cdABANDONED
    (ev x.wakeLate cdWAKELATE (ev c.missNow cdMISSED
      (onVote (modCopy d r (fun c => { c with status := statusWord (phaseReached x r) c c.missNow x.wakeLate x.abandoned g.overIn
                                                        g.overOut g.revOver x.waveCut }))
        (onDie d (fun x => modReg x r (fun g => { g with revOver := false })) s)))))))

/-! ## Copies after a verdict (06 R209, R215, R220, R221; 04 R153) -/

/-- A re-join attempt is abandoned: the copy is halted again (06 R221). -/
def abandonRejoin (d : Die) (r : Nat) (s : State) : State :=
  logOpen cdREJOINABANDON (strapIdent (dieOf s d)) r 0 0 (haltRegion d r (onVote (modCopy d r (fun c => { c with rejoin := .none, migrateFirst := true })) s))

/-- What the voted words of a region make of one copy: a miss is counted, and the block of a copy that was not voted is compared, as it
arrived in both halves. -/
def copyAfterVote (ws : List Word) (r : Nat) (avail : List Die) (s : State) (d : Die) : State :=
  let c := copyOf s.vote d r
  let miss := !isPresent c
  let equal := isPresent c && decide (c.rxH = some ws) && decide (c.rxL = some ws)
  let s1 := if miss then onVote (modCopy d r (fun c => { c with missNow := true, missWin := setBitOf c.missWin 0 true })) s else s
  let c1 := copyOf s1.vote d r
  match c.rejoin with
  | .shadow n =>
    if equal then onVote (modCopy d r (fun c => { c with rejoin := .shadow (n + 1) })) s1 else abandonRejoin d r s1
  | _ =>
    if isExcluded c then s1
    else if miss then (if 3 ≤ missCount c1 then excludeCopy d r .missLimit s1 else s1)
    else if !avail.contains d && !equal then excludeCopy d r .differs s1
    else s1

/-! ## Reports (17 R476) and the route table mirror -/

/-- Z0 to Z6 of a cell's record. -/
def reportWords (id : Nat) (c : CellRec) : List Word :=
  let w := cellWords id c
  let z0 : Word := c.cls ++ 1#1 ++ 0#4 ++ c.profile ++ 0#4 ++ BitVec.ofNat 12 id
  let z5 : Word := c.app ++ 0#8 ++ c.t3.tstate ++ c.t2.tstate ++ c.t1.tstate ++ c.t0.tstate
  let z6 : Word := 0#28 ++ b2v (markValid c.mark3) ++ b2v (markValid c.mark2) ++ b2v (markValid c.mark1) ++ b2v (markValid c.mark0)
  [z0, w.getD 1 0, w.getD 2 0, w.getD 3 0, w.getD 4 0, z5, z6]

/-- The record of a cell from two copies: AGREE 0 where they differ. -/
def reportOf (id : Nat) (a b : CellRec) : List Word :=
  let x := reportWords id a
  if x = reportWords id b then x else [((x.getD 0 0) &&& 0xFF070FFF), 0, 0, 0, 0, 0, 0]

/-- Cells that a report lists: those that either copy holds. -/
def reportCells (x y : DieSt) (r : Nat) : List Nat :=
  ((x.cells ++ y.cells).map (·.1)).eraseDups.filter (fun n => decide (regionOf n = r))

/-- The report of the present cycle, into buffer k mod 2. -/
def writeReport (s : State) : State :=
  let b := bitOf s.cycle 0
  let base := if b then 4096 else 0
  let keep := s.win.reports.filter (fun p => !(base ≤ p.1 && p.1 < base + 4096))
  let recs := (numsFrom 0 16).foldl (fun m r =>
    match twoAgreeing s.vote r with
    | none => m
    | some (d, e) =>
      let x := dieOf s d
      let y := dieOf s e
      (reportCells x y r).foldl (fun m n => putA [] (base + n) (reportOf n (getCell x n) (getCell y n)) m) m) keep
  onWin (fun w => { w with reports := recs, repDone := some b,
                           repCycle0 := if b then w.repCycle0 else s.cycle, repCycle1 := if b then s.cycle else w.repCycle1,
                           written0 := w.written0 || !b, written1 := w.written1 || b }) s

/-- The route table mirror: each entry from two agreeing copies of its region. -/
def writeRouteMirror (s : State) : State :=
  let ids := ((allDies.flatMap (fun d => (dieOf s d).routes.map (·.1)))).eraseDups
  let m := ids.foldl (fun m i =>
    let r := (allDies.find? (fun d => isLiveEntry (getRoute (dieOf s d) i))).map
      (fun d => entryRegion (dieOf s d) (getRoute (dieOf s d) i))
    match twoAgreeing s.vote (r.getD 0) with
    | none => m
    | some (d, e) =>
      let a := getRoute (dieOf s d) i
      if a ≠ getRoute (dieOf s e) i then m
      else (numsFrom 0 4).foldl (fun m k => putA 0 (4 * i + k) ((routeWords a).getD k 0) m) m) []
  onWin (fun w => { w with routeMirror := m }) s

/-! ## The verdict of a region -/

/-- The heartbeat of the cycle: it arms the watchdog and restarts its two counters, unless a time-base fault withholds it (06 R228, 13 R406). -/
def heartbeat (s : State) : State :=
  let s1 := onVote (fun v => { v with hbSent := true }) s
  if s.ao.hbHeld then s1 else onAo (fun a => { a with wdArmed := true, wdSlk := 0, wdXo := 0 }) s1

/-- Every region has a verdict. -/
def allVoted (v : VoteSt) : Bool := (numsFrom 0 16).all (fun r => (regionVote v r).verdict.isSome)

/-- What follows the last verdict of a cycle: heartbeat, report, mirror. -/
def afterVotes (s : State) : State := if allVoted s.vote then writeRouteMirror (writeReport (heartbeat s)) else s

/-- Store the verdict of a region with the words each half used: half L keeps them in complemented form (06 R212). -/
def storeVote (r : Nat) (code : BitVec 4) (wh wl : List Word) (v : VoteSt) : VoteSt :=
  { v with votes := v.votes.setIfInBounds r { verdict := some code, h := wh, l := wl.map (~~~·) },
           triplet := if r = 0 then (v.triplet + 1) % 96 else v.triplet }

/-- A vote that trips publishes what it has found all the same (04 R156): the blocks missing are misses. -/
def publishTripped (r : Nat) (s : State) : State :=
  allDies.foldl (publishStatus r) (allDies.foldl (fun s d =>
    if isPresent (copyOf s.vote d r) then s
    else onVote (modCopy d r (fun c => { c with missNow := true, missWin := setBitOf c.missWin 0 true })) s) s)

/-- The H/L comparator (06 R210, R233): an invalid verdict, unequal codes, words or presence vectors. -/
def halvesAgree (v : VoteSt) (r : Nat) (h l : Option Verdict) : Bool :=
  decide (cmpOut v.hw.hl (h.isSome && decide (h.map (·.code) = l.map (·.code)) && decide (h.map (·.words) = l.map (·.words)) &&
    decide (presenceOf v.hw.h v r = presenceOf v.hw.l v r)) = 2)

/-- VOTE_REGION: before region 0 each half votes its triplets (06 R211); both halves vote the same set of blocks and are compared; a
verdict that uses a block has its consequences for every copy, and every other trips. -/
def voteRegion (r : Nat) (s : State) : State :=
  let v := s.vote
  let n := (availDies v r).length
  let h := voteHalf v.hw.h n (ballots v.hw.h v .h r)
  let l := voteHalf v.hw.l n (ballots v.hw.l v .l r)
  let av := availBits v r
  if v.hw.lineHl ≠ 2 then tripBy { line := v.hw.lineHl, us := 0 } .hlDisagree r 0 0 (publishTripped r s)
  else if v.hw.lineMaj ≠ 2 then tripBy { line := v.hw.lineMaj, us := 0 } .majorityLoss r 0 av (publishTripped r s)
  else if (r = 0 && !(tripletsOk v.hw.h v.triplet && tripletsOk v.hw.l v.triplet)) || !halvesAgree v r h l then
    tripNow .hlDisagree r 0 0 (publishTripped r s)
  else
    match h, l with
    | some h, some l =>
      if h.code = vdNOMAJ || h.code = vdTOOFEW then
        tripNow .majorityLoss r (h.code.setWidth 8) av (publishTripped r (onVote (storeVote r h.code [] []) s))
      else
        let avail := availDies v r
        let s1 := onVote (storeVote r h.code h.words l.words) s
        let s2 := allDies.foldl (copyAfterVote h.words r avail) s1
        let s3 := match h.minority with
          | some d => excludeCopy d r .minority s2
          | none => s2
        afterVotes (allDies.foldl (publishStatus r) (readResults r s3))
    | _, _ => tripNow .hlDisagree r 0 0 (publishTripped r s)

/-- Vote a region that is due. A trip ends the votes of the cycle. While a transfer holds every region halted there is nothing to
vote (12 R367). -/
def voteIfDue (s : State) (r : Nat) : State := if cyclesRun s && !xferHalted s && voteDue s.vote r then voteRegion r s else s

/-- COMMIT_BLOCK_ARRIVAL (06 R207, 01 R52): the first delivery of a copy's block in a cycle, before D. -/
def execCommitBlockArrival (d : Die) (r : Nat) (rxH rxL : LaneRx) (hw : VoteHw) (s : State) : Host.Outcome State Fault Refusal :=
  .next (if !cyclesRun s || decide (16 ≤ r) || (copyOf s.vote d r).arrived then s
         else
           let late := s.vote.deadline
           let h := if late then none else laneUsable s d .h r rxH
           let l := if late then none else laneUsable s d .l r rxL
           voteIfDue (onVote (fun v => feedCheck s d .h r rxH (feedCheck s d .l r rxL
             (modCopy d r (fun c => { c with arrived := true, rxH := h, rxL := l }) { v with hw := hw }))) s) r)

/-- DEADLINE (01 R52, 04 R153). -/
def execDeadline (hw : VoteHw) (s : State) : Host.Outcome State Fault Refusal :=
  .next (if !cyclesRun s then s
         else (numsFrom 0 16).foldl voteIfDue (onVote (fun v => { v with deadline := true, hw := hw }) s))

/-! ## The die clock (13 R405) -/

/-- A die count lies within 0.5 % of 6.103 515 625 times the SLK count. -/
def clockOk (dieCount slkCount : Nat) : Bool :=
  let e := slkCount * 3125
  let c := dieCount * 512
  decide (200 * (if e < c then c - e else e - c) ≤ e)

/-- CYCLE_START_ACK. -/
def execCycleStartAck (d : Die) (dieCount slkCount : Nat) (s : State) : Host.Outcome State Fault Refusal :=
  .next (if !cyclesRun s then s
         else if clockOk dieCount slkCount then
           onVote (fun v => { v with clockGood := triMod v.clockGood d (fun n => min 16 (n + 1)) }) s
         else
           let s1 := onVote (fun v => { v with clockGood := triMod v.clockGood d (fun _ => 0) }) s
           let s2 := (numsFrom 0 16).foldl (fun s r => excludeCopy d r .clock s) s1
           logOpen cdDIECLOCK (strapIdent (dieOf s d)) 0 0 (BitVec.ofNat 32 slkCount ++ BitVec.ofNat 32 dieCount) s2)

/-! ## Trip causes of the hardware (06 Table 6.7) -/

/-- PUMP_FAULT (06 R224). -/
def execPumpFault (q : CauseIn) (detail : BitVec 8) (s : State) : Host.Outcome State Fault Refusal :=
  .next (tripBy q .pumpFault 0 detail 0 s)

/-- The watchdog has expired (06 R228): armed, and one of its two counters has passed 2P. -/
def wdExpired (s : State) : Bool :=
  s.ao.wdArmed && (decide (2 * periodOf s ≤ s.ao.wdSlk) || decide (2 * periodOf s ≤ s.ao.wdXo))

/-- AO_WATCHDOG (06 R228): a watchdog that is disarmed, or has not expired, gives no cause; a line that reads neither 0b10 nor 0b01 fires
of itself (06 R225). -/
def execAoWatchdog (q : CauseIn) (s : State) : Host.Outcome State Fault Refusal :=
  .next (if q.line ≠ 1 || wdExpired s then tripBy q .aoWatchdog 0 0 0 s else s)

/-- OVERTEMP (06 R227). -/
def execOvertemp (q : CauseIn) (detail : BitVec 8) (s : State) : Host.Outcome State Fault Refusal :=
  .next (tripBy q .overtemp 0 detail 0 s)

/-- NO_LOOP (06 R227): both switches of an output show gate drive while a command latch of it is clear. DETAIL names the output with the
low-side bit 0: the cause concerns both switches (log entry 60). -/
def execNoLoop (q : CauseIn) (o : Nat) (s : State) : Host.Outcome State Fault Refusal :=
  let c := outCell s.outs o
  .next (if c.latchH && c.latchL && decide (q.line = 1) then s else tripBy q .noLoop 0 (BitVec.ofNat 8 o) 0 s)

/-- A power domain is on (13 Table 13.8): neither off nor held in reset. -/
def domainOn (s : State) (n : Nat) : Bool :=
  let testing := match s.shut with
    | .testing _ _ _ _ => true
    | _ => false
  if n = 0 then true
  else if 12 ≤ n then false
  else
    match s.mode with
    | .dormant => false
    | .safe => !s.heldForm && decide (n ≠ 10) && !(s.coresOff && decide (3 ≤ n) && decide (n ≤ 8))
    | .shutdown => decide (n = 1) || decide (n = 9) || decide (n = 11) || testing
    | .wake => decide (s.start ≠ .bridleBist) || decide (n = 1) || decide (n = 11)
    | .active | .standby => true

/-- The bridle's fast clock runs (13 R403): from the boundary to the end of VOTE, and whenever any channel die's fast clock runs. -/
def bridleClock (s : State) : Bool :=
  bridleRuns s && ((cyclesRun s && !allVoted s.vote) || allDies.any (fun d => (dieOf s d).fastClock))

/-- RAIL_FAULT (06 R227, 13 R399): of a domain that is on. -/
def execRailFault (q : CauseIn) (domain : Nat) (s : State) : Host.Outcome State Fault Refusal :=
  .next (if domainOn s domain then tripBy q .logicSupply 0 0 0 s else s)

/-- PUMP_EDGE_TIMEOUT (06 R223): the pump of a switch has seen no edge within 8 µs, and its gate clamp acts. -/
def execPumpEdgeTimeout (o : Nat) (high : Bool) (s : State) : Host.Outcome State Fault Refusal :=
  .next (refreshClamps { s with edgeLost := putA false (switchNo o high) true s.edgeLost })

/-- CHANNEL_DOMAIN_OFF (13 R398): 100 ms after a trip, in which the bridle has collected what the dies had logged. -/
def execChannelDomainOff (s : State) : Host.Outcome State Fault Refusal :=
  .next (if s.mode = .safe && s.ao.tripLatch && decide (s.tripAt ≠ 0) && decide (s.tripAt + 99 ≤ s.ao.ms) then
           onDies (fun _ x => dieReset x.strap) { allDies.foldl (fun s d => takeDieLogs d s) s with coresOff := true }
         else s)

end Sys2Proof.Machine
end

