-- ==== Sys2Proof/Machine/Release.lean ====
section
/-!
DEFINITION. RELEASE (06 R213, R214; 09 R299, R302; 12 R361) and the freeze of the image (04 R144, 07 R249, 08 R286).
-/

namespace Sys2Proof.Machine

/-! ## The freeze -/

/-- The gondola freezes readings, faults, fall vector, groups and output status words; cycle `n` begins. The words last showing
drive are noted, and windows carry `n` from here on (07 R250). -/
def freezeImage (n : Word) (s : State) : State :=
  let ws := outStatusWords (outCxOf s) s.outs
  let img : Image := { read := imageRead s.ins, fault := imageFault s.ins, disc := imageDisc s.ins, fell := s.ins.fellNow,
                       group := groupWord s.outs, outStatus := ws }
  { s with frozen := img, outs := markShown n (noteDrive s.ao.ms ws s.outs), ins := inCycle n s.ins }

/-- Input status words as frozen (07 R257), and the output status words (08 R286). -/
def publishFrozen (s0 : State) (s : State) : State :=
  let ins := (numsFrom 0 192).foldl (fun m n => putA 0 n (inStatus s0.ins s0.ins.fellNow n) m) []
  onWin (fun w => { w with inWords := ins, outWords := s.frozen.outStatus }) s

/-! ## Images (06 R213) -/

/-- True words that half L has recorded in complemented form. -/
def halfLWords (q : RegionVote) : List Word := q.l.map (~~~·)

/-- OR over the regions of a field of the voted words, masked by ownership. -/
def assemble (v : VoteSt) (words : RegionVote → List Word) (f : List Word → BitVec 96) : BitVec 96 :=
  (numsFrom 0 16).foldl (fun (m : BitVec 96) r => m ||| (f (words (regionVote v r)) &&& v.own.toList.getD r 0)) 0

/-- The image of half H, the image of half L in complemented form, and RB_EXPECT. -/
def imageH (v : VoteSt) : BitVec 96 := assemble v (·.h) wordsShare
def imageL (v : VoteSt) : BitVec 96 := ~~~ assemble v halfLWords wordsShare
def imageExpect (v : VoteSt) : BitVec 96 := assemble v (·.h) wordsExpect

/-- Voted digests of the regions. -/
def votedDigests (v : VoteSt) : List (BitVec 64) := (numsFrom 0 16).map (fun r => wordsDigest (regionVote v r).h)

/-- The voted images pass to both halves, the held drops that this RELEASE ends are released, and the clamps follow. Images that the
comparator finds apart trip (06 R210). -/
def releaseImages (k : Word) (s : State) : State :=
  let h := imageH s.vote
  let l := imageL s.vote
  let e := imageExpect s.vote
  if cmpOut s.vote.hw.hl (decide (l = ~~~h)) ≠ 2 then tripNow .hlDisagree 0 0 0 s
  else
    let s1 := onVote (fun v => { releaseDrops k v with imgH := h, imgL := l, exp := e }) s
    refreshClamps (onOuts (applyImages (outCxOf s1) k h (~~~l) e) s1)

/-! ## Telegrams (09 R299, R302) -/


/-- The voted records of all regions in order: HEART first (12 R361), each with D2 to D36 filled; a malformed record ends its
region's payload and is counted. -/
def votedRecords (s : State) : List PayRec × Nat :=
  let q := (numsFrom 0 16).foldl (fun (q : List PayRec × Nat) r =>
    let ws := wordsPayload (regionVote s.vote r).h
    let p := payRecords (fun n => (linkOf s.part n).valid) (ws.length + 1) ws
    (q.1 ++ p.1, if p.2 then q.2 + 1 else q.2)) ([], 0)
  let fill := fun (p : PayRec) =>
    if p.typ = tyHEART then { p with data := p.data.take 2 ++ heartFill (imageH s.vote) (votedDigests s.vote) } else p
  ((q.1.filter (fun p => decide (p.typ = tyHEART)) ++ q.1.filter (fun p => decide (p.typ ≠ tyHEART))).map fill, q.2)

/-- Queue one record: at most PEER_SHARE telegrams a link; the first record beyond writes a tail record (09 R299). -/
def queueRecord (k : Word) (q : State × List (Nat × Nat)) (p : PayRec) : State × List (Nat × Nat) :=
  let s := q.1
  let n := getA 0 q.2 p.link
  let lim := effPeerShare (linkOf s.part p.link)
  let cnt := putA 0 p.link (n + 1) q.2
  if n < lim then (onLinks (queueTel (linkCxOf s) p.link p.typ p.region k p.data) s, cnt)
  else
    let s1 := onLinks (fun x => { x with txExcess := x.txExcess + 1 }) s
    (if n = lim then logOpen cdTXEXCESS unBRIDLE 0 p.link (k.setWidth 64) s1 else s1, cnt)

/-- A link whose telegrams can be built: a protected one needs its key in PD2 (09 R297). -/
def linkKeyed (s : State) (n : Nat) : Bool :=
  let e := linkOf s.part n
  !e.protect || s.links.keys.any (fun p => decide (p.1 = 2 * n + (if e.keyId then 1 else 0)))

/-- An IDLE telegram on a link. -/
def queueIdle (k : Word) (s : State) (n : Nat) : State :=
  if linkKeyed s n then onLinks (queueTel (linkCxOf s) n tyIDLE 0 k []) s else s

/-- The class S telegrams of a RELEASE; a link without one is sent an IDLE where it holds credit (09 R302). -/
def releaseTelegrams (k : Word) (s0 : State) : State :=
  let s := onLinks dropStale s0
  let rs := votedRecords s
  let q := rs.1.foldl (queueRecord k) (s, [])
  let s1 := (List.replicate rs.2 ()).foldl (fun s _ => countFault bfPayload s) q.1
  (validLinks s1.part).foldl (fun s n =>
    let l := linkSt s.links n
    if decide (getA 0 q.2 n = 0) && serial16Pos l.creditIn (l.seqS.extractLsb' 0 16) then queueIdle k s n else s) s1

/-- One IDLE telegram a link, in SAFE, SHUTDOWN and WAKE (09 R302). -/
def sendIdles (k : Word) (s : State) : State :=
  if linksRun s then (validLinks s.part).foldl (queueIdle k) (onLinks dropStale s) else s

end Sys2Proof.Machine
end

