-- ==== Sys2Proof/Machine/Roles.lean ====
section
/-!
DEFINITION. Roles of a pair at a boundary (12): negotiation, yield, handover, dual claim, the shadow comparison, the output
comparison, resynchronisation, and the restart that ends a transfer or follows the loss of the partner.
-/

namespace Sys2Proof.Machine

/-! ## Entering a role -/

/-- Enter ACTIVE: CLAIM_EN is set (12 R359, R372, R374, R380). -/
def enterActive (s : State) : State :=
  let s1 := onTether (fun t => { t with recv := .none, gotRoutes := false, gotModule := none, gotEnd := false, yieldReq := none,
                                        hoGave := none, waived := false, compared := [], lineSince := none }) { s with start := .idle }
  refreshOuts (setMode .active (setClaim s1))

/-- Enter STANDBY: CLAIM_EN is cleared and a transfer from the active is asked for (12 R359). -/
def enterStandby (s : State) : State :=
  let s1 := setMode .standby (clearClaim { s with start := .idle })
  refreshOuts (onTether (fun t => { askTransfer t with send := .idle, hoAck := none, hoAsked := false, yieldDue := false, dualClaim := false,
                                                        waived := false }) (recordAbandoned s1))

/-- Nothing has been taken on port T since the start, and CLAIM_IN has been STATIC throughout the negotiation. -/
def negotiationSilent (s : State) : Bool :=
  let t := s.tether
  (partnerPos s).isSome && t.heart.isNone && !t.idleSeen && t.partnerSafe.isNone && decide (s.ao.claimIn = .static) &&
    decide (s.ao.staticSince ≤ t.negSince)

/-- Row 5 of Table 12.2: nothing taken for 3P (preferred) or 6P (alternate). -/
def negotiationOver (s : State) : Bool :=
  negotiationSilent s && decide (s.tether.negSince + (if isPreferred s then 3 else 6) * periodOf s ≤ s.ao.ms)

/-- The module stands at a cycle boundary: no die has taken the cycle-start message of the cycle that begins. -/
def atBoundary (s : State) : Bool := allDies.all (fun d => decide ((dieOf s d).cycleNo ≠ s.cycle))

/-- The rows of Table 12.2, tried from the top at a boundary in WAKE (12 R359). -/
def negotiate (s : State) : State :=
  let t := s.tether
  let static := decide (s.ao.claimIn = .static)
  let claiming := match t.heart with
    | some h => h.claiming
    | none => false
  if !static || claiming then enterStandby s
  else
    let standby := match t.heart with
      | some h => h.standby
      | none => false
    if standby || (t.idleSeen && decide (t.partnerSafe = some true)) then enterActive s
    else if t.heart.isNone && t.idleSeen && decide (t.partnerSafe = some false) && isPreferred s then enterActive s
    else if negotiationOver s then enterActive s
    else s

/-! ## Restarts of the logic -/

/-- A die restarts its logic from the restrictive initial state (12 R375, 02 R94). What is not logic stays: its spools, its slices, its
region maps, its counters, and the halts that a fault has caused. -/
def restartDie (cx : Ctx) (p : StationPart) (held : BitVec 16) (x : DieSt) : DieSt :=
  let y := loadDie cx p (dieReset x.strap) x
  let z := mapRegs y (fun r g =>
    let o := reg x r
    { g with map := o.map, spare := o.spare, eccCorrected := o.eccCorrected, eccAddr := o.eccAddr, pairFault := o.pairFault, pmc := o.pmc,
             posted := o.posted, postedPrev := o.postedPrev, halted := o.halted && !bitOf held r })
  { z with fastClock := x.fastClock, runsPhases := x.runsPhases, cycleNo := x.cycleNo, evSpool := x.evSpool, evDiscards := x.evDiscards,
           dieFaults := x.dieFaults, faultLog := x.faultLog, logOut := x.logOut, slicePtr := x.slicePtr, sliceStep := x.sliceStep,
           sliceFail := x.sliceFail, slicePassed := x.slicePassed, migrateDue := x.migrateDue, migrateCopied := x.migrateCopied,
           pmcFreeze := x.pmcFreeze, units := x.units }

/-- A standby that has lost its partner during a transfer abandons it and restarts its logic (12 R375). -/
def partnerLost (s : State) : State :=
  let s1 := onDies (fun d x => restartDie (ctxOf s) s.part (triGet s.tether.held d) x) s
  logOpen cdTRANSFER unBRIDLE 0 2 0
    (onTether (fun t => { t with recv := .none, gotRoutes := false, gotModule := none, gotEnd := false, held := triAll 0, waived := true }) s1)

/-- Engine work of the live entries as a die rebuilds it (06 R218, 12 R367): a crossing route that is set holds its proxy. -/
def rebuildWork (cx : Ctx) (x : DieSt) : DieSt :=
  (liveRoutes x).foldl (fun y i =>
    let e := getRoute y i
    let set_ := [rsCALLING, rsLOCKED, rsPROVEN, rsAPPROACH, rsENTERED, rsRELEASING, rsFAILED].contains e.state
    setWork y i { workNone with proxyHeld := set_ && !isProxy e && (exitTerr cx y (entryDesc cx y e)).isSome }) { x with work := [] }

/-- What a die takes from the MODULE item as it restarts (12 R367): the banks, the INIT state, the forces; pending event sets are
emptied, supervisor data stands as the transferred bytes spell it. -/
def transferDie (cx : Ctx) (m : XferModule) (held : BitVec 16) (x : DieSt) : DieSt :=
  rebuildWork cx (rebuildDirectory cx <| mapRegs { x with active := m.active } (fun r g =>
    let sup := Config.supervisorOf (memSpan g.mem memSUP memSAVE)
    { g with pend := 0, halted := g.halted && !bitOf held r, mem := memClear g.mem memSUP memSAVE,
             sup := { sup with initDone := m.initDone.getD r false, forces := m.forces } }))

/-- The restart that ends a transfer (12 R367): cycle j + 1 from the transferred state. -/
def transferRestart (m : XferModule) (s : State) : State :=
  let other := decide ((dieOf s .a).active ≠ m.active) && decide (s.change.image ≠ stationNone)
  let s1 := onDies (fun d x => transferDie (ctxOf s) m (triGet s.tether.held d) x)
    { s with cycle := m.cycle + 1, forces := m.forces, part := if other then s.change.image else s.part }
  let s2 := onTether (fun t => { t with synced := true, inStep := false, shadow := 0, digestRuns := [], compared := [], recv := .none,
                                        gotRoutes := false, gotModule := none, gotEnd := false, held := triAll 0, own := [] }) s1
  logOpen cdTRANSFER unBRIDLE 0 1 0 (setOverlays { s2.overlays with forcing := !m.forces.isEmpty } s2)

/-- A final pass is complete at the receiver. -/
def transferComplete (t : TetherSt) : Option XferModule :=
  match t.recv with
  | .receiving _ => if t.gotEnd && t.gotRoutes then t.gotModule else none
  | _ => none

/-! ## Own votes and heartbeats -/

/-- The vote of cycle `k` is kept, and the partner's image joins the vote of its cycle. -/
def noteOwn (k : Word) (s : State) : State :=
  let keep := (decide (s.mode = .active) || decide (s.mode = .standby)) && allVoted s.vote
  let o : OwnVote := { cycle := k, image := imageH s.vote, digests := votedDigests s.vote, partner := none }
  onTether (fun t =>
    let own := lastN 4 (if keep then t.own ++ [o] else t.own)
    { t with own := match t.heart with
        | some h => own.map (fun q => if q.cycle = h.cycle then { q with partner := some h.image } else q)
        | none => own }) s

/-- Groups that are LOW now. -/
def lowGroups (x : OutSt) : BitVec 8 :=
  (numsFrom 0 8).foldl (fun (v : BitVec 8) g => if (groupSt x g).low then setBitOf v g true else v) 0

/-- Some compared output meets a condition: paralleled, and in a group that has not been LOW since the boundary before. -/
def anyCompared (s : State) (p : Nat → Bool) : Bool :=
  let low := s.tether.lowSeen ||| lowGroups s.outs
  (numsFrom 0 96).any (fun o => bitOf s.outs.parallel o && !bitOf low (outGroup o) && p o)

/-- The result of one compared cycle joins the latest three. -/
def pushCompared (q : Bool × Option Bool) (s : State) : State := onTether (fun t => { t with compared := (q :: t.compared).take 3 }) s

/-- Three compared cycles in a row are mismatch cycles with images as given. -/
def threeMismatch (t : TetherSt) (equal : Bool) : Bool :=
  decide (t.compared.length = 3) && t.compared.all (fun q => q.1 && decide (q.2 = some equal))

/-- OUTPUT_COMPARISON of a SYNCED standby at its boundary `n` (12 R369, R370, R373): the state, and whether a resynchronisation is
due. -/
def compareOutputs (n : Word) (s : State) : State × Bool :=
  match ownVoteOf s.tether (n - 2) with
  | none => (s, false)
  | some o =>
    let diff := anyCompared s (fun i => driveShown (getA 0xFF s.frozen.outStatus i) != bitOf o.image i)
    let s1 := pushCompared (diff, o.partner.map (fun i => decide (i = o.image))) s
    if threeMismatch s1.tether true && isHealthy s1 then
      (onTether (fun t => { t with yieldReq := match t.yieldReq with
        | none => some 0
        | some c => some c }) s1, false)
    else if threeMismatch s1.tether false then
      (logOpen cdIMAGEDIFF unBRIDLE 0 0 0 (onTether (fun t => { t with compared := [] }) s1), true)
    else (s1, false)

/-- The active finds the standby's images apart on paralleled outputs for three cycles and records IMAGE_DIFF (12 R373). -/
def activeImages (n : Word) (s : State) : State :=
  let synced := match s.tether.heart with
    | some h => h.standby && h.synced
    | none => false
  match ownVoteOf s.tether (n - 2) with
  | some o =>
    if !synced then onTether (fun t => { t with compared := [] }) s
    else
      let diff := match o.partner with
        | some i => anyCompared s (fun q => bitOf i q != bitOf o.image q)
        | none => false
      let s1 := pushCompared (diff, o.partner.map (fun i => decide (i = o.image))) s
      if threeMismatch s1.tether false then logOpen cdIMAGEDIFF unBRIDLE 0 0 0 (onTether (fun t => { t with compared := [] }) s1) else s1
  | none => s

/-- SHADOW_COMPARE at the standby's boundary (12 R365): the state, and whether a resynchronisation is due. `fresh`: a HEART was taken
in the interval. -/
def compareShadow (fresh : Bool) (s : State) : State × Bool :=
  match s.tether.heart with
  | some h =>
    match ownVoteOf s.tether h.cycle with
    | some o =>
      if fresh then
        let q := compareDigests o.digests h.digests s.tether
        (onTether (fun _ => q.1) s, q.2)
      else (onTether (fun t => { t with shadow := 0 }) s, false)
    | none => (onTether (fun t => { t with shadow := 0 }) s, false)
  | none => (s, false)

/-! ## Records of a pair -/

/-- The active still claims three cycles after YIELD_REQ went out with the HEART of the boundary after it was set: the standby clears it,
records YIELD_REFUSED and does not claim (12 R372). -/
def yieldRefused (s : State) : State :=
  let claiming := match s.tether.heart with
    | some h => h.claiming
    | none => false
  match s.tether.yieldReq with
  | some c => if 4 ≤ c && claiming then logOpen cdYIELDREFUSED unBRIDLE 0 0 0 (onTether (fun t => { t with yieldReq := none }) s) else s
  | none => s

/-- CLAIM_LINE is recorded once the HEARTs have shown CLAIMING 1 for 3P while CLAIM_IN was STATIC (12 R376). -/
def recordClaimLine (s : State) : State :=
  match s.tether.lineSince with
  | some m =>
    if !s.tether.claimLine && decide (s.ao.claimIn = .static) && decide (max m s.ao.staticSince + 3 * periodOf s ≤ s.ao.ms) then
      logOpen cdCLAIMLINE unBRIDLE 0 0 0 (onTether (fun t => { t with claimLine := true }) s)
    else s
  | none => s

/-- Both HEART records show PREFERRED equal: one PREF_CONFLICT record an hour (12 R360). -/
def prefConflict (s : State) : State :=
  let equal := match s.tether.heart with
    | some h => decide (h.preferred = preferredSw s)
    | none => false
  let due := match s.tether.prefAt with
    | some m => decide (m + 3600000 ≤ s.ao.ms)
    | none => true
  if equal && due then logOpen cdPREFCONFLICT unBRIDLE 0 0 0 (onTether (fun t => { t with prefAt := some s.ao.ms }) s) else s

/-! ## Claims at a boundary -/

/-- Field row of Table 12.5: no paralleled output has shown drive within 3P, or the partner declared SAFE. -/
def fieldQuiet (s : State) : Bool :=
  decide (s.tether.partnerSafe = some true) ||
    (numsFrom 0 96).all (fun o => !bitOf s.outs.parallel o || (match (outCell s.outs o).driveSeen with
      | none => true
      | some m => decide (m + 3 * periodOf s ≤ s.ao.ms)))

/-- Every condition of Table 12.5. -/
def takeoverDue (s : State) : Bool :=
  decide (s.mode = .standby) && decide (3 ≤ s.tether.missing) && decide (s.ao.claimIn = .static) &&
    decide (s.ao.staticSince + 3 * periodOf s ≤ s.ao.ms) && fieldQuiet s &&
    (s.tether.waived || (s.tether.synced && (!s.tether.claimLine || decide (s.tether.partnerSafe = some true))))

/-- Step 4 of Table 12.6 at the taker: the HEART of cycle n − 1 shows the offer for n, image and digests equal the own vote. -/
def takerChecks (n : Word) (s : State) : Bool :=
  match s.tether.heart with
  | some h =>
    decide (h.cycle = n - 1) && decide (s.ao.claimIn = .static) &&
      (match ownVoteOf s.tether (n - 1) with
       | some o => decide (o.image = h.image) && decide (o.digests = h.digests)
       | none => false)
  | none => false

/-- The partner has offered a handover at boundary `n`. -/
def offered (n : Word) (s : State) : Bool :=
  match s.tether.heart with
  | some h => h.hoAck && decide (h.hoCycle = n)
  | none => false

/-- The former active of a handover re-claims at the boundary after it (12 R381). -/
def reclaims (n : Word) (s : State) : Bool :=
  match s.tether.hoGave, s.tether.heart with
  | some m, some h => decide (n = m + 1) && decide (s.ao.claimIn = .static) && !h.claiming
  | some m, none => decide (n = m + 1) && decide (s.ao.claimIn = .static)
  | none, _ => false

/-- The standby that asked claims after the active has yielded (12 R372). -/
def yieldClaims (s : State) : Bool :=
  match s.tether.yieldReq, s.tether.heart with
  | some _, some h => h.yielded && !h.claiming && decide (s.ao.claimIn = .static)
  | _, _ => false

/-- What an ACTIVE module of a pair does at boundary `n`. -/
def activeBoundary (n : Word) (s : State) : State :=
  let t := s.tether
  if t.hoAck = some n then onTether (fun t => { t with hoGave := some n }) (enterStandby s)
  else if t.yieldDue then
    logOpen cdYIELD unBRIDLE 0 0 0 (onTether (fun t => { t with yielded := true }) (enterStandby s))
  else if t.dualClaim then
    if isPreferred s then onTether (fun t => { t with dualClaim := false }) s
    else logOpen cdDUALCLAIM unBRIDLE 0 0 0 (enterStandby s)
  else
    let s1 := activeImages n s
    if 3 ≤ t.missing && !t.partnerSilent then
      logOpen cdPARTNERSILENT unBRIDLE 0 0 0 (onTether (fun t => { t with partnerSilent := true }) s1)
    else s1

/-- What a STANDBY module does at boundary `n` once its regions run: comparisons and claims. -/
def standbyRuns (n : Word) (fresh : Bool) (s : State) : State :=
  if offered n s then
    if takerChecks n s then enterActive s else logOpen cdHANDOVERABORT unBRIDLE 0 0 0 s
  else if reclaims n s then enterActive s
  else if yieldClaims s then enterActive s
  else if takeoverDue s then enterActive s
  else if s.tether.synced then
    let a := compareShadow fresh (yieldRefused s)
    let b := compareOutputs n a.1
    if a.2 || b.2 then onTether askTransfer b.1 else b.1
  else if fresh && decide (s.tether.recv = .none) then onTether askTransfer s
  else s

/-- Conditions of CLAIM_LINE as a boundary finds them: the times since which they hold, and the record made or cleared (12 R376). A HEART
shows CLAIMING for the interval in which it is taken. -/
def claimLineStep (s : State) : State :=
  let claiming := match s.tether.heart with
    | some h => h.claiming && decide (s.tether.missing = 0)
    | none => false
  recordClaimLine <| onTether (fun t =>
    let since := if claiming && decide (s.ao.claimIn = .static) then (match t.lineSince with | some m => some m | none => some s.ao.ms) else none
    let okAt := if claiming && decide (s.ao.claimIn = .live) then (match t.lineOkSince with | some m => some m | none => some s.ao.ms) else none
    let clear := match okAt with
      | some m => decide (m + 3 * periodOf s ≤ s.ao.ms)
      | none => false
    { t with lineSince := since, lineOkSince := okAt, claimLine := t.claimLine && !clear }) s

/-- The limits of a transfer (12 R367): one not complete within 40 cycles of its first pass is abandoned, and 100 cycles later a new one is
asked for. The regions stay halted. -/
def transferLimits (s : State) : State :=
  match s.tether.recv with
  | .receiving c =>
    if 40 ≤ c then logOpen cdTRANSFER unBRIDLE 0 2 0
      (onTether (fun t => { t with recv := .retry 0, gotRoutes := false, gotModule := none, gotEnd := false }) s)
    else s
  | .retry c => if 100 ≤ c then onTether (fun t => { t with recv := .asked }) s else s
  | _ => s

/-- What a STANDBY module does at boundary `n`. The loss of the partner may let it take over at once (12 R375). -/
def standbyBoundary (n : Word) (fresh : Bool) (s0 : State) : State :=
  let s1 := claimLineStep s0
  match transferComplete s1.tether with
  | some m => transferRestart m s1
  | none =>
    let s := transferLimits s1
    if s.tether.recv ≠ .none && 3 ≤ s.tether.missing then
      let s2 := partnerLost s
      if takeoverDue s2 then enterActive s2 else s2
    else if xferHalted s then onTether (fun t => { t with gotRoutes := false, gotModule := none, gotEnd := false }) s
    else standbyRuns n fresh s

/-- Cycles of a transfer, a yield request and a re-claim as a boundary counts them. -/
def countTether (n : Word) (stopping : Bool) (t : TetherSt) : TetherSt :=
  { t with recv := (match t.recv with
             | .receiving c => .receiving (c + 1)
             | .retry c => .retry (c + 1)
             | q => q),
           send := (match t.send with
             | .passing p c l => .passing p (c + 1) l
             | .finalSent p c => .finalSent p (c + 1)
             | .finished c => .finished (c + 1)
             | .idle => .idle),
           yieldReq := t.yieldReq.map (· + 1),
           hoGave := match t.hoGave with
             | some m => if m + 1 = n || stopping then some m else none
             | none => none,
           record := none }

/-- Everything that a boundary `n`, which ends cycle `k`, does to the role of the module. `first`: the first boundary. -/
def roleBoundary (first : Bool) (k n : Word) (s0 : State) : State :=
  let stopping := decide (s0.ao.stopReq ≠ .none)
  let s := onTether (countTether n stopping) s0
  if (partnerPos s).isNone then
    if s.mode = .wake then enterActive s else s
  else
    let fresh := s.tether.heartNew
    let s1 := prefConflict (if first then s else onTether heartInterval (noteOwn k s))
    let s2 := match s1.mode with
      | .wake => negotiate (if first then onTether (fun t => { t with negSince := s1.ao.ms }) s1 else s1)
      | .active => activeBoundary n s1
      | .standby => standbyBoundary n fresh s1
      | _ => s1
    onTether (fun t => { t with lowSeen := lowGroups s2.outs }) s2

end Sys2Proof.Machine
end

