-- ==== Sys2Proof/Machine/Boundary.lean ====
section
/-!
DEFINITION. The cycle boundary (04 R141, R143; 13; 95 CYCLE_BOUNDARY): RELEASE and freeze, cycle number, roles, re-join, overlays, an
online change's switch, a pending stop, the time-base check and everything published at the boundary.
-/

namespace Sys2Proof.Machine

/-! ## Cycle number and events -/

/-- Number of the cycle that begins: the first takes the highest CYCLE + 2 accepted, or 0; in WAKE it is raised to it; otherwise the
next (04 R143, 11 R331, 14 R413). -/
def nextCycle (first : Bool) (s : State) : Word :=
  match first, s.alignTo with
  | true, some a => a
  | true, none => 0
  | false, some a => if s.mode = .wake && serialAfter a (s.cycle + 1) then a else s.cycle + 1
  | false, none => s.cycle + 1

/-- Sources posted in the cycle that ends become those of the previous cycle (05 R185). -/
def shiftEvents (x : DieSt) : DieSt := mapRegs x (fun _ g => { g with postedPrev := g.posted, posted := 0 })

/-- The vote's record of one cycle is closed: misses shift, nothing has arrived, no drop request is counted. -/
def closeCycle (v : VoteSt) : VoteSt :=
  mapCopies (fun _ _ c => { c with missPrev := c.missNow, missNow := false, missWin := c.missWin <<< 1, arrived := false, rxH := none,
                                   rxL := none })
    { v with votes := Vector.replicate 16 voteReset, deadline := false, hbSent := false, dropReq := [] }

/-! ## Faults of the cycle, probation (16 R460) -/

/-- The cycle that ends was fault-free. -/
def faultFree (s : State) : Bool :=
  (decide (s.mode = .active) || decide (s.mode = .standby)) && !s.overlays.degraded &&
    allDies.all (fun d => (numsFrom 0 16).all (fun r =>
      decide ((copyOf s.vote d r).status.extractLsb' 1 6 = 0) && !bitOf (reg (dieOf s d) r).posted 0xC3))

/-- The count of fault-free cycles while PROBATION is set. -/
def countClean (s : State) : State :=
  if !s.overlays.probation then s
  else
    let n := if faultFree s then s.update.clean + 1 else 0
    onWin (fun w => { w with probCount := BitVec.ofNat 32 n }) { s with update := { s.update with clean := n } }

/-! ## Time base (13 R406) -/

/-- SLK periods counted over 256 XO32 periods: two counts in a row outside 32,000 ± 160 withhold the heartbeat. -/
def timeBase (slk : Nat) (s : State) : State :=
  onAo (fun a =>
    if 31840 ≤ slk && slk ≤ 32160 then { a with tbBad := 0 }
    else { a with tbBad := a.tbBad + 1, hbHeld := a.hbHeld || decide (1 ≤ a.tbBad) }) s

/-- Steering of the next boundary: a standby toward 1.5 ms behind the active, in one step on entry and at a restart, else by at most
64 SLK periods (12 R363). The active's is formed at SAMPLE (11 R332). -/
def steer (jump : Bool) (off : Option Int) (s : State) : State :=
  match s.mode, off with
  | .standby, some o =>
    let d := 6144 - o
    { s with slkAdjust := if jump then d else if d < -64 then -64 else if 64 < d then 64 else d }
  | .active, _ => s
  | _, _ => { s with slkAdjust := 0 }

/-! ## Re-join (06 R217, R220) -/

def rejoinKey (d : Die) (r : Nat) : Nat := 16 * dieIndex d + r

/-- Attempts for a copy in the preceding 24 h. -/
def rejoinCount (s : State) (d : Die) (r : Nat) : Nat :=
  ((getA [] s.ao.rejoinTimes (rejoinKey d r)).filter (fun t => decide (s.ao.ms < t + dayMs))).length

/-- A migration of the region is in progress in a die: copied and not yet switched (14 R424). -/
def migrating (x : DieSt) (r : Nat) : Bool := x.migrateCopied.contains r

/-- The conditions under which an attempt starts; after an abandoned attempt a migration that is due comes first (01 R40). -/
def rejoinDue (s : State) (d : Die) (r : Nat) : Bool :=
  let c := copyOf s.vote d r
  (match c.excluded with
   | none => false
   | some e => decide (c.rejoin = .none) && !c.barred && (decide (e ≠ .slice) || c.sliceAgain) &&
       (decide (e ≠ .clock) || decide (16 ≤ triGet s.vote.clockGood d))) &&
    allDies.all (fun o => decide (o = d) || isAvail s.vote o r) && decide (rejoinCount s d r < 3) &&
    allDies.all (fun o => !migrating (dieOf s o) r && !(c.migrateFirst && (dieOf s o).migrateDue.contains r))

/-- An attempt starts: the copy is halted. -/
def startRejoin (d : Die) (r : Nat) (s : State) : State :=
  let k := rejoinKey d r
  let s1 := onAo (fun a => { a with rejoinTimes := putA [] k (lastN 3 (getA [] a.rejoinTimes k ++ [a.ms])) a.rejoinTimes }) s
  logOpen cdREJOINSTART (strapIdent (dieOf s d)) r 0 0 (haltRegion d r (onVote (modCopy d r (fun c => { c with rejoin := .passing 0, migrateFirst := false })) s1))

/-- Sources of the items from the mark to the read position (10 R327). -/
def replayItems (p : Spool EventItem) : List Nat :=
  let m := p.mark.getD p.readPos
  (((p.items.drop m).take (p.readPos - m))).map (fun w => (w.extractLsb' 0 8).toNat)

/-- A copy restarts from the transferred state, and its input events are replayed. -/
def restartCopy (d : Die) (r : Nat) (s : State) : State :=
  let s1 := onDie d (fun x =>
    let src := (replayItems x.evSpool).filter (fun n => decide (inputRegion x n = some r))
    let y := modReg x r (fun g => { g with halted := false, revert := false, task := 0, forceNext := false,
                                           pend := src.foldl (fun v n => setBitOf v n true) 0 })
    startRevert r y) s
  onVote (modCopy d r (fun c => { c with rejoin := .shadow 0 })) s1

/-- One copy at a boundary. An attempt without a complete pass in 12 cycles is abandoned (06 R219). -/
def rejoinStep (s : State) (q : Die × Nat) : State :=
  let d := q.1
  let r := q.2
  match (copyOf s.vote d r).rejoin with
  | .none => if rejoinDue s d r then startRejoin d r s else s
  | .passing n => if 11 ≤ n then abandonRejoin d r s else onVote (modCopy d r (fun c => { c with rejoin := .passing (n + 1) })) s
  | .complete => restartCopy d r s
  | .shadow n =>
    if 16 ≤ n then
      logOpen cdREJOINDONE (strapIdent (dieOf s d)) r 0 0
        (onVote (modCopy d r (fun c => { c with excluded := none, rejoin := .none, sliceAgain := false })) s)
    else s

/-- All 48 copies. -/
def allCopies : List (Die × Nat) := allDies.flatMap (fun d => (numsFrom 0 16).map (fun r => (d, r)))

/-- Re-join at a boundary, unless a transfer holds the regions halted. -/
def rejoinAll (s : State) : State := if xferHalted s then s else allCopies.foldl rejoinStep s

/-! ## Overlays that a boundary clears (13 Table 13.3) -/

/-- No copy of any region is excluded. -/
def noneExcluded (v : VoteSt) : Bool := allCopies.all (fun q => !isExcluded (copyOf v q.1 q.2))

/-- A die that runs shows a cause of SUBSTITUTE. -/
def substStands (s : State) : Bool := allDies.any (fun d => (dieOf s d).runsPhases && substCause (ctxOf s) (dieOf s d))

/-- DEGRADED, SUBSTITUTE, and PROBATION after an accepted confirmation. -/
def clearOverlays (s : State) : State :=
  let o := s.overlays
  setOverlays { o with degraded := o.degraded && !noneExcluded s.vote, substitute := o.substitute && substStands s,
                       probation := o.probation && !s.update.cleared }
    { s with update := { s.update with cleared := false } }

/-! ## The switch of an online change (15 R442 to R445) -/

/-- A permit at its moment of use; a discrepancy writes a tail record (14 R411). -/
def readPermit (n : Nat) (s : State) : Bool × State :=
  (permitOn s n, if switchBad s.ao.contacts n then logOpen cdSEALCHANGED unAO 0 n 0 s else s)

/-- Counts of the carry-over of a region, from its maps. -/
def carryCounts (a b : StationPart) (r : Nat) : CarryCount := (carryRegion 0 a b r regionReset).2

/-- The change report: the IDs retyped and dropped, over all regions. -/
def changeReport (a b : StationPart) : List (Bool × BitVec 31) :=
  (numsFrom 0 16).flatMap (fun r =>
    let c := carryCounts a b r
    c.retyped.map (fun i => (false, i)) ++ c.dropped.map (fun i => (true, i)))

/-- Every die switches its banks before WAKE of cycle `n`, 0xC5 is posted, and CHANGE is cleared. -/
def switchBanks (n : Word) (s : State) : State :=
  let a := s.part
  let b := s.change.image
  let s1 := onDies (fun _ x => { x with active := !x.active })
    { s with part := b, partSlotB := s.change.slotB,
             change := { s.change with phase := .none, code := chNONE, report := changeReport a b, oldImage := a, carryAt := some n, at_ := n,
                                       loaded := triAll false },
             update := if s.update.op = .none then { s.update with op := .switched } else { s.update with switchDue := true } }
  let s2 := setOverlays { s1.overlays with change := false } (postEvery 0xC5 s1)
  (numsFrom 0 16).foldl (fun s r => logOpen cdCARRYOVER unBRIDLE r 0 (carryData (carryCounts a b r)) s)
    (logOpen cdCHANGE unBRIDLE 0 0 0 s2)

/-- The change at boundary `n`: at S the permit is read, a live changed route defers the switch, and the 101st deferral aborts. -/
def changeBoundary (n : Word) (s0 : State) : State :=
  let s := if s0.change.carryAt.any (· ≠ n) then { s0 with change := { s0.change with carryAt := none } } else s0
  match s.change.phase with
  | .loaded k =>
    if serialAfter s.change.at_ n then s
    else
      let p := readPermit swCHANGE s
      if !p.1 then abortChange chABORTED p.2
      else if allDies.any (fun d => switchDeferred (dieOf s d)) then
        if 100 ≤ k then abortChange chDEFERLIMIT s
        else { s with change := { s.change with phase := .loaded (k + 1), deferred := k + 1, at_ := n + 1 } }
      else switchBanks n s
  | _ => s

/-- A force ends at the boundary of its EXPIRY cycle (15 R448). -/
def forceOver (n : Word) (f : ForceEntry) : Bool := decide (f.f3 ≠ 0) && !serialAfter f.f3 n

/-- One expired force is taken from the table, with its record. -/
def expireForce (s : State) (f : ForceEntry) : State := setForces (s.forces.filter (· ≠ f)) f s

/-- Every force whose EXPIRY boundary has come. -/
def expireForces (n : Word) (s : State) : State := (s.forces.filter (forceOver n)).foldl expireForce s

/-! ## Stops (13 R394, R395; 14 R428) -/

/-- Units of step 3 of the shutdown sequence (14 Table 14.5). -/
def shutUnits : List BistUnit :=
  [.dieMemory .a, .dieMemory .b, .dieMemory .c, .dieLogic .a, .dieLogic .b, .dieLogic .c, .gondola]

/-- The time base is written back to the RTC (18 R488). -/
def rtcStore (s : State) : State :=
  let u := s.tail.utc.toNat
  onAo (fun a => { a with rtcSec := u / 1000000, rtcSub := u % 1000000 * 32768 / 1000000 }) (onTail (fun t => { t with rtcAt := s.ao.ms }) s)

/-- 60 s have passed since the latest write-back, or since the start loaded the time base (18 R488): write it back. -/
def rtcDue (s : State) : State :=
  if s.tail.running && decide (s.tail.rtcAt + 60000 ≤ s.ao.ms) then rtcStore s else s

/-- Every suppressed count is written, and the staging spool reaches the tail (18 R485, R492). -/
def closeRecorder (s : State) : State :=
  onTail (fun t => tailFlush stagingDepth (supAll (stampOf s) (tailFlush stagingDepth t))) s

/-- SHUTDOWN is entered: cycles stop, the staging spool is flushed, the tests follow. `last`: the last cycle number. -/
def enterShutdown (forRestart : Bool) (last : Word) (s : State) : State :=
  let s1 := removeDrive (setMode .shutdown (stopCycles s))
  closeRecorder (rtcStore (onAo (fun a => { a with stopReq := .none }) { s1 with shut := .testing shutUnits false forRestart last }))

/-- A pending request as it stands at a boundary (13 R394): in ACTIVE it waits for an offered handover, or for the fourth boundary; after
boundary n for CLAIM_IN to leave STATIC; elsewhere SHUTDOWN is entered at once. -/
def stopStep (forRestart : Bool) (b : Nat) (again : Nat → StopReq) (last : Word) (s : State) : State :=
  let wait := onAo (fun a => { a with stopReq := again (b + 1) }) s
  match s.mode with
  | .active => if s.tether.hoAck.isSome || decide (b + 1 < 4) then wait else enterShutdown forRestart last s
  | .standby => if s.tether.hoGave.isSome && decide (s.ao.claimIn = .static) then wait else enterShutdown forRestart last s
  | .wake => enterShutdown forRestart last s
  | _ => s

/-- A pending restart or shutdown request at a boundary. -/
def stopBoundary (last : Word) (s : State) : State :=
  match s.ao.stopReq with
  | .none => s
  | .restart b => stopStep true b StopReq.restart last s
  | .shutdown b => stopStep false b StopReq.shutdown last s

/-! ## Publications -/

def evDepth : Nat := 64
def evWm : Nat := 48

/-- SP.STATUS of every spool but the outboxes, in the order of 17 Table 17.10. -/
def spoolWords (s : State) : List Word :=
  allDies.map (fun d => spStatus evDepth evWm (dieOf s d).evSpool) ++
    allPorts.map (fun p => spStatus txSDepth txSWm (spoolTxS s.links p)) ++ allPorts.map (fun p => spStatus txDDepth txDWm (spoolTxD s.links p)) ++
    allPorts.map (fun p => spStatus rxSDepth rxSWm (spoolRxS s.links p)) ++ [spStatus stagingDepth stagingWm s.tail.staging]

/-- Acknowledge every one of them (10 R321). -/
def ackSpools (s : State) : State :=
  let s1 := onDies (fun _ x => { x with evSpool := spAck x.evSpool }) s
  let s2 := onLinks (fun x => { x with txS := mapA (spEmpty linkTelZero) (fun _ p => spAck p) x.txS,
                                       txD := mapA (spEmpty linkTelZero) (fun _ p => spAck p) x.txD,
                                       rxS := mapA (spEmpty linkTelZero) (fun _ p => spAck p) x.rxS }) s1
  onTail (fun t => { t with staging := spAck t.staging }) s2

/-- The spools are published, acknowledged, and a latched bit writes a record (10 R328). -/
def publishSpools (s : State) : State :=
  let ws := spoolWords s
  let s1 := ackSpools (onWin (fun w => { w with spWords := ws }) s)
  (numsFrom 0 ws.length).foldl (fun s i =>
    let w := ws.getD i 0
    if bitOf w 5 || bitOf w 3 || bitOf w 2 then logData cdSPOOLSTATUS unBRIDLE 0 i (w.setWidth 64) s else s) s1

/-- COUNTER of the newest record of an accepted signed command of a key (17 R474). -/
def tailFloor (t : TailSt) (k : Nat) : Word :=
  let reqs := (logOrdered t).map (fun p => p.2.rec_.req) ++ t.staging.items.map (·.req)
  match (reqs.filter (fun q => decide (q.code = cdSIGNEDACCEPT) && decide (q.index = BitVec.ofNat 8 k))).getLast? with
  | some q => q.data.extractLsb' 0 32
  | none => 0

/-- The value last accepted under a key. -/
def lastCounter (s : State) (k : Nat) : Word := keyCounter s.carrier (putA 0 k (tailFloor s.tail k) []) k

/-- PUBKEY as bytes, words little-endian (17 Table 17.8, 00 R10). -/
def pubBytes (k : OpKey) : List Byte :=
  (numsFrom 0 16).flatMap (fun i => leBytes (k.pub.extractLsb' (480 - 32 * i) 32))

/-- Words of a key's authorisation slot (17 R478). -/
def keySlot (s : State) (i : Nat) : List Word :=
  match s.part.operators.find? (fun p => decide (p.1 = i)) with
  | none => []
  | some p =>
    let h := sm3 (pubBytes p.2)
    [(1#1 ++ 0#26 ++ p.2.roles : BitVec 32), lastCounter s i] ++
      (numsFrom 0 4).map (fun k =>
        let v := h.extractLsb' (224 - 32 * k) 32
        leWord (v.extractLsb' 24 8) (v.extractLsb' 16 8) (v.extractLsb' 8 8) (v.extractLsb' 0 8))

/-- Words of a pending entry's slot: f, the earliest and the latest confirm cycle, and TAG. -/
def pendSlot (p : Nat) (e : PendEntry) : List Word :=
  [(1#1 ++ e.cmd.extractLsb' 0 7 ++ 0#10 ++ e.target.extractLsb' 0 14 : BitVec 32), e.taken,
    e.taken + BitVec.ofNat 32 ((5000 + p - 1) / p), e.taken + BitVec.ofNat 32 (60000 / p), e.ticket]

/-- The pending entries of the module, each region's from an available copy. -/
def modulePendings (s : State) : List PendEntry :=
  (numsFrom 0 16).flatMap (fun r => match availDies s.vote r with
    | d :: _ => (reg (dieOf s d) r).sup.pendings
    | [] => [])

/-- The authorisation slots are rewritten (17 R478). -/
def publishAuth (s : State) : State :=
  let put := fun (base : Nat) (ws : List Word) (m : List (Nat × Word)) =>
    (numsFrom 0 ws.length).foldl (fun m k => putA 0 (base + k) (ws.getD k 0) m) m
  let m1 := (numsFrom 0 8).foldl (fun m i => put (8 * i) (keySlot s i) m) []
  let ps := modulePendings s
  let m2 := (numsFrom 0 16).foldl (fun m j => match ps[j]? with
    | some e => put (64 + 8 * j) (pendSlot (max 1 (periodOf s)) e) m
    | none => m) m1
  onWin (fun w => { w with auth := m2 }) s

/-! ## Staging pages (17 R479) -/

/-- The slot is with the bridle and holds the given command. -/
def bridleSlot (c : WinCmd) (n : Nat) (s : State) : Bool := s.win.bridle.contains n && decide (reqCmd (reqWords s.win n) = some c)

/-- OP of a STAGE_UPDATE. -/
def stageOp (ws : List Word) : Nat := ((ws.getD 4 0).extractLsb' 0 2).toNat

/-- Pages a WRITE names. -/
def stagePages (ws : List Word) : List Nat :=
  numsFrom ((ws.getD 6 0).extractLsb' 0 6).toNat ((ws.getD 6 0).extractLsb' 8 6).toNat

/-- Pages go back to the gateway. -/
def returnPages (ks : List Nat) (s : State) : State :=
  onWin (fun w => ks.foldl (fun w k => { handBack (flSTG + k) w with stgSince := putA 0 k 0 w.stgSince }) w) s

/-- A WRITE that waits with the device names the page. -/
def pageNamed (k : Nat) (s : State) : Bool :=
  s.update.pages.contains k ||
    s.win.bridle.any (fun n => bridleSlot .stageUpdate n s && decide (stageOp (reqWords s.win n) = 2) && (stagePages (reqWords s.win n)).contains k)

/-- A staging page has been with the device for 10 s and no WRITE has named it. -/
def pageOver (page : Nat) (s : State) : Bool :=
  let t := getA 0 s.win.stgSince page
  decide (page < 32) && decide (winFlag s.win (flSTG + page) = ownDEVICE) && decide (t ≠ 0) && decide (t - 1 + 10000 ≤ s.ao.ms) &&
    !pageNamed page s

/-- What every boundary publishes, with the pages and the suppressed counts whose time is over: spools, authorisation slots, report switch, pages of a bad flag, header (17 R466, R476 to R479). -/
def publishBoundary (s : State) : State :=
  let s0 := returnPages ((numsFrom 0 32).filter (fun k => pageOver k s)) s
  let s1 := publishAuth (publishSpools (rtcDue (onTail (supDueAll (stampOf s)) s0)))
  let s2 := onWin (fun w =>
    let w1 := { w with repCur := w.repDone.getD w.repCur, repDone := none, badPages := [], delivered := [] }
    w.badPages.foldl (fun w k => handBack k w) w1) s1
  winHeader s2

/-! ## The boundary -/

/-- D lies before the boundary: a vote that D has not closed is closed here (04 R141). -/
def closeVotes (s : State) : State :=
  if cyclesRun s && !s.vote.deadline && decide (s.boundaries ≠ 0) then
    (numsFrom 0 16).foldl voteIfDue (onVote (fun v => { v with deadline := true }) s)
  else s

/-- RELEASE of the vote of cycle `k` and the telegrams of the boundary of cycle `n`. -/
def releaseStep (first : Bool) (k n : Word) (s : State) : State :=
  let s1 := if first || !cyclesRun s then s else releaseImages k s
  match s1.mode with
  | .active | .standby => if first then s1 else releaseTelegrams k s1
  | _ => sendIdles (n - 1) s1

/-- A setup for the counters goes with the next cycle-start message (19 R501). -/
def shiftSetup (s : State) : State :=
  match s.pmcSetup with
  | some ws => { s with pmcWith := some ws, pmcSetup := none, pmcActive := ws }
  | none => { s with pmcWith := none }

/-- A boundary at which cycles run, or begin. -/
def runBoundary (first : Bool) (bi : BoundaryIn) (s0 : State) : State :=
  let k := s0.cycle
  let n := nextCycle first s0
  let s1 := publishFrozen s0 (freezeImage n (countClean s0))
  let s2 := { onDies (fun _ x => shiftEvents x) s1 with
              cycle := n, boundaries := s1.boundaries + 1, start := if first then .cycles else s1.start,
              firstBoundaryMs := if first then s1.ao.ms else s1.firstBoundaryMs }
  let halted := xferHalted s2
  let s3 := roleBoundary first k n (timeBase bi.slkCount s2)
  let s4 := releaseStep first k s3.cycle (stopBoundary k { s3 with ins := { s3.ins with cycleNo := s3.cycle } })
  let jump := (decide (s0.mode ≠ .standby) && decide (s4.mode = .standby)) || (halted && !xferHalted s4)
  let s5 := steer jump bi.offset (onVote closeCycle s4)
  let s6 := if cyclesRun s5 then clearOverlays (changeBoundary s5.cycle (rejoinAll (onDies (fun _ x => expirePendings s5.cycle (periodOf s5) x) (expireForces s5.cycle s5)))) else s5
  let s7 := onWin (fun w => { w with pmcWords := pmcMirror k s6 }) s6
  publishBoundary (shiftSetup s7)

/-- A boundary outside cycles: SAFE after a trip or a refusal, and SHUTDOWN. -/
def idleBoundary (s0 : State) : State :=
  let n := s0.cycle + 1
  let s1 := { publishFrozen s0 (freezeImage n s0) with cycle := n, slkAdjust := 0 }
  publishBoundary (sendIdles s0.cycle (onDies (fun _ x => shiftEvents x) s1))

/-- CYCLE_BOUNDARY. Before the first boundary of a start, in DORMANT and with reset held there is none. -/
def execCycleBoundary (bi : BoundaryIn) (s : State) : Host.Outcome State Fault Refusal :=
  .next (if !bridleRuns s then s
         else
           match s.mode with
           | .wake =>
             if s.start = .ready then runBoundary true bi s
             else if s.start = .cycles then
               let s1 := closeVotes s
               if cyclesRun s1 then runBoundary false bi s1 else idleBoundary s1
             else s
           | .active | .standby =>
             let s1 := closeVotes s
             if cyclesRun s1 then runBoundary false bi s1 else idleBoundary s1
           | .safe | .shutdown => idleBoundary s
           | .dormant => s)

end Sys2Proof.Machine
end

