-- ==== Sys2Proof/Machine/RuleCode.lean ====
section
/-!
DEFINITION. The instructions of rule code (05 Table 5.7): each runs on a region of one die under the charges, budgets, traps and
halts of `runIns`. A row acts where its word is the one the pair fetches at PC.
-/

namespace Sys2Proof.Machine

/-- A shift count: bits [4:0] (05 Table 5.7). -/
def shiftBy (w : Word) : Nat := (w.extractLsb' 0 5).toNat

/-- Codes of the retired instructions that the performance counters tell apart (19 Table 19.1). -/
def knPLAIN : Nat := 0
def knCELL : Nat := 0x08
def knLDST : Nat := 0x09

/-- Run an instruction on a region of a die; tail records that it raises reach the bridle. -/
def runRule (d : Die) (r charge kind : Nat) (f : Ctx → DieSt → InsRes) (s : State) : State :=
  takeDieLogs d (onDie d (runIns (ctxOf s) r charge kind (f (ctxOf s))) s)

/-- Instruction words by format (05 Table 5.10): I, which U, B and JAL share with their fields in place, R, and C. -/
def wordI (op : BitVec 6) (rd ra : BitVec 4) (imm : BitVec 18) : Word := op ++ rd ++ ra ++ imm
def wordR (op : BitVec 6) (rd ra rb : BitVec 4) : Word := op ++ rd ++ ra ++ rb ++ 0#14
def wordC (op : BitVec 6) (rd ra rb : BitVec 4) (f : BitVec 5) (k : BitVec 3) : Word := op ++ rd ++ ra ++ rb ++ f ++ 0#6 ++ k

/-- An instruction word without the fields that its operation neither names nor requires to be 0 (05 Table 5.7): RB of BZ and BNZ, RB and
K of CRD, K of CWR and CFC, RB of IRD. -/
def insKey (w : Word) : Word :=
  let op := w.extractLsb' 26 6
  if op = 0x20 || op = 0x21 then w &&& 0xFFC3FFFF
  else if op = 0x28 then w &&& 0xFFFC3FF8
  else if op = 0x29 || op = 0x2A then w &&& 0xFFFFFFF8
  else if op = 0x2B then w &&& 0xFFFC3FFF
  else w

/-- A row of rule code acts only where its instruction word `w` is the one that the region's running set fetches at PC (05 R187, R172):
the word selects the instruction and its operands. -/
def atPc (d : Die) (r : Nat) (w : Word) (f : State → State) (s : State) : State := if insKey (fetchedWord (dieOf s d) r) = insKey w then f s else s

/-- The instruction is executed: a task runs and the budget holds its charge. -/
def insGoes (s : State) (d : Die) (r charge : Nat) : Bool :=
  let x := dieOf s d
  canRun x r && decide (curCharge x r + charge ≤ curBudget (ctxOf s) x r)

/-! ## Loads and stores -/

/-- What SECDED makes of a read of region memory (01 R37): a single-bit error is corrected and counted; an uncorrectable one
halts the pair and excludes the copy, and the bridle records the address. -/
def eccEvent (d : Die) (r a : Nat) (e : Ecc) (s : State) : State :=
  match e with
  | .ok => s
  | .corrected => onDie d (fun x => modReg x r (fun g => { g with eccCorrected := g.eccCorrected + 1, eccAddr := BitVec.ofNat 32 a })) s
  | .uncorrectable =>
    let s1 := onDie d (fun x => modReg x r (fun g => { g with eccAddr := BitVec.ofNat 32 a })) s
    excludeCopy d r .halted (logOpen cdECC (strapIdent (dieOf s d)) r 0 (BitVec.ofNat 64 a) (haltRegion d r s1))

/-- A load of `n` bytes (05 R188). An uncorrectable error leaves it without a result. -/
def ruleLoad (d : Die) (r rd ra : Nat) (imm : BitVec 18) (n : Nat) (ecc : Ecc) (s : State) : State :=
  let x := dieOf s d
  let a := (rget x r ra + imm.signExtend 32).toNat
  let reads := insGoes s d r 12 && decide (a % n = 0) && decide (loadArea x r a = .mem)
  if reads && decide (ecc = .uncorrectable) then eccEvent d r a ecc s
  else
    let s1 := runRule d r 12 knLDST (fun cx x => insLoad cx r rd ra imm n x) s
    if reads then eccEvent d r a ecc s1 else s1

/-- A store of `n` bytes. -/
def ruleStore (d : Die) (r rd ra : Nat) (imm : BitVec 18) (n : Nat) (s : State) : State :=
  runRule d r 12 knLDST (fun _ x => insStore r rd ra imm n x) s

/-- LDW. -/
def execLdw (d : Die) (r : Nat) (rd ra : BitVec 4) (imm : BitVec 18) (ecc : Ecc) (s : State) :
    Host.Outcome State Fault Refusal := .next (atPc d r (wordI 0x01 rd ra imm) (ruleLoad d r rd.toNat ra.toNat imm 4 ecc) s)
/-- LDH. -/
def execLdh (d : Die) (r : Nat) (rd ra : BitVec 4) (imm : BitVec 18) (ecc : Ecc) (s : State) :
    Host.Outcome State Fault Refusal := .next (atPc d r (wordI 0x02 rd ra imm) (ruleLoad d r rd.toNat ra.toNat imm 2 ecc) s)
/-- LDB. -/
def execLdb (d : Die) (r : Nat) (rd ra : BitVec 4) (imm : BitVec 18) (ecc : Ecc) (s : State) :
    Host.Outcome State Fault Refusal := .next (atPc d r (wordI 0x03 rd ra imm) (ruleLoad d r rd.toNat ra.toNat imm 1 ecc) s)
/-- STW. -/
def execStw (d : Die) (r : Nat) (rd ra : BitVec 4) (imm : BitVec 18) (s : State) : Host.Outcome State Fault Refusal :=
  .next (atPc d r (wordI 0x04 rd ra imm) (ruleStore d r rd.toNat ra.toNat imm 4) s)
/-- STH. -/
def execSth (d : Die) (r : Nat) (rd ra : BitVec 4) (imm : BitVec 18) (s : State) : Host.Outcome State Fault Refusal :=
  .next (atPc d r (wordI 0x05 rd ra imm) (ruleStore d r rd.toNat ra.toNat imm 2) s)
/-- STB. -/
def execStb (d : Die) (r : Nat) (rd ra : BitVec 4) (imm : BitVec 18) (s : State) : Host.Outcome State Fault Refusal :=
  .next (atPc d r (wordI 0x06 rd ra imm) (ruleStore d r rd.toNat ra.toNat imm 1) s)

/-! ## Arithmetic, logic and comparison -/

/-- LUI: rd takes imm16 shifted left by 16. -/
def execLui (d : Die) (r : Nat) (rd : BitVec 4) (imm : BitVec 16) (s : State) : Host.Outcome State Fault Refusal :=
  .next (atPc d r (wordI 0x08 rd 0 (imm.setWidth 18)) (runRule d r 1 knPLAIN (fun _ x => insAlu r rd.toNat (imm ++ 0#16 : BitVec 32) x)) s)
/-- ANDI. -/
def execAndi (d : Die) (r : Nat) (rd ra : BitVec 4) (imm : BitVec 16) (s : State) : Host.Outcome State Fault Refusal :=
  .next (atPc d r (wordI 0x0A rd ra (imm.setWidth 18)) (runRule d r 1 knPLAIN (fun _ x => insAlu r rd.toNat (rget x r ra.toNat &&& imm.setWidth 32) x)) s)
/-- ORI. -/
def execOri (d : Die) (r : Nat) (rd ra : BitVec 4) (imm : BitVec 16) (s : State) : Host.Outcome State Fault Refusal :=
  .next (atPc d r (wordI 0x0B rd ra (imm.setWidth 18)) (runRule d r 1 knPLAIN (fun _ x => insAlu r rd.toNat (rget x r ra.toNat ||| imm.setWidth 32) x)) s)
/-- XORI. -/
def execXori (d : Die) (r : Nat) (rd ra : BitVec 4) (imm : BitVec 16) (s : State) : Host.Outcome State Fault Refusal :=
  .next (atPc d r (wordI 0x0C rd ra (imm.setWidth 18)) (runRule d r 1 knPLAIN (fun _ x => insAlu r rd.toNat (rget x r ra.toNat ^^^ imm.setWidth 32) x)) s)
/-- ADDI. -/
def execAddi (d : Die) (r : Nat) (rd ra : BitVec 4) (imm : BitVec 18) (s : State) : Host.Outcome State Fault Refusal :=
  .next (atPc d r (wordI 0x09 rd ra imm) (runRule d r 1 knPLAIN (fun _ x => insAlu r rd.toNat (rget x r ra.toNat + imm.signExtend 32) x)) s)
/-- CEQI. -/
def execCeqi (d : Die) (r : Nat) (rd ra : BitVec 4) (imm : BitVec 16) (s : State) : Host.Outcome State Fault Refusal :=
  .next (atPc d r (wordI 0x1D rd ra (imm.setWidth 18)) (runRule d r 1 knPLAIN (fun _ x => insAlu r rd.toNat (b2w (decide (rget x r ra.toNat = imm.setWidth 32))) x)) s)
/-- CLTUI. -/
def execCltui (d : Die) (r : Nat) (rd ra : BitVec 4) (imm : BitVec 16) (s : State) : Host.Outcome State Fault Refusal :=
  .next (atPc d r (wordI 0x1E rd ra (imm.setWidth 18)) (runRule d r 1 knPLAIN (fun _ x => insAlu r rd.toNat (b2w (decide ((rget x r ra.toNat).toNat < imm.toNat))) x)) s)
/-- AND. -/
def execAndr (d : Die) (r : Nat) (rd ra rb : BitVec 4) (s : State) : Host.Outcome State Fault Refusal :=
  .next (atPc d r (wordR 0x10 rd ra rb) (runRule d r 1 knPLAIN (fun _ x => insAlu r rd.toNat (rget x r ra.toNat &&& rget x r rb.toNat) x)) s)
/-- OR. -/
def execOrr (d : Die) (r : Nat) (rd ra rb : BitVec 4) (s : State) : Host.Outcome State Fault Refusal :=
  .next (atPc d r (wordR 0x11 rd ra rb) (runRule d r 1 knPLAIN (fun _ x => insAlu r rd.toNat (rget x r ra.toNat ||| rget x r rb.toNat) x)) s)
/-- XOR. -/
def execXorr (d : Die) (r : Nat) (rd ra rb : BitVec 4) (s : State) : Host.Outcome State Fault Refusal :=
  .next (atPc d r (wordR 0x12 rd ra rb) (runRule d r 1 knPLAIN (fun _ x => insAlu r rd.toNat (rget x r ra.toNat ^^^ rget x r rb.toNat) x)) s)
/-- ANDN. -/
def execAndn (d : Die) (r : Nat) (rd ra rb : BitVec 4) (s : State) : Host.Outcome State Fault Refusal :=
  .next (atPc d r (wordR 0x13 rd ra rb) (runRule d r 1 knPLAIN (fun _ x => insAlu r rd.toNat (rget x r ra.toNat &&& ~~~rget x r rb.toNat) x)) s)
/-- ADD. -/
def execAdd (d : Die) (r : Nat) (rd ra rb : BitVec 4) (s : State) : Host.Outcome State Fault Refusal :=
  .next (atPc d r (wordR 0x14 rd ra rb) (runRule d r 1 knPLAIN (fun _ x => insAlu r rd.toNat (rget x r ra.toNat + rget x r rb.toNat) x)) s)
/-- SUB. -/
def execSub (d : Die) (r : Nat) (rd ra rb : BitVec 4) (s : State) : Host.Outcome State Fault Refusal :=
  .next (atPc d r (wordR 0x15 rd ra rb) (runRule d r 1 knPLAIN (fun _ x => insAlu r rd.toNat (rget x r ra.toNat - rget x r rb.toNat) x)) s)
/-- SHL. -/
def execShl (d : Die) (r : Nat) (rd ra rb : BitVec 4) (s : State) : Host.Outcome State Fault Refusal :=
  .next (atPc d r (wordR 0x16 rd ra rb) (runRule d r 1 knPLAIN (fun _ x => insAlu r rd.toNat (rget x r ra.toNat <<< shiftBy (rget x r rb.toNat)) x)) s)
/-- SHR. -/
def execShr (d : Die) (r : Nat) (rd ra rb : BitVec 4) (s : State) : Host.Outcome State Fault Refusal :=
  .next (atPc d r (wordR 0x17 rd ra rb) (runRule d r 1 knPLAIN (fun _ x => insAlu r rd.toNat (rget x r ra.toNat >>> shiftBy (rget x r rb.toNat)) x)) s)
/-- SAR. -/
def execSar (d : Die) (r : Nat) (rd ra rb : BitVec 4) (s : State) : Host.Outcome State Fault Refusal :=
  .next (atPc d r (wordR 0x18 rd ra rb) (runRule d r 1 knPLAIN (fun _ x => insAlu r rd.toNat ((rget x r ra.toNat).sshiftRight (shiftBy (rget x r rb.toNat))) x)) s)
/-- CEQ. -/
def execCeq (d : Die) (r : Nat) (rd ra rb : BitVec 4) (s : State) : Host.Outcome State Fault Refusal :=
  .next (atPc d r (wordR 0x1A rd ra rb) (runRule d r 1 knPLAIN (fun _ x => insAlu r rd.toNat (b2w (decide (rget x r ra.toNat = rget x r rb.toNat))) x)) s)
/-- CLT. -/
def execClt (d : Die) (r : Nat) (rd ra rb : BitVec 4) (s : State) : Host.Outcome State Fault Refusal :=
  .next (atPc d r (wordR 0x1B rd ra rb) (runRule d r 1 knPLAIN (fun _ x => insAlu r rd.toNat (b2w ((rget x r ra.toNat).slt (rget x r rb.toNat))) x)) s)
/-- CLTU. -/
def execCltu (d : Die) (r : Nat) (rd ra rb : BitVec 4) (s : State) : Host.Outcome State Fault Refusal :=
  .next (atPc d r (wordR 0x1C rd ra rb) (runRule d r 1 knPLAIN (fun _ x => insAlu r rd.toNat (b2w ((rget x r ra.toNat).ult (rget x r rb.toNat))) x)) s)

/-! ## Branches and jumps -/

/-- BZ. -/
def execBz (d : Die) (r : Nat) (rd : BitVec 4) (imm : BitVec 18) (s : State) : Host.Outcome State Fault Refusal :=
  .next (atPc d r (wordI 0x20 rd 0 imm) (runRule d r 3 knPLAIN (fun _ x => insBranch r (decide (rget x r rd.toNat = 0)) imm x)) s)
/-- BNZ. -/
def execBnz (d : Die) (r : Nat) (rd : BitVec 4) (imm : BitVec 18) (s : State) : Host.Outcome State Fault Refusal :=
  .next (atPc d r (wordI 0x21 rd 0 imm) (runRule d r 3 knPLAIN (fun _ x => insBranch r (decide (rget x r rd.toNat ≠ 0)) imm x)) s)
/-- BEQ. -/
def execBeq (d : Die) (r : Nat) (rd ra : BitVec 4) (imm : BitVec 18) (s : State) : Host.Outcome State Fault Refusal :=
  .next (atPc d r (wordI 0x22 rd ra imm) (runRule d r 3 knPLAIN (fun _ x => insBranch r (decide (rget x r rd.toNat = rget x r ra.toNat)) imm x)) s)
/-- BNE. -/
def execBne (d : Die) (r : Nat) (rd ra : BitVec 4) (imm : BitVec 18) (s : State) : Host.Outcome State Fault Refusal :=
  .next (atPc d r (wordI 0x23 rd ra imm) (runRule d r 3 knPLAIN (fun _ x => insBranch r (decide (rget x r rd.toNat ≠ rget x r ra.toNat)) imm x)) s)
/-- JAL. -/
def execJal (d : Die) (r : Nat) (rd : BitVec 4) (imm : BitVec 18) (s : State) : Host.Outcome State Fault Refusal :=
  .next (atPc d r (wordI 0x24 rd 0 imm) (runRule d r 3 knPLAIN (fun _ x => insJal r rd.toNat imm x)) s)
/-- JR. -/
def execJr (d : Die) (r : Nat) (ra : BitVec 4) (s : State) : Host.Outcome State Fault Refusal :=
  .next (atPc d r (wordR 0x25 0 ra 0) (runRule d r 3 knPLAIN (fun _ x => insJr r ra.toNat x)) s)

/-! ## Cell instructions -/

/-- CRD (05 R189). -/
def execCrd (d : Die) (r : Nat) (rd ra : BitVec 4) (f : BitVec 5) (s : State) : Host.Outcome State Fault Refusal :=
  .next (atPc d r (wordC 0x28 rd ra 0 f 0) (runRule d r (crdCharge (dieOf s d) r ra.toNat) knCELL (fun _ x => insCrd r rd.toNat ra.toNat f.toNat x)) s)
/-- CWR (05 R190). -/
def execCwr (d : Die) (r : Nat) (rd ra rb : BitVec 4) (f : BitVec 5) (s : State) : Host.Outcome State Fault Refusal :=
  .next (atPc d r (wordC 0x29 rd ra rb f 0) (runRule d r 18 knCELL (fun cx x => insCwr cx r rd.toNat ra.toNat rb.toNat f.toNat x)) s)
/-- CFC (02 R91). -/
def execCfc (d : Die) (r : Nat) (rd ra rb : BitVec 4) (f : BitVec 5) (s : State) : Host.Outcome State Fault Refusal :=
  .next (atPc d r (wordC 0x2A rd ra rb f 0) (runRule d r 18 knCELL (fun cx x => insCfc cx r rd.toNat ra.toNat rb.toNat f.toNat x)) s)
/-- IRD (05 R193). -/
def execIrd (d : Die) (r : Nat) (rd ra : BitVec 4) (k : BitVec 3) (s : State) : Host.Outcome State Fault Refusal :=
  .next (atPc d r (wordC 0x2B rd ra 0 0 k) (runRule d r 14 knCELL (fun cx x => insIrd cx r rd.toNat ra.toNat k.toNat x)) s)
/-- OWR (05 R193). -/
def execOwr (d : Die) (r : Nat) (ra rb : BitVec 4) (k : BitVec 3) (s : State) : Host.Outcome State Fault Refusal :=
  .next (atPc d r (wordC 0x2C 0 ra rb 0 k) (runRule d r 14 knCELL (fun _ x => insOwr r ra.toNat rb.toNat k.toNat x)) s)
/-- TST (02 R82, R86). -/
def execTst (d : Die) (r : Nat) (ra rb : BitVec 4) (k : BitVec 2) (s : State) : Host.Outcome State Fault Refusal :=
  .next (atPc d r (wordC 0x2D 0 ra rb 0 (k.setWidth 3)) (runRule d r 18 knCELL (fun _ x => insTst r ra.toNat rb.toNat k.toNat x)) s)
/-- TSP (02 R86). -/
def execTsp (d : Die) (r : Nat) (ra : BitVec 4) (k : BitVec 2) (s : State) : Host.Outcome State Fault Refusal :=
  .next (atPc d r (wordC 0x2E 0 ra 0 0 (k.setWidth 3)) (runRule d r 18 knCELL (fun _ x => insTsp r ra.toNat k.toNat x)) s)

/-- A switch of the output has gate drive. -/
def outDriven (s : State) (o : Nat) : Bool := pumpFed s o true || pumpFed s o false

/-- The bridle takes a drop request of a die (04 R164): once it decides, both switches lose their gate drive. While the trip latch is set
drop requests have no effect (06 R229). -/
def bridleDrop (d : Die) (o : Nat) (s : State) : State :=
  if s.ao.tripLatch then s else refreshOuts (onVote (dropRequest d o s.cycle (outDriven s o)) s)

/-- What DROP does (04 R164): the die emits the request, which the bridle counts. -/
def ruleDrop (d : Die) (r ra k : Nat) (s : State) : State :=
  let t := dropTarget (dieOf s d) r ra k
  let goes := insGoes s d r 24
  let s1 := runRule d r 24 knCELL (fun _ x => match t with
    | .inl _ => .ok x
    | .inr c => .trap c) s
  match t with
  | .inl o => if goes then bridleDrop d o s1 else s1
  | .inr _ => s1

/-- DROP (04 R164). -/
def execDrop (d : Die) (r : Nat) (ra : BitVec 4) (k : BitVec 3) (s : State) : Host.Outcome State Fault Refusal :=
  .next (atPc d r (wordC 0x2F 0 ra 0 0 k) (ruleDrop d r ra.toNat k.toNat) s)

/-- DROP_REQUEST: a request that a die has emitted reaches the bridle (04 R164). -/
def execDropRequest (d : Die) (o : Nat) (s : State) : Host.Outcome State Fault Refusal := .next (bridleDrop d o s)

/-! ## EWAIT, DACC and words without a meaning -/

/-- EWAIT (05 R191). -/
def execEwait (d : Die) (r : Nat) (rd : BitVec 4) (s : State) : Host.Outcome State Fault Refusal :=
  .next (atPc d r (wordR 0x30 rd 0 0) (runRule d r 10 knPLAIN (fun _ x => insEwait r rd.toNat x)) s)
/-- DACC (05 R192). -/
def execDacc (d : Die) (r : Nat) (ra : BitVec 4) (s : State) : Host.Outcome State Fault Refusal :=
  .next (atPc d r (wordR 0x31 0 ra 0) (runRule d r 6 knPLAIN (fun _ x => insDacc r ra.toNat x)) s)
/-- An instruction word that traps ILLEGAL (05 R187); a word with a meaning is not this row. -/
def execIllegal (d : Die) (r : Nat) (w : Word) (s : State) : Host.Outcome State Fault Refusal :=
  .next (atPc d r w (fun s => if illegalWord w then runRule d r 0 knPLAIN (fun _ _ => .trap cILLEGAL) s else s) s)

end Sys2Proof.Machine
end

