-- ==== Sys2Proof/Machine/Service.lean ====
section
/-!
DEFINITION. COMMIT in the module, with what follows it in a die's idle window (04 R149, 95 COMMIT): the HEART of the cycle, a handover
offer, migration copies, the loading of an online change, transfer passes of the active, self-test slices (14 R422 to R425) and
re-join passes (06 R219).
-/

namespace Sys2Proof.Machine

/-! ## HEART (12 R361) and HANDOVER_OFFER (12 R379) -/

/-- The partner counts as preferred. -/
def partnerPreferred (s : State) : Bool :=
  match s.tether.heart with
  | some h => h.preferred && !(h.preferred && preferredSw s && isPreferred s)
  | none => false

/-- A preferred standby that is ready to take control asks for a handover. -/
def asksHandover (s : State) : Bool :=
  decide (s.mode = .standby) && isPreferred s && isHealthy s && s.tether.inStep && decide (s.tether.shadow = 32) &&
    !partnerPreferred s

/-- The active offers a handover in its COMMIT: a takeback, an accepted command, or a pending stop; never while CHANGE stands. -/
def offersHandover (s : State) : Bool :=
  let takeback := match s.tether.heart with
    | some h => h.hoReq && partnerPreferred s && !isPreferred s
    | none => false
  decide (s.mode = .active) && s.tether.hoAck.isNone && partnerReady s && !s.overlays.change &&
    (takeback || s.tether.hoAsked || decide (s.ao.stopReq ≠ .none))

/-- HANDOVER_OFFER: HANDOVER_CYCLE is the second boundary from here. -/
def handoverOffer (s : State) : State :=
  if offersHandover s then onTether (fun t => { t with hoAck := some (s.cycle + 2), hoAsked := false }) s else s

/-- The HEART record of the present cycle. -/
def ownHeart (s : State) : Heart :=
  let t := s.tether
  { standby := decide (s.mode = .standby), preferred := preferredSw s, claiming := s.ao.claimEn, healthy := isHealthy s,
    synced := t.synced, inStep := t.inStep, yieldReq := t.yieldReq.isSome, yielded := t.yielded, hoReq := asksHandover s,
    hoAck := t.hoAck.isSome, shadow := t.shadow, hoCycle := t.hoAck.getD 0, image := 0, digests := [], cycle := s.cycle }

/-- D0 and D1 are fixed at the first COMMIT of a cycle, so that the three dies append one record. -/
def fixHeart (s0 : State) : State :=
  if s0.tether.record.isSome || (partnerLink s0).isNone || !(decide (s0.mode = .active) || decide (s0.mode = .standby)) then s0
  else
    let s := handoverOffer s0
    let h := ownHeart s
    onTether (fun t => { t with record := some (s.cycle, heartD0 h, heartD1 h) }) s

/-- What the supervisors need for their blocks. -/
def commitCxOf (s : State) : CommitCx :=
  { cx := ctxOf s, part := s.part, own := ownTerr s, role := ownRole s, ownMasks := s.vote.own.toList,
    heart := match partnerLink s, s.tether.record with
      | some l, some q => some (l, q.2.1, q.2.2)
      | _, _ => none }

/-! ## Migration (14 R424, R425) -/

/-- Cells of a logical cluster of a region. -/
def clusterCells (r l : Nat) : List Nat := numsFrom (256 * r + 16 * l) 16

/-- No re-join of the region is due or in progress in any die (01 R40). -/
def rejoinFree (s : State) (r : Nat) : Bool :=
  allDies.all (fun d => decide ((copyOf s.vote d r).rejoin = .none) && !rejoinDue s d r)

/-- MIGRATION_COPY of one region after a COMMIT: the 16 records are copied and every CHECK verified; a bad one excludes the copy and
slice 0 of the same spare is run again. -/
def migrationCopy (d : Die) (s : State) (r : Nat) : State :=
  let x := dieOf s d
  if !rejoinFree s r then s
  else
    let g := reg x r
    let ok := match logicalOf g ((g.spare + 1) % 17) with
      | some l => (clusterCells r l).all (fun n => decide ((getCell x n).checkErr = 0))
      | none => true
    let due := x.migrateDue.filter (· ≠ r)
    if ok then onDie d (fun x => { x with migrateDue := due, migrateCopied := x.migrateCopied ++ [r] }) s
    else
      let step := getA 0 x.sliceStep r
      excludeCopy d r .slice (onDie d (fun x =>
        { x with migrateDue := due, sliceStep := putA 0 r ((step + 136) % 144 / 8 * 8) x.sliceStep }) s)

/-- Every migration that is due in a die. -/
def migrationCopies (d : Die) (s : State) : State := (dieOf s d).migrateDue.foldl (migrationCopy d) s

/-! ## Loading of an online change (15 R441) -/

/-- A load pass is due in a die. -/
def loadPending (d : Die) (s : State) : Bool := decide (s.change.phase = .loading) && !triGet s.change.loaded d

/-- LOAD_PASS: the new sections stand in the inactive banks with their CHECKs. -/
def loadPass (d : Die) (s : State) : State :=
  let p := s.change.image
  let cx := ctxOf s
  onDie d (fun x => loadCode (!x.active) p (loadTables cx (!x.active) p x))
    { s with change := { s.change with loaded := triMod s.change.loaded d (fun _ => true) } }

/-- Route memory, proxy store, profiles and code of one bank of a die. -/
structure BankSet where
  routes : List (Nat × Word)
  proxies : List (Nat × Word)
  profiles : List (Nat × Profile)
  code : List (List Host.Cell)
  deriving DecidableEq, Repr

/-- What a die's load digest covers: its inactive banks. -/
def inactiveBanks (x : DieSt) : BankSet :=
  let b := !x.active
  let rb := bankNo b * routeBankWords
  let pb := bankNo b * proxyBankWords
  let cb := if b then 0x20000 else 0
  { routes := x.routeMem.filter (fun p => decide (rb ≤ p.1) && decide (p.1 < rb + routeBankWords)),
    proxies := x.proxyMem.filter (fun p => decide (pb ≤ p.1) && decide (p.1 < pb + proxyBankWords)),
    profiles := x.profiles.filter (fun p => decide (8 * bankNo b ≤ p.1) && decide (p.1 < 8 * bankNo b + 8)),
    code := (numsFrom 0 16).map (fun r => (reg x r).mem.filter (fun c => decide (cb ≤ c.1) && decide (c.1 < cb + 0x20000))) }

/-- LOAD_COMPLETE (15 R441, R442): every die has loaded; a failed bank check or digests that differ abort the change, otherwise S is
the later of the earliest cycle asked for and the third cycle from here. -/
def execLoadComplete (bankOk : Bool) (s : State) : Host.Outcome State Fault Refusal :=
  .next (if s.change.phase ≠ .loading || !allDies.all (fun d => triGet s.change.loaded d) then s
         else if !bankOk then abortChange chCHECK s
         else
           let w := inactiveBanks s.dies.a
           if decide (inactiveBanks s.dies.b ≠ w) || decide (inactiveBanks s.dies.c ≠ w) then abortChange chLOADDISAGREE s
           else
             let third := s.cycle + 3
             let at_ := if serialAfter s.change.earliest third then s.change.earliest else third
             { s with change := { s.change with phase := .loaded 0, at_ := at_ } })

/-! ## Transfer passes of the active (12 R366, R367) -/

/-- The partner asks for a state transfer: its newest HEART shows STANDBY and SYNCED 0. -/
def partnerAsks (s : State) : Bool :=
  match s.tether.heart with
  | some h => h.standby && !h.synced && decide (s.tether.missing = 0)
  | none => false

/-- The partner's newest HEART shows SYNCED 1. -/
def partnerSynced (s : State) : Bool :=
  match s.tether.heart with
  | some h => h.standby && h.synced
  | none => false

/-- Blocks that either die has written, ascending. -/
def dirtySet (s : State) : List Nat := ((allDies.flatMap (fun d => dirtyOf (dieOf s d))).eraseDups).mergeSort

/-- The dirty bit of a block is cleared as it is read. -/
def clearDirty (r b : Nat) (x : DieSt) : DieSt :=
  if b < memBlocks then modReg x r (fun g => { g with dirty := g.dirty.filter (fun p => p.1 ≠ b) })
  else { x with dirtyCells := x.dirtyCells.filter (fun p => p.1 ≠ 16 * r + (b - memBlocks)) }

/-- A block as two available copies of its region hold it; none where they differ. -/
def readBlock (s : State) (n : Nat) : Option (List Word) :=
  let r := n / regionBlocks
  let b := n % regionBlocks
  match availDies s.vote r with
  | d :: e :: _ =>
    let ws := blockData (dieOf s d) r b
    if ws = blockData (dieOf s e) r b then some ws else none
  | _ => none

/-- A TRANSFER telegram to the partner. -/
def sendTransfer (ws : List Word) (s : State) : State :=
  match partnerLink s with
  | some n => if linkKeyed s n then onLinks (queueTelD (linkCxOf s) n tyTRANSFER s.cycle ws) s else s
  | none => s

/-- Send the blocks of a list; false where two copies differ, which ends the pass. -/
def sendBlocks (pass : Nat) : List Nat → State → State × Bool
  | [], s => (s, true)
  | n :: l, s =>
    let r := n / regionBlocks
    let b := n % regionBlocks
    match readBlock s n with
    | none => (s, false)
    | some ws =>
      let s1 := sendTransfer (xferHead xkBLOCK r b pass false s.cycle ++ ws.take 128) s
      let s2 := sendTransfer (xferHead xkBLOCK r b pass true s.cycle ++ ws.drop 128) s1
      sendBlocks pass l (onDies (fun _ x => clearDirty r b x) s2)

/-- Entries of a die's route table whose ENTRANCE lies in a region. -/
def regionRoutes (x : DieSt) (r : Nat) : List (Nat × RouteEntry) :=
  x.routes.filter (fun p => isLiveEntry p.2 && decide (entryRegion x p.2 = r))

/-- What a final pass sends beside blocks, as two available copies of every region hold it alike (01 R58, 12 R366): the route table and
INIT of the regions, and the active bank; none where two copies differ. -/
def finalItems (s : State) : Option (DieSt × List Bool) :=
  let pair := fun (r : Nat) => match availDies s.vote r with
    | p :: q :: _ => if regionRoutes (dieOf s p) r = regionRoutes (dieOf s q) r && ((reg (dieOf s p) r).sup.initDone == (reg (dieOf s q) r).sup.initDone) &&
                        ((dieOf s p).active == (dieOf s q).active) then some (dieOf s p) else none
    | _ => none
  let xs := (numsFrom 0 16).filterMap pair
  match xs with
  | x :: _ =>
    if xs.length = 16 then
      some ({ x with routes := (xs.zipIdx.flatMap (fun q => regionRoutes q.1 q.2)).foldl (fun m p => putA routeIdle p.1 p.2 m) [] },
        xs.zipIdx.map (fun q => (reg q.1 q.2).sup.initDone))
    else none
  | [] => none

/-- ROUTES, MODULE and END of a final pass. -/
def sendFinal (pass : Nat) (x : DieSt) (inits : List Bool) (s : State) : State :=
  let parts := chunks 125 64 (routesData x)
  let s1 := (if parts.isEmpty then [[]] else parts).zipIdx.foldl (fun s q => sendTransfer (xferHead xkROUTES 0 q.2 pass false s.cycle ++ q.1) s) s
  let m : XferModule := { cycle := s.cycle, active := x.active, forces := s.forces, initDone := inits }
  let s2 := sendTransfer (xferHead xkMODULE 0 0 pass false s.cycle ++ xferModuleWords m) s1
  sendTransfer (xferHead xkEND 0 0 pass false s.cycle) s2

def setSend (q : XferSend) (s : State) : State := onTether (fun t => { t with send := q }) s

/-- A final pass after a COMMIT (12 R367). -/
def finalPass (pass cycles : Nat) (s : State) : State :=
  let q := sendBlocks pass (dirtySet s) s
  match q.2, finalItems q.1 with
  | true, some f => setSend (.finalSent pass cycles) (sendFinal pass f.1 f.2 q.1)
  | _, _ => setSend (.passing pass cycles []) q.1

/-- One window of a pass that is not final. -/
def passWindow (pass cycles window : Nat) (next : List Nat) (s : State) : State :=
  let q := sendBlocks pass (next.take window) s
  let all := numsFrom 0 (16 * regionBlocks)
  setSend (.passing pass cycles (if q.2 then next.drop window else if pass = 0 then all else dirtySet q.1)) q.1

/-- A transfer is abandoned, with its tail record. -/
def abandonSend (s : State) : State := logOpen cdTRANSFER unBRIDLE 0 2 0 (setSend (.finished 40) s)

/-- TRANSFER_PASS after the COMMIT of the last running die: the state, and whether the pass takes the idle window. -/
def transferPass (ci : CommitIn) (s : State) : State × Bool :=
  let all := numsFrom 0 (16 * regionBlocks)
  if s.mode ≠ .active then (s, false)
  else
    match s.tether.send with
    | .idle =>
      if partnerAsks s then
        let s1 := logOpen cdTRANSFER unBRIDLE 0 0 0 (onTether (fun t => { t with synced := false, send := .passing 0 0 all }) s)
        if ci.room then (passWindow 0 0 ci.window all s1, true) else (s1, false)
      else (s, false)
    | .passing p c next =>
      if 40 < c then (abandonSend s, false)
      else
        let dirty := dirtySet s
        if next ≠ [] then (if ci.room then (passWindow p c ci.window next s, true) else (s, false))
        else if dirty.length ≤ 192 then (finalPass (p + 1) c s, false)
        else if ci.room then (passWindow (p + 1) c ci.window dirty s, true)
        else (s, false)
    | .finalSent p c =>
      if partnerSynced s then
        (logOpen cdTRANSFER unBRIDLE 0 1 0 (onTether (fun t => { t with synced := true, send := .idle }) s), false)
      else if 40 < c then (abandonSend s, false)
      else if (spoolTxD s.links .t).items.isEmpty then (s, false)
      else (finalPass (p + 1) c s, false)
    | .finished c => if 140 ≤ c || 3 ≤ s.tether.missing then (setSend .idle s, false) else (s, false)

/-! ## Self-test slices (14 R422, R425) -/

/-- A region can take a slice of the round-robin. -/
def sliceTakes (x : DieSt) (r : Nat) : Bool :=
  let g := reg x r
  !g.halted && !g.haltCycle && decide (getA 0 x.sliceFail r = 0) && !x.migrateDue.contains r && !x.migrateCopied.contains r

/-- The slice that a die starts: the repeat of a failed one first, then the round-robin from the pointer. -/
def nextSlice (x : DieSt) : Option SliceRun :=
  match (numsFrom 0 16).find? (fun r => decide (getA 0 x.sliceFail r = 1)) with
  | some r => some { region := r, step := getA 0 x.sliceStep r, again := true }
  | none =>
    match ((numsFrom 0 16).map (fun k => (x.slicePtr + k) % 16)).find? (sliceTakes x) with
    | some r => some { region := r, step := getA 0 x.sliceStep r, again := false }
    | none => none

/-- SELF_TEST_SLICE: the die starts its fast clock again for the slice. -/
def startSlice (x : DieSt) : DieSt :=
  match nextSlice x with
  | some q => { x with sliceRun := some q, fastClock := true }
  | none => x

/-- A re-join pass runs in this cycle: it replaces the slice in the donors and in the receiver. -/
def rejoinPassing (s : State) : Bool :=
  allCopies.any (fun q => match (copyOf s.vote q.1 q.2).rejoin with
    | .passing _ => true
    | _ => false)

/-- What a die does in its idle window. `taken`: a transfer pass has it. -/
def idleWindow (d : Die) (room taken : Bool) (s : State) : State :=
  if !room then s
  else if loadPending d s then loadPass d s
  else if taken || rejoinPassing s then s
  else onDie d startSlice s

/-! ## COMMIT -/

/-- Errors that the digest meets in region memory (01 R37): a region with an uncorrectable one sends no block. -/
def commitEcc (d : Die) (ci : CommitIn) (s : State) : State :=
  let live := fun (s : State) (q : Nat × Nat) => decide (q.1 < 16) && !(reg (dieOf s d) q.1).halted
  let s1 := ci.corrected.foldl (fun s q => if live s q then eccEvent d q.1 q.2 .corrected s else s) s
  ci.uncorrectable.foldl (fun s q => if live s q then eccEvent d q.1 q.2 .uncorrectable s else s) s1

/-- Every die that runs has committed. -/
def allCommitted (s : State) : Bool := allDies.all (fun d => !(dieOf s d).runsPhases || decide ((dieOf s d).phase = phIDLE))

/-- A die may COMMIT: RULES_OUT stands and every region has finished. -/
def commitReady (x : DieSt) : Bool := decide (x.phase = phRULESOUT) && regionsDone x

/-- COMMIT of a die and what follows it in its window. -/
def commitRow (d : Die) (ci : CommitIn) (s0 : State) : State :=
  let s1 := fixHeart (commitEcc d ci s0)
  let c := commitCxOf s1
  let s2 := takeDieLogs d (onDie d (fun x => let y := commitDie c x; { y with evSpool := spRelease true y.evSpool }) s1)
  let s3 := migrationCopies d (pmcReadDie d s2)
  let q := if allCommitted s3 then transferPass ci s3 else (s3, false)
  let passing := match s3.tether.send with
    | .passing _ _ _ => decide (s3.mode = .active)
    | _ => false
  idleWindow d ci.room (q.2 || passing) q.1

/-- COMMIT (06 R203). -/
def execCommit (d : Die) (ci : CommitIn) (s : State) : Host.Outcome State Fault Refusal :=
  .next (if commitReady (dieOf s d) then commitRow d ci s else s)

/-- A slice passes: the step advances, the pointer moves on, the last slice of a spare makes its migration due. -/
def slicePasses (d : Die) (q : SliceRun) (s : State) : State :=
  let s1 := onDie d (fun x =>
    { x with sliceStep := putA 0 q.region ((q.step + 1) % 144) x.sliceStep, slicePtr := (q.region + 1) % 16,
             slicePassed := x.slicePassed + 1, sliceFail := if q.again then putA 0 q.region 0 x.sliceFail else x.sliceFail,
             migrateDue := if q.step < 136 && q.step % 8 = 7 then x.migrateDue ++ [q.region] else x.migrateDue }) s
  let s2 := { s1 with rotations := triMod s1.rotations d (fun _ => (dieOf s1 d).slicePassed / 2304) }
  if q.again then onVote (modCopy d q.region (fun c => { c with sliceAgain := true })) s2 else s2

/-- SLICE_FAIL (14 R425): the copy is excluded; a pair slice halts its region (01 R39); a second failure bars the copy. -/
def sliceFails (d : Die) (q : SliceRun) (s : State) : State :=
  let s1 := onDie d (fun x => { x with sliceFail := putA 0 q.region (if q.again then 2 else 1) x.sliceFail }) s
  let s2 := excludeCopy d q.region .slice s1
  let s3 := onVote (modCopy d q.region (fun c => { c with excluded := some .slice, rejoin := .none, sliceAgain := false,
                                                          barred := c.barred || q.again })) s2
  let s4 := if 136 ≤ q.step then haltRegion d q.region s3 else s3
  logOpen cdSLICEFAIL (strapIdent (dieOf s d)) q.region q.step (BitVec.ofNat 64 q.step) s4

/-- SLICE_COMPLETE (14 R418, R423): the die's and the bridle's judgement of the MISR must both pass. -/
def execSliceComplete (d : Die) (dieMatch bridleMatch : Bool) (s : State) : Host.Outcome State Fault Refusal :=
  .next (match (dieOf s d).sliceRun with
         | none => s
         | some q =>
           let s1 := onDie d (fun x =>
             idleClock { x with sliceRun := none }) s
           if dieMatch && bridleMatch then slicePasses d q s1 else sliceFails d q s1)

/-! ## Re-join passes (06 R218, R219) -/

/-- The two donors of a copy: the other dies, where both are available and have committed. -/
def donorsOf (s : State) (d : Die) (r : Nat) : Option (Die × Die) :=
  match allDies.filter (fun o => decide (o ≠ d)) with
  | [p, q] =>
    let good := fun (o : Die) => isAvail s.vote o r && (dieOf s o).runsPhases && decide ((dieOf s o).phase = phIDLE)
    if good p && good q then some (p, q) else none
  | _ => none

/-- Retained memory of a region as the transfer carries it: every listed byte from 0x40000 to 0x6F3FF. -/
def retainedMem (m : List Host.Cell) : List Host.Cell := m.filter (fun c => decide (memDATA ≤ c.1) && decide (c.1 < memSCRATCH))

/-- The items of Table 6.6 of a region. -/
def rejoinItems (x : DieSt) (r : Nat) : List Host.Cell × SupData × List CellRec × List (Nat × RouteEntry) :=
  (retainedMem (reg x r).mem, (reg x r).sup, (numsFrom (256 * r) 256).map (fun n => { getCell x n with cleanOnce := false }),
    regionRoutes x r)

/-- Blocks whose bytes differ between two retained memories become dirty (12 R366); with `sup`, those of the supervisor area too. -/
def dirtyBlocks (m n : List Host.Cell) (sup : Bool) (d : List (Nat × Bool)) : List (Nat × Bool) :=
  (numsFrom 0 memBlocks).foldl (fun d b =>
    let part := fun (m : List Host.Cell) => m.filter (fun c => decide ((c.1 - memDATA) / 1024 = b))
    if part m = part n && !(sup && decide (184 ≤ b) && decide (b < 188)) then d else putA false b true d) d

/-- Put them into the receiving die: CHECKs are recomputed, the region's other entries become IDLE, directories are rebuilt. -/
def putRejoin (cx : Ctx) (r : Nat) (from_ x : DieSt) : DieSt :=
  let y := modReg x r (fun g =>
    { g with mem := g.mem.filter (fun c => decide (c.1 < memDATA)) ++ retainedMem (reg from_ r).mem ++
               g.mem.filter (fun c => decide (memSCRATCH ≤ c.1)), sup := (reg from_ r).sup,
             dirty := dirtyBlocks (retainedMem g.mem) (retainedMem (reg from_ r).mem) (decide (g.sup ≠ (reg from_ r).sup)) g.dirty })
  let y1 := (numsFrom (256 * r) 256).foldl (fun y n => setCell y n { getCell from_ n with checkErr := 0 }) y
  let old := (regionRoutes x r).map (·.1)
  let y2 := old.foldl (fun y i => unlistRoute i (setWork (setRoute y i routeIdle) i workNone)) y1
  let new_ := regionRoutes from_ r
  let y3 := new_.foldl (fun y p => listRoute cx p.1 (setRoute y p.1 p.2)) y2
  let fresh := rebuildWork cx y3
  new_.foldl (fun y p => setWork y p.1 (getWork fresh p.1)) y3

/-- REJOIN_PASS_COMPLETE (06 R219): what the two donors agree on replaces the copy's state; a difference abandons the attempt. A pass runs in
place of the slices of its dies and only where their window has the room of 04 R149. -/
def execRejoinPassComplete (d : Die) (r : Nat) (room : Bool) (s : State) : Host.Outcome State Fault Refusal :=
  .next (match (copyOf s.vote d r).rejoin, donorsOf s d r with
         | .passing _, some (p, q) =>
           if 16 ≤ r || !room || decide ((dieOf s d).phase ≠ phIDLE) || allDies.any (fun o => (dieOf s o).sliceRun.isSome) then s
           else
             if rejoinItems (dieOf s p) r ≠ rejoinItems (dieOf s q) r then abandonRejoin d r s
             else onVote (modCopy d r (fun c => { c with rejoin := .complete })) (onDie d (putRejoin (ctxOf s) r (dieOf s p)) s)
         | _, _ => s)

/-- REJOIN_LIMIT (06 R219): no pass is complete within 12 cycles; the window of the twelfth is over. -/
def execRejoinLimit (d : Die) (r : Nat) (s : State) : Host.Outcome State Fault Refusal :=
  .next (match (copyOf s.vote d r).rejoin with
         | .passing n => if 11 ≤ n then abandonRejoin d r s else s
         | _ => s)

end Sys2Proof.Machine
end

