-- ==== Sys2Proof/Machine/LinkRows.lean ====
section
/-!
DEFINITION. The commands of the link ports and links: ports and ARP (09 R287, R288), telegrams of every type (09 R294, R305), the state
transfer as its receiver takes it (12 R366, R367), link states (09 R307) and the spools of the links (10).
-/

namespace Sys2Proof.Machine

/-! ## Ports and ARP -/

/-- PHYs and MACs are powered and not held in reset (13 Table 13.8). -/
def portsPowered (s : State) : Bool := domainOn s 11

/-- The port is up. -/
def portIsUp (s : State) (p : Port) : Bool := linksRun s && getA false s.links.up (portIndex p)

/-- Address that the frames of a link on a port are sent to: the peer in the subnet, else the router; none without one. -/
def nextHop (s : State) (p : Port) (n : Nat) : Option Word :=
  let q := partPort s.part p
  let e := linkOf s.part n
  let ip := if p = .b then e.peerIpB else e.peerIp
  if ip &&& q.mask = q.ip &&& q.mask then some ip else if q.router = 0 then none else some q.router

/-- PORT_UP (09 R287): 1000 Mb/s full duplex comes up and resolves its peers; anything else is held down. The PHYs negotiate from step 1 of a
start on (14 R409), and a port that the STATION part leaves unused is powered down with its load. -/
def execPortUp (p : Port) (phy : PhyMode) (s : State) : Host.Outcome State Fault Refusal :=
  .next (if !portsPowered s || (s.loaded && !portUsed s p) then s
         else if phy.gigabitFull then
           askPeers p (linkClock (onLinks (fun x => { x with up := putA false (portIndex p) true x.up }) s))
         else linkClock (onLinks (fun x => { x with up := putA false (portIndex p) false x.up }) s))

/-- PORT_DOWN (09 R287). -/
def execPortDown (p : Port) (s : State) : Host.Outcome State Fault Refusal :=
  .next (linkClock (onLinks (fun x => { x with up := putA false (portIndex p) false x.up }) s))

/-- FRAME_NOT_AFNO (09 R288): a frame that the port does not support is counted under FRAME. -/
def execFrameNotAfno (p : Port) (f : Frame) (s : State) : Host.Outcome State Fault Refusal :=
  .next (if portIsUp s p && !frameOk s.part p f then onLinks (countPort p dcFRAME) s else s)

/-- ARP_REQUEST (09 R288): a request for the port's own address is answered. -/
def execArpRequest (p : Port) (ip : Word) (s : State) : Host.Outcome State Fault Refusal :=
  .next (if portIsUp s p && portUsed s p && decide (ip = (partPort s.part p).ip) then
           onLinks (fun x => { x with answered := x.answered + 1 }) s else s)

/-- ARP_REPLY (09 R288): the peers whose next hop it names are resolved. -/
def execArpReply (p : Port) (ip : Word) (s : State) : Host.Outcome State Fault Refusal :=
  .next (if portIsUp s p then
           ((linksOn s p).filter (fun n => decide (nextHop s p n = some ip))).foldl (fun s n =>
             onLinks (fun x => { x with resolved := putA false (4 * n + portIndex p) true x.resolved,
                                        asked := putA false (4 * n + portIndex p) false x.asked }) s) s
         else s)

/-- 60 s since the peers of a port were last asked for. -/
def arpDue (s : State) (p : Port) : Bool := decide (getA 0 s.links.arpAt (portIndex p) + 60000 ≤ s.ao.ms + 1)

/-- ARP_REFRESH (09 R288): every 60 s each peer address of a port is asked for again. -/
def execArpRefresh (p : Port) (s : State) : Host.Outcome State Fault Refusal :=
  .next (if portIsUp s p && arpDue s p then askPeers p s else s)

/-! ## Telegrams -/

/-- The tests of R305 on a telegram of a port that is up: the state, and the link where it was accepted. -/
def receive (p : Port) (t : Tel) (s : State) : State × Option Nat :=
  let r := receiveTel (linkCxOf s) p t s.links
  (logAll r.2.1 { s with links := r.1 }, r.2.2)

/-- What the acceptance of any class S telegram tells: the partner's SAFE bit (12 R359), and the cycle number of the own station
system in WAKE (14 R413). -/
def noteAccepted (n : Nat) (t : Tel) (s : State) : State :=
  let s1 := if partnerLink s = some n then onTether (fun q => { q with partnerSafe := some (telSafe t) }) s else s
  if decide (s1.mode = .wake) && decide ((linkOf s1.part n).peer.extractLsb' 6 12 = stationNo s1) then
    let k := t.h6 + 2
    { s1 with alignTo := match s1.alignTo with
        | some a => some (if serialAfter k a then k else a)
        | none => some k }
  else s1

/-- A class S telegram of a type. -/
def classSRow (ty : Nat) (p : Port) (t : Tel) (act : Nat → State → State) (s : State) : State :=
  if !portIsUp s p || decide (telType t ≠ ty) then s
  else
    let r := receive p t s
    match r.2 with
    | some n => act n (noteAccepted n t r.1)
    | none => r.1

/-- IDLE_TELEGRAM (09 R302, R305; 12 R359). -/
def execIdleTelegram (p : Port) (t : Tel) (s : State) : Host.Outcome State Fault Refusal :=
  .next (classSRow tyIDLE p t (fun n s => if partnerLink s = some n then onTether (fun q => { q with idleSeen := true }) s else s) s)

/-- APP_TELEGRAM (09 R305). -/
def execAppTelegram (p : Port) (t : Tel) (s : State) : Host.Outcome State Fault Refusal :=
  .next (classSRow tyAPP p t (fun _ s => s) s)

/-- CELLS_TELEGRAM (11 R334): taken at SAMPLE. -/
def execCellsTelegram (p : Port) (t : Tel) (s : State) : Host.Outcome State Fault Refusal :=
  .next (classSRow tyCELLS p t (fun _ s => s) s)

/-- TERR_TELEGRAM (11 R339): taken at SAMPLE. -/
def execTerrTelegram (p : Port) (t : Tel) (s : State) : Host.Outcome State Fault Refusal :=
  .next (classSRow tyTERR p t (fun _ s => s) s)

/-- FIELD_TELEGRAM (11 R348): taken at SAMPLE. -/
def execFieldTelegram (p : Port) (t : Tel) (s : State) : Host.Outcome State Fault Refusal :=
  .next (classSRow tyFIELD p t (fun _ s => s) s)

/-- A HEART of the partner: the newest counts, and an active takes a request to yield (12 R362, R371). -/
def heartTaken (t : Tel) (n : Nat) (s : State) : State :=
  if partnerLink s ≠ some n || t.payload.length ≠ 37 then s
  else
    let h := heartOf t.h6 t.payload
    onTether (fun q =>
      let q1 := takeHeart h q
      { q1 with yieldDue := q1.yieldDue || (decide (s.mode = .active) && h.yieldReq && h.healthy && h.synced) }) s

/-- HEART_TELEGRAM (12 R361, R362, R371). -/
def execHeartTelegram (p : Port) (t : Tel) (s : State) : Host.Outcome State Fault Refusal :=
  .next (classSRow tyHEART p t (heartTaken t) s)

/-- A class D telegram of a type that meets a condition. -/
def classDRow (ok : Tel → Bool) (p : Port) (t : Tel) (act : Nat → State → State) (s : State) : State :=
  if !portIsUp s p || !ok t then s
  else
    let r := receive p t s
    match r.2 with
    | some n => act n r.1
    | none => r.1

/-- A TIME value: with VALID, the target of the time base is UTC + age / 2, and RX.UTC shows it from the next SAMPLE on. -/
def timeTaken (t : Tel) (s : State) : State :=
  if t.payload.length ≠ 4 || !bitOf (t.payload.getD 2 0) 1 then s
  else
    let utc : BitVec 48 := (t.payload.getD 0 0).extractLsb' 0 16 ++ t.payload.getD 1 0
    let age := (telAge s.ao.ms t).getD 0
    let s1 := onLinks (fun x => { x with utcNew := utc.setWidth 64 }) s
    onTail (timeTarget (stampOf s1) (utc + BitVec.ofNat 48 (500 * age))) s1

/-- TIME_TELEGRAM (09 R309, 18 R488). -/
def execTimeTelegram (p : Port) (t : Tel) (s : State) : Host.Outcome State Fault Refusal :=
  .next (classDRow (fun t => decide (telType t = tyTIME)) p t (fun _ s => timeTaken t s) s)

/-- FUNC of a DIAG payload. -/
def diagFunc (t : Tel) : Nat := ((t.payload.getD 0 0).extractLsb' 24 8).toNat

/-- A setup of the counters (19 R501): refused and counted, or kept for the next cycle start. -/
def setupTaken (t : Tel) (s : State) : State :=
  if pmcSetupOk t.payload then { s with pmcSetup := some t.payload } else countFault bfPmcSetup s

/-- DIAG_TELEGRAM (09 R294): core pair 0 takes it; the only function with an effect is PMC_SETUP. -/
def execDiagTelegram (p : Port) (t : Tel) (s : State) : Host.Outcome State Fault Refusal :=
  .next (classDRow (fun t => decide (telType t = tyDIAG)) p t (fun _ s => if diagFunc t = 0x40 then setupTaken t s else s) s)

/-- PMC_SETUP (19 R501). -/
def execPmcSetup (p : Port) (t : Tel) (s : State) : Host.Outcome State Fault Refusal :=
  .next (classDRow (fun t => decide (telType t = tyDIAG) && decide (diagFunc t = 0x40)) p t (fun _ s => setupTaken t s) s)

/-- TELEGRAM_TYPE_UNDEFINED (09 R294, R305): discarded with cause TYPE, unless an earlier test discards it. -/
def execTelegramTypeUndefined (p : Port) (t : Tel) (s : State) : Host.Outcome State Fault Refusal :=
  .next (classDRow (fun t => !isClassS (telType t) && !isClassD (telType t)) p t (fun _ s => s) s)

/-! ## The receiver of a transfer (12 R366, R367) -/

/-- KIND, REGION, BLOCK and HALF of X0. -/
def xferKind (t : Tel) : BitVec 4 := (t.payload.getD 0 0).extractLsb' 28 4
def xferRegion (t : Tel) : Nat := ((t.payload.getD 0 0).extractLsb' 24 4).toNat
def xferBlock (t : Tel) : Nat := ((t.payload.getD 0 0).extractLsb' 16 8).toNat
def xferHalfBit (t : Tel) : Bool := bitOf (t.payload.getD 0 0) 7

/-- Every region is halted at the first pass; those that ran are held by the transfer alone. The watchdog, whose heartbeats stop, is
disarmed up to the first heartbeat after the restart. -/
def holdRegions (s : State) : State :=
  let held := triMap s.dies (fun d x => (numsFrom 0 16).foldl (fun (v : BitVec 16) r =>
    if (reg x r).halted then v else setBitOf v r true) (triGet s.tether.held d))
  let s1 := onDies (fun _ x => mapRegs x (fun _ g => { g with halted := true, task := 0, revert := false })) s
  onTether (fun t => { t with held := held, recv := .receiving 0, gotRoutes := false, gotModule := none, gotEnd := false })
    (onAo (fun a => { a with wdArmed := false }) s1)

/-- A transfer asked for begins with its first pass. -/
def beginReceive (s : State) : State :=
  if s.tether.recv = .asked then logOpen cdTRANSFER unBRIDLE 0 0 0 (holdRegions s) else s

/-- The receiver takes a pass. -/
def isReceiving (s : State) : Bool :=
  match s.tether.recv with
  | .receiving _ => true
  | _ => false

/-- A TRANSFER telegram of a kind from the partner, where the module is a receiver. -/
def transferRow (ok : BitVec 4 → Bool) (p : Port) (t : Tel) (act : State → State) (s : State) : State :=
  classDRow (fun t => decide (telType t = tyTRANSFER) && ok (xferKind t)) p t (fun n s =>
    if partnerLink s = some n && decide (s.mode = .standby) then
      let s1 := beginReceive s
      if isReceiving s1 then act s1 else s1
    else s) s

/-- TRANSFER_BLOCK: half a block enters all three dies, each in its own encoding, with every CHECK recomputed. -/
def execTransferBlock (p : Port) (t : Tel) (s : State) : Host.Outcome State Fault Refusal :=
  .next (transferRow (fun k => decide (k = xkBLOCK)) p t (fun s =>
    if xferBlock t < regionBlocks && t.payload.length = 132 then
      onDies (fun _ x => putBlockHalf (xferRegion t) (xferBlock t) (xferHalfBit t) (t.payload.drop 4) x) s
    else s) s)

/-- TRANSFER_ROUTES: the first part replaces the route table. -/
def execTransferRoutes (p : Port) (t : Tel) (s : State) : Host.Outcome State Fault Refusal :=
  .next (transferRow (fun k => decide (k = xkROUTES)) p t (fun s =>
    let s1 := onDies (fun _ x =>
      putRoutes 200 (t.payload.drop 4) (if xferBlock t = 0 then { x with routes := [], work := [] } else x)) s
    onTether (fun q => { q with gotRoutes := true }) s1) s)

/-- TRANSFER_MODULE. -/
def execTransferModule (p : Port) (t : Tel) (s : State) : Host.Outcome State Fault Refusal :=
  .next (transferRow (fun k => decide (k = xkMODULE)) p t (fun s =>
    onTether (fun q => { q with gotModule := some (xferModuleOf (t.payload.drop 4)) }) s) s)

/-- TRANSFER_END: the final pass is complete at the receiver; the next boundary restarts it. -/
def execTransferEnd (p : Port) (t : Tel) (s : State) : Host.Outcome State Fault Refusal :=
  .next (transferRow (fun k => decide (k = xkEND)) p t (fun s => onTether (fun q => { q with gotEnd := true }) s) s)

/-- TRANSFER_KIND_INVALID: discarded, counted, and the pass ends. -/
def execTransferKindInvalid (p : Port) (t : Tel) (s : State) : Host.Outcome State Fault Refusal :=
  .next (classDRow (fun t => decide (telType t = tyTRANSFER) && !([xkBLOCK, xkROUTES, xkMODULE, xkEND].contains (xferKind t))) p t
    (fun _ s => countFault bfTransfer (onTether (fun q => { q with gotRoutes := false, gotModule := none, gotEnd := false }) s)) s)

/-- TRANSFER_LIMIT (12 R367): not complete within 40 cycles of its first pass; the receiver stays halted. -/
def execTransferLimit (s : State) : Host.Outcome State Fault Refusal :=
  .next (match s.tether.recv with
         | .receiving _ => transferLimits s
         | _ => s)

/-- TRANSFER_RETRY (12 R367): 100 cycles later a new transfer is asked for. -/
def execTransferRetry (s : State) : Host.Outcome State Fault Refusal :=
  .next (match s.tether.recv with
         | .retry _ => transferLimits s
         | _ => s)

/-! ## Link states (09 R307) -/

/-- LINK_LOST: no class S acceptance for T_loss. -/
def execLinkLost (n : Nat) (s : State) : Host.Outcome State Fault Refusal :=
  let l := linkSt s.links n
  let loss := effTLoss s.part (linkOf s.part n)
  let due := (decide (l.state = .up) && decide (l.acceptS + loss < s.ao.ms)) || (decide (l.state = .down) && decide (loss < sinceFirst s))
  .next (if linksRun s && (linkOf s.part n).valid && due then
           linkLost n (onLinks (putLinkSt n { l with state := .lost, echo := none, accRun := 0 }) s)
         else s)

/-- LINK_UP: acceptances in 4 consecutive cycles. -/
def execLinkUp (n : Nat) (s : State) : Host.Outcome State Fault Refusal :=
  let l := linkSt s.links n
  .next (if linksRun s && (linkOf s.part n).valid && decide (l.state = .lost) && decide (4 ≤ l.accRun + (if l.accNow then 1 else 0)) then
           onLinks (putLinkSt n { l with state := .up }) s
         else s)

/-- NET_DOWN: a network has delivered no copy for T_loss while the other delivers. -/
def execNetDown (n : Nat) (s : State) : Host.Outcome State Fault Refusal :=
  let l := linkSt s.links n
  let l1 := netStep s.part s.ao.ms n l
  .next (if linksRun s && (linkOf s.part n).valid && ((l1.netDownA && !l.netDownA) || (l1.netDownB && !l.netDownB)) then
           logOpen cdNETDOWN unBRIDLE (if l1.netDownA then 1 else 2) n (BitVec.ofNat 64 n) (onLinks (putLinkSt n l1) s)
         else s)

/-- CYCLE_APART_RECORD (11 R333): once per hour, one record for each module that lies apart. -/
def execCycleApartRecord (s : State) : Host.Outcome State Fault Refusal := .next (if linksRun s then apartRecord s else s)

/-! ## Frames and spools (09 R304; 10) -/

/-- A class S telegram with credit waits on a port. -/
def creditWaits (x : LinksSt) (p : Port) : Bool := (spoolTxS x p).items.any (hasCredit x)

/-- The class S telegram that a port sends next: the head of its spool, with credit (09 R303, 10 R313; log entry 64). -/
def nextTxS (x : LinksSt) (p : Port) : Option LinkTel := (spoolTxS x p).items.head?.filter (hasCredit x)

/-- The class D telegram that a port sends next: only when no class S telegram with credit waits (09 R304). -/
def nextTxD (x : LinksSt) (p : Port) : Option LinkTel := if creditWaits x p then none else (spoolTxD x p).items.head?

/-- FRAME_TRANSMITTED: the telegram leaves through the check unit of the MAC, its slot is freed, and a stalled write enters. -/
def execFrameTransmitted (p : Port) (s : State) : Host.Outcome State Fault Refusal :=
  .next (if !portIsUp s p then s
         else match nextTxS s.links p, nextTxD s.links p with
           | some t, _ => onLinks (fun x => feedTx p t.tel (putTxS p (spRead false (spoolTxS x p)).2 x)) s
           | none, some t => onLinks (fun x => feedTx p t.tel (putTxD p (acceptTel txDDepth txDWm (spRead false (spoolTxD x p)).2) x)) s
           | none, none => s)

/-- Change the spool that a command names; `fp` is told the depth and the watermark of a packet spool. -/
def onSpool (sp : SpoolId) (fe : Spool EventItem → Spool EventItem) (fp : Nat → Nat → Spool LinkTel → Spool LinkTel)
    (fs : Spool StageRec → Spool StageRec) (fo : Spool Token → Spool Token) (s : State) : State :=
  match sp with
  | .event d => onDie d (fun x => { x with evSpool := fe x.evSpool }) s
  | .txS p => onLinks (fun x => putTxS p (fp txSDepth txSWm (spoolTxS x p)) x) s
  | .txD p => onLinks (fun x => putTxD p (fp txDDepth txDWm (spoolTxD x p)) x) s
  | .rxS p => onLinks (fun x => putRxS p (fp rxSDepth rxSWm (spoolRxS x p)) x) s
  | .staging => onTail (fun t => { t with staging := fs t.staging }) s
  | .outbox d n => onDie d (fun x => putOutbox n (fo (outboxOf x n)) x) s

/-- SP.STATUS of a spool as its registers present it (10 R324). -/
def spoolStatus (sp : SpoolId) (s : State) : Word :=
  match sp with
  | .event d => spStatus evDepth evWm (dieOf s d).evSpool
  | .txS p => spStatus txSDepth txSWm (spoolTxS s.links p)
  | .txD p => spStatus txDDepth txDWm (spoolTxD s.links p)
  | .rxS p => spStatus rxSDepth rxSWm (spoolRxS s.links p)
  | .staging => spStatus stagingDepth stagingWm s.tail.staging
  | .outbox d n => spStatus outboxDepth outboxWm (outboxOf (dieOf s d) n)

/-- The host of a spool runs. -/
def spoolRuns (sp : SpoolId) (s : State) : Bool :=
  match sp with
  | .event _ => bridleRuns s && !s.coresOff
  | .outbox _ n => bridleRuns s && !s.coresOff && decide (n < 4096)
  | .staging => bridleRuns s
  | _ => linksRun s

/-- STALLED_WRITE_ACCEPTED (10 R318). -/
def execStalledWriteAccepted (sp : SpoolId) (s : State) : Host.Outcome State Fault Refusal :=
  .next (if spoolRuns sp s then
           onSpool sp (spAccept evDepth evWm) acceptTel (spAccept stagingDepth stagingWm) (spAccept outboxDepth outboxWm) s
         else s)

/-- A write of SP.CTRL (10 Table 10.1b): only the input event spool marks; the tail slot of a packet spool that an ABORT frees takes a
stalled write. -/
def spoolCtrl (sp : SpoolId) (w : Word) : State → State :=
  onSpool sp (spCtrl true w) (fun d k q => acceptTel d k (spCtrl false w q)) (spCtrl false w) (spCtrl false w)

/-- The bits of SP.CTRL. -/
def ctrlMARK : Word := 1
def ctrlREWIND : Word := 2
def ctrlRELEASE : Word := 4
def ctrlABORT : Word := 8

/-- SPOOL_MARK (10 R322); a spool without marking discards and counts it. -/
def execSpoolMark (sp : SpoolId) (s : State) : Host.Outcome State Fault Refusal :=
  .next (if spoolRuns sp s then spoolCtrl sp ctrlMARK s else s)

/-- SPOOL_REWIND (10 R322). -/
def execSpoolRewind (sp : SpoolId) (s : State) : Host.Outcome State Fault Refusal :=
  .next (if spoolRuns sp s then spoolCtrl sp ctrlREWIND s else s)

/-- SPOOL_RELEASE (10 R322). -/
def execSpoolRelease (sp : SpoolId) (s : State) : Host.Outcome State Fault Refusal :=
  .next (if spoolRuns sp s then spoolCtrl sp ctrlRELEASE s else s)

/-- SPOOL_ABORT (10 R316): the open packet of a packet spool. -/
def execSpoolAbort (sp : SpoolId) (s : State) : Host.Outcome State Fault Refusal :=
  .next (if spoolRuns sp s then spoolCtrl sp ctrlABORT s else s)

end Sys2Proof.Machine
end

