-- ==== Sys2Proof/Machine/CheckRows.lean ====
section
/-!
DEFINITION. The registers of the check units that core pairs feed, and of the spools (09 R311, R312; 10 R321).
-/

namespace Sys2Proof.Machine

/-- The core pair that owns an instance (09 R311): core pair 0 the carrier reads, core pair 1 the window records; hardware feeds the
others, whose registers are read only. -/
def unitOwner : CuId → Option CorePair
  | .carrier => some .p0
  | .window => some .p1
  | _ => none

/-- The registers of an instance. -/
def unitOf (u : CuId) (s : State) : CheckUnit :=
  match u with
  | .window => s.unitWin
  | .carrier => s.unitCar
  | .linkTx p => getA checkUnitReset s.links.units (portIndex p)
  | .linkRx p => getA checkUnitReset s.links.units (4 + portIndex p)
  | .lane d k => getA checkUnitReset (dieOf s d).units (laneUnit k)
  | .laneCheck d k => getA checkUnitReset s.vote.units (laneCheckUnit d k)
  | .digest d r => getA checkUnitReset (dieOf s d).units (digestUnit r)
  | .dacc d r => daccUnit (reg (dieOf s d) r)

/-- Change a check unit that core pairs feed. -/
def onUnit (u : CuId) (f : CheckUnit → CheckUnit) (s : State) : State :=
  match u with
  | .window => { s with unitWin := f s.unitWin }
  | .carrier => { s with unitCar := f s.unitCar }
  | _ => s

/-- A write to a register of an instance: another writer's is discarded and counted (09 R312). -/
def unitWrite (u : CuId) (writer : CorePair) (f : CheckUnit → CheckUnit) (s : State) : State :=
  if !bridleRuns s then s
  else if unitOwner u = some writer then onUnit u f s
  else countFault bfCheckUnit s

/-- CHECK_RESTART. -/
def execCheckRestart (u : CuId) (writer : CorePair) (set_ : BitVec 2) (foldLen : BitVec 4) (s : State) : Host.Outcome State Fault Refusal :=
  .next (unitWrite u writer (cuRestart set_ foldLen) s)

/-- CHECK_DATA. -/
def execCheckData (u : CuId) (writer : CorePair) (w : Word) (s : State) : Host.Outcome State Fault Refusal :=
  .next (unitWrite u writer (cuWord w) s)

/-- CHECK_DATA8. -/
def execCheckData8 (u : CuId) (writer : CorePair) (b : Byte) (s : State) : Host.Outcome State Fault Refusal :=
  .next (unitWrite u writer (cuByte b) s)

/-- CHECK_EXPECT. -/
def execCheckExpect (u : CuId) (writer : CorePair) (w : Word) (s : State) : Host.Outcome State Fault Refusal :=
  .next (unitWrite u writer (cuExpect w) s)

/-- CHECK_EXPECT_HI. -/
def execCheckExpectHi (u : CuId) (writer : CorePair) (w : Word) (s : State) : Host.Outcome State Fault Refusal :=
  .next (unitWrite u writer (fun q => { q with expectHi := some w }) s)

/-- CTRL (09 Table 9.12): with RESTART as R312, without it SET and FOLD_LEN alone. -/
def writeCtrl (w : Word) (q : CheckUnit) : CheckUnit :=
  if bitOf w 0 then cuRestart (w.extractLsb' 2 2) (w.extractLsb' 8 4) q
  else { q with set_ := w.extractLsb' 2 2, foldLen := w.extractLsb' 8 4 }

/-- RUN_HI: 0 for the 32-bit sets. -/
def writeRunHi (w : Word) (q : CheckUnit) : CheckUnit :=
  { q with run := (if q.set_ = 2 then w else 0) ++ q.run.extractLsb' 0 32 }

/-- RUN_LO. -/
def writeRunLo (w : Word) (q : CheckUnit) : CheckUnit := { q with run := q.run.extractLsb' 32 32 ++ w }

/-- The status word: ERR and MISMATCH are cleared by writing 1, MATCH is read only. -/
def writeStatus (w : Word) (q : CheckUnit) : CheckUnit :=
  { q with err := q.err && !bitOf w 2, mismatch := q.mismatch && !bitOf w 1 }

/-- Core pair 0 writes into the packet side of a class D TX spool; nobody else is its producer. -/
def packetWrite (p : Port) (writer : CorePair) (f : Spool LinkTel → Spool LinkTel) (s : State) : State :=
  if linksRun s && decide (writer = .p0) then onLinks (fun x => putTxD p (f (spoolTxD x p)) x) s else s

/-- The tail slot of a class D TX spool is taken; at a full spool, or behind a write that waits, its producer is held (10 R318). -/
def openTxD (q : Spool LinkTel) : Spool LinkTel :=
  if q.openPkt.isNone && (spFull txDDepth q || !q.stalled.isEmpty) then q else spOpen txDWm (freeBuf q) q

/-- The effect of a register write. -/
def registerWrite (q : RegWrite) (s : State) : State :=
  match q with
  | .ctrl u b w => unitWrite u b (writeCtrl w) s
  | .foldA u b w => unitWrite u b (fun c => { c with foldA := w }) s
  | .foldB u b w => unitWrite u b (fun c => { c with foldB := w }) s
  | .runHi u b w => unitWrite u b (writeRunHi w) s
  | .runLo u b w => unitWrite u b (writeRunLo w) s
  | .count u b w => unitWrite u b (fun c => { c with count := w }) s
  | .status u b w => unitWrite u b (writeStatus w) s
  | .spoolAck p b w =>
    if spoolRuns p s && decide (b = .p1) then onSpool p (spW1c w) (fun _ _ => spW1c w) (spW1c w) (spW1c w) s else s
  | .spoolCtrl p w => if spoolRuns p s then spoolCtrl p w s else s
  | .packetOpen p b => packetWrite p b openTxD s
  | .packetData p b n => packetWrite p b (spData n) s
  | .packetClose p b len n t => packetWrite p b (fun q => acceptTel txDDepth txDWm (spClose len.toNat (fun k => { len := len, buf := k, link := n, tel := t }) q)) s

/-- REGISTER_WRITE. -/
def execRegisterWrite (q : RegWrite) (s : State) : Host.Outcome State Fault Refusal := .next (registerWrite q s)

end Sys2Proof.Machine
end

