-- ==== Sys2Proof/Machine/FieldRows.lean ====
section
/-!
DEFINITION. The gondola's commands: window ends and checkers of the inputs (07), readback, test steps, locks and field supply groups of
the outputs (08).
-/

namespace Sys2Proof.Machine

/-- The gondola runs: its domain is on and not held in reset (13 Table 13.8). -/
def gondolaRuns (s : State) : Bool := domainOn s 9

/-! ## Inputs -/

/-- Post fall events: one item in the input event spool of every die that is powered (07 R252). -/
def postFalls (ns : List Nat) (s : State) : State :=
  if s.coresOff then s
  else
    ns.foldl (fun s n =>
      let w : Word := s.ins.cycleNo.extractLsb' 0 24 ++ BitVec.ofNat 8 n
      onDies (fun _ x => { x with evSpool := spCredit evDepth evWm w x.evSpool }) s) s

/-- Take what a window end gives. -/
def takeWindow (w : WindowOut) (s : State) : State := logAll w.logs (postFalls w.falls { s with ins := w.st })

/-- Readings of inputs after a change of checkers or faults, with their fall events. -/
def windowFrom (x0 x : InSt) (ns : List Nat) (logs : List LogReq) : WindowOut :=
  let f := foldOut (fun y n => fallStep x0 y n) x ns
  { st := f.1, falls := f.2, logs := logs }

/-- INPUT_WINDOW_END (07 R237, R239, R244, R246, R251, R255). A stopped half sends no cross-link words (08 R262). -/
def execInputWindowEnd (g : Nat) (samples : List InSample) (linkH linkL : Bool) (s : State) : Host.Outcome State Fault Refusal :=
  .next (if !gondolaRuns s || decide (12 ≤ g) then s
         else takeWindow (windowEnd g samples (linkH && !s.outs.stoppedH) (linkL && !s.outs.stoppedL) s.ins) s)

/-- A checker of a pair. -/
def checkerOf (p : PairSt) : Side → Checker
  | .h => p.h
  | .l => p.l
def putChecker (half : Side) (c : Checker) (p : PairSt) : PairSt :=
  match half with
  | .h => { p with h := c }
  | .l => { p with l := c }

/-- A pair's checker takes a state: the readings follow, and records are written where the pair's discrepancy changes. -/
def setChecker (half : Side) (j : Nat) (c : Checker) (s : State) : State :=
  let x := s.ins
  let p := pairSt x j
  let q := putChecker half c p
  let recs := if pairLatched q && !pairLatched p then [inRecord true 5 (2 * j) 5, inRecord true 5 (2 * j + 1) 5]
    else if pairLatched p && !pairLatched q then [inRecord false 5 (2 * j) 5, inRecord false 5 (2 * j + 1) 5] else []
  takeWindow (windowFrom x { x with pairs := putA pairReset j q x.pairs } [2 * j, 2 * j + 1] recs) s

/-- The discrepancy condition of a pair in a half, from its filtered states. -/
def pairCond (x : InSt) (half : Side) (j : Nat) : Bool :=
  discCond (cfgPair (inCfg x (2 * j))) (inHalf (inCell x (2 * j)) half).filt (inHalf (inCell x (2 * j + 1)) half).filt

/-- DISCREPANCY_LATCHED (07 R246): TIMING reaches D_w in the discrepancy condition. -/
def execDiscrepancyLatched (half : Side) (pair : Nat) (s : State) : Host.Outcome State Fault Refusal :=
  .next (match checkerOf (pairSt s.ins pair) half with
         | .timing n =>
           if gondolaRuns s && pair < 96 && pairCond s.ins half pair && discWindows s.ins pair ≤ n + 1 then
             setChecker half pair (.latched 0) s
           else s
         | _ => s)

/-- DISCREPANCY_CLEARED (07 R246): the raw samples show the safe state for the C_w-th window in a row. -/
def execDiscrepancyCleared (half : Side) (pair : Nat) (rawEven rawOdd : Bool) (s : State) : Host.Outcome State Fault Refusal :=
  let w := inCfg s.ins (2 * pair)
  .next (match checkerOf (pairSt s.ins pair) half with
         | .latched n =>
           if gondolaRuns s && pair < 96 && decide (cfgPair w ≠ 0) && safeSamples (cfgPair w) (cfgAntiSafe w) rawEven rawOdd &&
               clearWindows s.ins pair ≤ n + 1 then setChecker half pair .quiet s
           else s
         | _ => s)

/-- INPUT_FAULT_CLEAR (07 R244): the 16th clean window in a row. -/
def execInputFaultClear (n : Nat) (linkH linkL : Bool) (s : State) : Host.Outcome State Fault Refusal :=
  let x := s.ins
  let c := inCell x n
  let apart := match pairOf x n with
    | some j => let p := pairSt x j; p.apart && (isLatched p.h != isLatched p.l)
    | none => false
  .next (if gondolaRuns s && decide (n < 192) && c.fault && decide (15 ≤ c.clean) &&
            (inCause x n (linkH && !s.outs.stoppedH) (linkL && !s.outs.stoppedL) apart).isNone then
           let r := faultStep x n (linkH && !s.outs.stoppedH) (linkL && !s.outs.stoppedL) apart
           let ns := match pairOf x n with
             | some j => [2 * j, 2 * j + 1]
             | none => [n]
           takeWindow (windowFrom x r.1 ns r.2) s
         else s)

/-! ## Outputs -/

/-- An output that the module claims is newly locked as FOREIGN_PLUS and is bound with PARALLEL 1: the tether takes it (08 R284,
12 R378). -/
def foreignDrive (old new : OutSt) : Bool :=
  (numsFrom 0 96).any (fun o => bitOf new.parallel o && decide ((outCell old o).kind ≠ fkFOREIGNPLUS) &&
    decide ((outCell new o).kind = fkFOREIGNPLUS))

/-- Change the outputs of a gondola that runs. -/
def gondolaStep (f : OutCx → OutSt → OutSt × List LogReq) (s : State) : State :=
  if !gondolaRuns s then s
  else
    let s1 := onOutsLog f s
    let s2 := refreshOuts s1
    if s.ao.claimEn && foreignDrive s.outs s2.outs then onTether (fun t => { t with dualClaim := true }) s2 else s2

/-- READBACK_WINDOW_END (08 R263, R265, R266). -/
def execReadbackWindowEnd (samples : List RbSample) (fs : List (Nat × Nat)) (s : State) : Host.Outcome State Fault Refusal :=
  .next (gondolaStep (fun cx x => readbackEnd cx samples fs x) s)

/-- HS_DARK_STEP (08 R271). -/
def execHsDarkStep (o : Nat) (plus : Level) (met : Bool) (s : State) : Host.Outcome State Fault Refusal :=
  .next (gondolaStep (fun cx x => hsDark cx o plus met x) s)

/-- LS_DARK_STEP (08 R271). -/
def execLsDarkStep (o : Nat) (minus : Level) (met : Bool) (s : State) : Host.Outcome State Fault Refusal :=
  .next (gondolaStep (fun cx x => lsDark cx o minus met x) s)

/-- LIGHT_STEP (08 R271, R272, R274). -/
def execLightStep (o : Nat) (samples : LightSample) (met : Bool) (s : State) : Host.Outcome State Fault Refusal :=
  .next (gondolaStep (fun cx x => lightStep cx o samples met x) s)

/-- OVERLOAD (08 R267): the current limiter of a switch has been active for `us` µs, 25 ms or more. -/
def execOverload (o us : Nat) (s : State) : Host.Outcome State Fault Refusal :=
  .next (if o < 96 && 25000 ≤ us then gondolaStep (fun _ x => setLock o fkOVERLOAD x) s else s)

/-- LOCK_CLEAR (08 R282, Table 8.6): the 16th window in a row in which the clearing condition of the lock holds. -/
def execLockClear (o : Nat) (s : State) : Host.Outcome State Fault Refusal :=
  .next (if decide (o < 96) && clearCond s.outs o && decide (15 ≤ (outCell s.outs o).clearRun) then
           gondolaStep (fun _ x => clearLock o x) s
         else s)

/-- A measurement of a group's supply is taken. -/
def takeSupply (g : Nat) (q : SupplyIn) : State → State := onOuts (modGroup g (measure q.mvH q.mvL))

/-- A group of a gondola that runs. -/
def groupRuns (g : Nat) (s : State) : Bool := decide (g < 8) && gondolaRuns s

/-- GROUP_LOW (08 R277, R278): either half sets LOW. -/
def execGroupLow (g : Nat) (q : SupplyIn) (s : State) : Host.Outcome State Fault Refusal :=
  .next (if groupRuns g s && (seesLow q .h || seesLow q .l) then
           onTether (fun t => { t with lowSeen := setBitOf t.lowSeen g true }) (onOuts (setLow s.ao.ms g true) (takeSupply g q s))
         else s)

/-- LOW_CLEARED (08 R277): both halves clear LOW, 100 ms after it was last set at the earliest. -/
def execLowCleared (g : Nat) (q : SupplyIn) (s : State) : Host.Outcome State Fault Refusal :=
  .next (if groupRuns g s && seesHigh q && decide ((groupSt s.outs g).lowAt + 100 ≤ s.ao.ms) then
           onOuts (setLow s.ao.ms g false) (takeSupply g q s)
         else s)

/-- GROUP_CUT (08 R277, R279): either half cuts; 0xC7 is posted and a record written. A cut of a group that is cut already only counts
its restore interval afresh. -/
def execGroupCut (g : Nat) (q : SupplyIn) (s : State) : Host.Outcome State Fault Refusal :=
  .next (if !groupRuns g s || !(seesCut q .h || seesCut q .l) then s
         else
           let s1 := refreshOuts (onOuts (cutGroup s.ao.ms g) (takeSupply g q s))
           if (groupSt s.outs g).cut then s1
           else logOpen cdGROUPCUT (if seesCut q .h then 5 else 6) g 0 0 (postEvery 0xC7 s1))

/-- GROUP_RESTORED (08 R277, R280): both halves restore, 500 ms after the latest cut at the earliest; 0xC7 is posted, and the latches
stay clear up to the RELEASE of the first image that shows it. -/
def execGroupRestored (g : Nat) (q : SupplyIn) (s : State) : Host.Outcome State Fault Refusal :=
  .next (if groupRuns g s && seesRestore q && (groupSt s.outs g).cut && decide ((groupSt s.outs g).cutAt + 500 ≤ s.ao.ms) then
           logOpen cdGROUPRESTORED 5 g 0 0 (postEvery 0xC7 (refreshOuts (onOuts (restoreGroup g) (takeSupply g q s))))
         else s)

/-- SUPPLY_SAG (08 R265, R270): a measurement below 17.4 V suspends comparison and test steps of the group from there on. -/
def execSupplySag (g : Nat) (q : SupplyIn) (s : State) : Host.Outcome State Fault Refusal :=
  .next (if groupRuns g s && (decide (q.mvH < 17400) || decide (q.mvL < 17400)) then takeSupply g q s else s)

/-- GONDOLA_HALF_STOPPED (08 R262): the other half holds every latch clear and reports HL_APART on every output. -/
def execGondolaHalfStopped (half : Side) (s : State) : Host.Outcome State Fault Refusal :=
  .next (gondolaStep (fun _ x => stopHalf half x) s)

end Sys2Proof.Machine
end

