-- ==== Sys2Proof/Machine/Start.lean ====
section
/-!
DEFINITION. The start sequence (14 R408 to R412, Table 14.1), the decision at start (16 R456 to R459), reset sources (13 R393 to R397),
the supply (13 R383, R400), the automatic restart (06 R232) and the shutdown sequence (14 R428).
-/

namespace Sys2Proof.Machine

/-! ## Refusal codes (14 Table 14.2) -/

def scSTATIONNUMBER : BitVec 8 := 0x03
def scCARRIER : BitVec 8 := 0x04
def scSIGNATURE : BitVec 8 := 0x05
def scSTRAP : BitVec 8 := 0x06
def scSTATIONCHECK : BitVec 8 := 0x07
def scINTERCONNECT : BitVec 8 := 0x08
def scPIN : BitVec 8 := 0x09
def scRIPCORD : BitVec 8 := 0x0A
def scMEMORYBIST : BitVec 8 := 0x0B
def scLOGICBIST : BitVec 8 := 0x0C
def scBRIDLEBIST : BitVec 8 := 0x0D
def scCLOCK : BitVec 8 := 0x0E

/-! ## Domains in reset -/

/-- Every domain but PD0 in reset: what stays is the always-on domain, the two NOR memories, the fuses and the queue. -/
def freshDomains (s : State) : State :=
  { State.reset with pending := s.pending, mode := s.mode, overlays := s.overlays, ao := s.ao, carrier := s.carrier,
                     versions := s.versions, bist := s.bist, tail := s.tail }

/-- The recorder stops as its domain is reset: the staging spool and the counts are lost (18 R485). -/
def tailStop (t : TailSt) : TailSt :=
  { t with running := false, staging := spEmpty stageNone, taken := [], suppressed := [], supSince := [], timeValid := false, target := none }

/-- History records that a reset of the recorder's domain takes from the staging spool are new to the tail again. -/
def restage (s : State) : State :=
  let ks := s.tail.staging.items.filterMap (fun q =>
    if q.req.code = cdTRIP || q.req.code = cdPOWERLOSS then some HistKind.trip
    else if q.req.code = cdRESET then some HistKind.reset
    else if q.req.code = cdCOVER then some HistKind.cover else none)
  onAo (fun a => { a with uncopied := lastN 40 (ks ++ a.uncopied) }) s

/-- SAFE with every domain but PD0 held in reset (13 R397, 14 R412). -/
def holdReset (code : BitVec 8) (s : State) : State :=
  onTail tailStop (onAo (fun a => { a with pumpRun := false, wdArmed := false, claimEn := false, autoWait := none, stopReq := .none })
    { freshDomains (restage s) with mode := .safe, heldForm := true, refused := code })

/-- A refusal other than a bridle failure: SAFE in its tripped form with recorder, window and class D running (14 R412). The record carries
the code in DATA[7:0]; UNIT is the unit concerned, and the other bits of DATA are a free value of what is concerned (log entry 12). -/
def refuseStartAt (code : BitVec 8) (u : BitVec 4) (concerned : BitVec 16) (s : State) : State :=
  logData cdSTARTREFUSED u.toNat 0 0
    ((Config.recordData cdSTARTREFUSED ((concerned ++ u ++ code : BitVec 28).setWidth 64)).extractLsb' 8 56 ++ code : BitVec 64)
    (onWin (fun w => { w with alive := true }) (enterSafe (removeDrive { s with refused := code, startIn := none })))

/-- A refusal on what the bridle itself has found; `concerned`: the part, or what the test has shown. -/
def refuseStart (code : BitVec 8) (concerned : BitVec 16) (s : State) : State := refuseStartAt code (BitVec.ofNat 4 unBRIDLE) concerned s

/-! ## t0 (14 R408) and step 1 -/

/-- The always-on domain at t0. -/
def aoT0 (ok : Bool) (dormant : Bool) (a0 : AoSt) : AoSt :=
  let a := aoCheckBlock ok a0
  { a with markSeen := a.shutMark, shutMark := false, tripLatch := true, acc := if dormant then 0 else a.acc, wdArmed := false,
           claimEn := false, claimOutOk := true, stopReq := .none, tbBad := 0, hbHeld := false, autoWait := none, causeLines := [],
           wdSlk := 0, wdXo := 0, pumpRun := false, pumpRan := false, pd2On := false,
           scanLocked := false }

/-- Time base as the RTC holds it (18 R488). -/
def rtcUtc (a : AoSt) : BitVec 48 := BitVec.ofNat 48 (a.rtcSec * 1000000 + a.rtcSub * 1000000 / 32768)

/-- t0 and step 1: WAKE begins with every domain reset, the recorder starts, the mode change and a loss of the retained block are recorded,
and the overlays are clear but for an open cover. -/
def startT0 (si : StartIn) (s0 : State) : State :=
  let s := restage s0
  let s1 := { freshDomains s with mode := .wake, ao := aoT0 si.blockOk (decide (s.mode = .dormant)) s.ao, startIn := some si }
  let s2 := onTail (fun t => tailStart (stampOf s1) si.skipped { t with utc := rtcUtc s1.ao, utcHalf := false }) s1
  let s3 := if s.mode = .wake then s2
            else logOpen cdMODECHANGE (if s.mode = .dormant then unAO else unBRIDLE) 0 0
                   ((modeCode s.mode ++ modeCode .wake : BitVec 6).setWidth 64) s2
  let s4 := setOverlays { overlaysClear with maintenance := s3.ao.coverOpen } s3
  if s4.ao.aoLost then logOpen cdAOLOST unAO 0 0 0 s4 else s4

/-- A start that runs full BIST waits for the BIST of the bridle (step 2). -/
def fullStart (si : StartIn) (s : State) : State := { startT0 si s with start := .bridleBist, fullBist := true }

/-! ## Step 8 (14 Table 14.1) -/

/-- The 16 counts of a die lie within 100,000 ± 500 (13 R405). -/
def clocksOk (l : List Nat) : Bool := decide (l.length = 16) && l.all (inRange 99500 100500)

/-- History items that the tail has not taken reach it, in the order in which they arose: `ts`, `rs` and `cs` are the newest of each
history. -/
def logHist : List HistKind → List TripRec → List ResetRec → List Nat → State → State
  | [], _, _, _, s => s
  | .trip :: ks, t :: ts, rs, cs, s => logHist ks ts rs cs (logTrip t s)
  | .reset :: ks, ts, r :: rs, cs, s =>
    let w := resetWords r
    logHist ks ts rs cs (logData cdRESET unAO 0 0 (w.getD 1 0 ++ w.getD 0 0) s)
  | .cover :: ks, ts, rs, c :: cs, s => logHist ks ts rs cs (logData cdCOVER unAO 0 0 (BitVec.ofNat 64 c) s)
  | _ :: ks, ts, rs, cs, s => logHist ks ts rs cs s

/-- Histories held in the always-on domain reach the tail: each record that is new to it (13 R407, 18 R493). -/
def logHistory (s : State) : State :=
  let ks := s.ao.uncopied
  let n := fun (k : HistKind) => (ks.filter (fun q => decide (q = k))).length
  onAo (fun a => { a with uncopied := [] })
    (logHist ks (lastN (n .trip) s.ao.tripHist) (lastN (n .reset) s.ao.resetHist) (lastN (n .cover) s.ao.coverEvents) s)

/-- What a start completes before its first boundary: half-blown fuse steps (16 R453), and for a confirmed slot the versions and fuses (16 R461)
and the rewrite of the areas (R459). While a slot is on trial, both areas are in use. -/
def completeConfirm (c : Carrier) (s0 : State) : State :=
  let s := { s0 with versions := { s0.versions with fuses := completeFuses s0.versions.fuses } }
  let e := newestEntry c
  let img := slotOf c e.slotB
  if e.state = csCONFIRMED then
    { s with versions := raiseVersions recordKey img s.versions, carrier := some (rewriteAreas img (reconcileAreas (slotPdFormat img) c)) }
  else { s with carrier := some (reconcileAreas (slotPdFormat img) { c with newArea := true }) }

/-- PD2 is zeroised and switched off ahead of a scan of the bridle, and PD1 is reset, which frees the scan enable (14 R420). -/
def zeroisePd2 (s : State) : State :=
  onLinks (fun x => { x with keys := [] }) (onAo (fun a => { a with pd2On := false, scanLocked := false }) { s with recordKey := none })

/-- The bridle's scan enable is gated open (14 R420): PD2 is off, its key registers are clear, and no lock stands. -/
def scanOpen (s : State) : Bool := !s.ao.pd2On && !s.ao.scanLocked && s.links.keys.isEmpty && s.recordKey.isNone

/-- Step 8: the clock cross-check, the records, and the latch is cleared, from when on the pump clocks run (06 R229). The first boundary
follows. -/
def startStep8 (si : StartIn) (s : State) : State :=
  if !(clocksOk si.clocks.a && clocksOk si.clocks.b && clocksOk si.clocks.c) || !si.timeBaseOk then refuseStart scCLOCK (b2v (clocksOk si.clocks.a) ++ b2v (clocksOk si.clocks.b) ++ b2v (clocksOk si.clocks.c) ++ b2v si.timeBaseOk ++ 0#12) s
  else
    let s1 := match s.carrier with
      | some c => completeConfirm c s
      | none => s
    onAo (fun a => { a with tripLatch := false, pumpRun := true }) { logHistory s1 with start := .ready, startIn := none }

/-! ## Steps 5 and 6 -/

/-- Units of step 7. -/
def startUnits : List BistUnit :=
  [.dieMemory .a, .dieMemory .b, .dieMemory .c, .dieLogic .a, .dieLogic .b, .dieLogic .c, .gondola]

/-- Step 6, then step 7 or 8 (14 R415 to R417). The pump clocks run for the pin tests, up to the test of the ripcord, which stops them (log
entry 61). -/
def startStep6 (si : StartIn) (s0 : State) : State :=
  let t := si.tests
  if !t.bridleNets then holdReset scINTERCONNECT s0
  else if !t.nets || !t.ports then refuseStart scINTERCONNECT (b2v t.nets ++ b2v t.ports ++ 0#14) s0
  else
    let s := onAo (fun a => { a with pumpRan := true }) s0
    if !t.pins then refuseStart scPIN 0 s
    else if !t.ripcord then refuseStart scRIPCORD 0 s
    else if s.fullBist then { s with start := .unitBist startUnits }
    else startStep8 si s

/-- No strap fault, and three different identities (01 R19). -/
def strapsOk (t : Tri (BitVec 2)) : Bool :=
  decide (t.a ≠ 0) && decide (t.b ≠ 0) && decide (t.c ≠ 0) && decide (t.a ≠ t.b) && decide (t.a ≠ t.c) && decide (t.b ≠ t.c)

/-- Every die reads its strap as it leaves reset (01 R18). -/
def latchStraps (t : Tri (BitVec 2)) (s : State) : State := { s with dies := triMap t (fun _ k => dieReset k) }

/-- The image is loaded: dies, gondola halves, voter masks, links with their keys. -/
def loadImage (slotB : Bool) (img : SlotImg) (s0 : State) : State :=
  let p := img.data
  let s := { s0 with part := p, partSlotB := slotB, fwDigest := fwDigestOf img, loaded := true }
  let cx := ctxOf s
  { s with dies := triMap s.dies (fun _ x => loadDie cx p (dieReset x.strap) (dieReset x.strap)),
           ins := { inStReset with cfg := p.inCfg, interval := p.params.interval },
           outs := { outStReset with cfg := p.outCfg, parallel := parallelOuts p,
                                     groups := (numsFrom 0 8).foldl (fun m g => putA groupReset g { groupReset with cutAt := s.ao.ms } m) [] },
           vote := { ballotReset with own := Vector.ofFn (fun (r : Fin 16) => ownMask p r.val) },
           links := startLinks p s.ao.ms img.keys s.links } |> startPorts

/-- A commit entry is written, with its record. -/
def putEntry (e : CommitEntry) (s : State) : State :=
  match s.carrier with
  | none => s
  | some c =>
    logOpen cdCOMMITENTRY unBRIDLE 0 0 ((e.state ++ e.reason ++ b2v e.slotB : BitVec 9).setWidth 64)
      { s with carrier := some (writeEntry e c) }

/-- A CONFIRMED entry for a slot. -/
def confirmEntry (c : Carrier) (slotB : Bool) (reason : BitVec 4) (windowH : BitVec 16) : CommitEntry :=
  { seq := 0, state := csCONFIRMED, reason := reason, slotB := slotB, starts := 0, trialSec := 0, windowH := windowH,
    manDigest := manDigest (slotOf c slotB) }

/-- Step 5 (14 Table 14.1): straps, then every start check of STATION and KEYS, with the profiles as they read back (04 R158). A trial slot that fails falls back and starts anew (16
R457). -/
def startStep5 (si : StartIn) (slotB : Bool) (c : Carrier) (s : State) : State :=
  let img := slotOf c slotB
  let s0 := latchStraps si.straps s
  let s1 := loadImage slotB img s0
  if !strapsOk si.straps then refuseStart scSTRAP (si.straps.a ++ si.straps.b ++ si.straps.c ++ 0#10) s0
  else if img.keysOpen && decide (s.ao.latched.extractLsb' 23 8 = 0) &&
      startChecks (ctxOf s1) (stationNo s) (modulePos s) img.keys img.data && si.profilesOk then startStep6 si s1
  else
    let e := newestEntry c
    if e.state = csTRIAL then fullStart si (putEntry (confirmEntry c (!e.slotB) 9 e.windowH) s0)
    else refuseStart scSTATIONCHECK (b2v img.keysOpen ++ 0#15) s0

/-! ## Step 4 (16 R456) -/

/-- Table 16.7: the entry to write, the slot to run, and PROBATION. -/
def activation (key : Option (BitVec 256)) (vs : VersionSt) (station : BitVec 12) (a : AoSt) (c : Carrier) : Option CommitEntry × Bool × Bool :=
  let e := newestEntry c
  let now := (aoTime a).toNat
  let back := fun (reason : BitVec 4) => (some (confirmEntry c (!e.slotB) reason e.windowH), !e.slotB, false)
  if e.state = csPENDING then
    if (slotFails key vs station e.slotB (slotOf c e.slotB)).isNone then
      (some { e with state := csTRIAL, reason := 0, starts := 1, trialSec := aoTime a }, e.slotB, true)
    else back 5
  else if e.state = csTRIAL then
    if decide (e.windowH.toNat * 3600 < now - e.trialSec.toNat) || a.aoLost then back 6
    else if a.tripHist.any (fun t => decide (t.kind = 1) && decide (e.trialSec.toNat ≤ t.aoTime.toNat)) then back 7
    else if 3 ≤ e.starts.toNat then back 8
    else (some { e with reason := 0, starts := e.starts + 1 }, e.slotB, true)
  else (none, e.slotB, false)

/-- The shutdown BIST record is accepted (14 R427). -/
def recordAccepted (fw : BitVec 256) (s : State) : Bool :=
  let now := (aoTime s.ao).toNat
  let at_ := s.bist.aoSec.toNat
  s.ao.markSeen && bistGenuine s.recordKey s.bist && decide (at_ ≤ now) && decide (now ≤ at_ + 604800) &&
    decide (s.bist.fwDigest = fw) && decide (s.bist.results = 0x1FF) && !s.ao.aoLost

/-- Step 4: a record that is not accepted sends the start back to step 2; otherwise the entry of Table 16.7 is written and the slot it
names is checked. -/
def startStep4 (si : StartIn) (s : State) : State :=
  match s.carrier with
  | none => refuseStart scCARRIER 0 s
  | some c =>
    if !carrierReadable c then refuseStart scCARRIER 1 s
    else
      let d := activation s.recordKey s.versions (stationNo s) s.ao c
      let img := slotOf c d.2.1
      if !s.fullBist && !recordAccepted (fwDigestOf img) s then { zeroisePd2 s with start := .bridleBist, fullBist := true }
      else
        let s1 := if (verInUse s.recordKey s.versions).isSome then s else logOpen cdVERSIONLOST unBRIDLE 0 0 0 s
        let s2 := match d.1 with
          | some e => putEntry e s1
          | none => s1
        let c2 := s2.carrier.getD c
        match slotFails s.recordKey s.versions (stationNo s) d.2.1 img with
        | some .carrier => refuseStart scCARRIER 2 s2
        | some .manifest => refuseStart scSIGNATURE 0 s2
        | some .version => refuseStart scSIGNATURE 1 s2
        | none =>
          let s3 := onWin (fun w => { w with alive := true }) s2
          let s4 := setOverlays { s3.overlays with probation := d.2.2 } s3
          if !img.data.recordsOk then refuseStart scCARRIER 3 s4
          else if img.data.number = 0 || img.data.number ≠ stationNo s then refuseStart scSTATIONNUMBER (img.data.number.setWidth 16) s4
          else startStep5 si d.2.1 c2 s4

/-! ## Step 3 (14 R411) and the whole -/

/-- Step 3: PD2 comes on and the record key is derived (14 R421); the seal block. -/
def startStep3 (si : StartIn) (s0 : State) : State :=
  let s := onAo (fun a => { a with pd2On := true, scanLocked := true, contacts := si.contacts.getLast?.getD a.contacts, sealShown := si.contacts.getLast?.getD a.sealShown })
    { s0 with recordKey := some recordKey }
  match sealStart si.contacts with
  | .inr code => refuseStart code 0 s
  | .inl v => startStep4 si (onAo (fun a => { a with latched := v }) s)

/-- A start (14 R408). `full`: one that R410 never lets omit the long tests. Without the shutdown mark full BIST runs too. -/
def beginStart (full : Bool) (si : StartIn) (s : State) : State :=
  let s1 := startT0 si s
  if full || !s1.ao.markSeen || s1.ao.aoLost then { s1 with start := .bridleBist, fullBist := true }
  else startStep3 si { s1 with fullBist := false }

/-! ## BIST (14 R418, R419, R429) -/

/-- A memory unit of step 7. -/
def isMemory : BistUnit → Bool
  | .dieMemory _ => true
  | _ => false

/-- UNIT of a tail record (18 Table 18.2) for a unit of the BIST. Half H stands for the gondola. -/
def bistUnitCode (u : BistUnit) (s : State) : BitVec 4 :=
  match u with
  | .bridle => BitVec.ofNat 4 unBRIDLE
  | .dieMemory d | .dieLogic d => dieUnit (dieOf s d)
  | .gondola => 5

/-- A unit of step 7 ends. -/
def unitDone (u : BistUnit) (pass : Bool) (left : List BistUnit) (s : State) : State :=
  if !left.contains u then s
  else if !pass then refuseStartAt (if isMemory u then scMEMORYBIST else scLOGICBIST) (bistUnitCode u s) 0 s
  else
    let rest := left.filter (· ≠ u)
    if rest.isEmpty then
      match s.startIn with
      | some si => startStep8 si s
      | none => s
    else { s with start := .unitBist rest }

/-- A unit of step 3 of the shutdown sequence ends: a failure writes a record, and the sequence goes on. -/
def shutUnit (u : BistUnit) (pass : Bool) (s : State) : State :=
  match s.shut with
  | .testing left f r k =>
    if !left.contains u then s
    else
      let s1 := { s with shut := .testing (left.filter (· ≠ u)) (f || !pass) r k }
      if pass then s1 else logOpen cdSHUTDOWNBIST (bistUnitCode u s).toNat 0 0 (b2v (isMemory u) ++ 0#63) s1
  | _ => s

/-- BIST_COMPLETE: a unit passes when both comparisons agree with the expected value (14 R418). The bridle is scanned with its scan enable gated
open alone (14 R420). -/
def execBistComplete (u : BistUnit) (dieMatch bridleMatch : Bool) (s : State) : Host.Outcome State Fault Refusal :=
  let pass := dieMatch && bridleMatch
  .next (match s.start with
         | .bridleBist =>
           if u ≠ .bridle || !scanOpen s then s
           else if !pass then holdReset scBRIDLEBIST s
           else match s.startIn with
             | some si => startStep3 si { s with start := .idle }
             | none => s
         | .unitBist left => unitDone u pass left s
         | _ => shutUnit u pass s)

/-! ## Supply (13 R383, R400) -/

/-- LOGIC_SUPPLY_QUALIFIED: DORMANT ends in a start. -/
def execLogicSupplyQualified (si : StartIn) (s : State) : Host.Outcome State Fault Refusal :=
  .next (if s.mode = .dormant then beginStart false si s else s)

/-- The always-on domain as it passes to VBAT. -/
def aoDormant (a : AoSt) : AoSt :=
  { a with acc := 0, wdArmed := false, claimEn := false, button := resetInFree, rstIn := resetInFree, shdn := false, stopReq := .none,
           tbBad := 0, hbHeld := false, autoWait := none, causeLines := [], wdSlk := 0, wdXo := 0, pumpRun := false, pumpRan := false, pd2On := false,
           scanLocked := false }

/-- DORMANT: every other domain is unpowered. -/
def enterDormant (s : State) : State :=
  onTail tailStop { freshDomains s with mode := .dormant, overlays := overlaysClear, ao := aoDormant s.ao }

/-- The record of the change into DORMANT, from the always-on domain (13 R382, R383), within the hold-up. -/
def logDormant (s : State) : State :=
  logOpen cdMODECHANGE unAO 0 0 ((modeCode s.mode ++ modeCode .dormant : BitVec 6).setWidth 64) s

/-- LOGIC_SUPPLY_LOST: the trip, or the POWER_LOSS record, reaches the tail in the hold-up. -/
def execLogicSupplyLost (ci : CauseIn) (s : State) : Host.Outcome State Fault Refusal :=
  .next (if s.mode = .dormant then s else enterDormant (closeRecorder (logDormant (tripBy ci .logicSupply 0 0 0 s))))

/-! ## Automatic restart (06 R232) -/

/-- AUTO_RESTART (06 R232): the waits are over, after an OVERTEMP trip once the hottest junction reads 105 °C or less; the switch is read
once. -/
def execAutoRestart (si : StartIn) (hottest : Nat) (s : State) : Host.Outcome State Fault Refusal :=
  .next (match s.ao.autoWait with
         | none => s
         | some w =>
           if s.mode ≠ .safe || s.heldForm || decide (s.ao.ms < w.since + 10000) || (w.overtemp && decide (105 < hottest)) then s
           else
             let p := readPermit swAUTORESTART (onAo (fun a => { a with autoWait := none }) s)
             if !p.1 then p.2
             else beginStart true si (onAo (fun a => { a with autoTimes := lastN 3 (a.autoTimes ++ [a.ms]) }) p.2))

/-! ## Reset sources (13 R393 to R397) -/

def rcRESTART : BitVec 4 := 1
def rcHELD : BitVec 4 := 2
def rcSTUCK : BitVec 4 := 3
def rcSHUTDOWN : BitVec 4 := 4
def rcIGNORED : BitVec 4 := 5

/-- A reset history record with its tail record. -/
def noteReset (source cls : BitVec 4) (duration : BitVec 16) (since : Nat) (s : State) : State :=
  let t : ResetRec := { source := source, cls := cls, duration := duration, aoTime := BitVec.ofNat 32 (since / 1000) }
  let w := resetWords t
  logData cdRESET unAO 0 0 (w.getD 1 0 ++ w.getD 0 0) (onAo (pushReset s.tail.running t) s)

/-- The DURATION of a STUCK record is rewritten at the release (13 Table 13.11). -/
def restateStuck (q : ResetSrc) (a : AoSt) : AoSt :=
  let r := resetIn a q
  if !r.stuck then a
  else
    { a with resetHist := a.resetHist.map (fun t =>
        if t.source = resetSrcCode q && t.cls = rcSTUCK && t.aoTime = BitVec.ofNat 32 (r.since / 1000) then { t with duration := holdUnits a r }
        else t) }

/-- A source is free. -/
def freeSource (q : ResetSrc) (a : AoSt) : AoSt := putResetIn q resetInFree (restateStuck q a)

/-- A source is asserted. -/
def anyAsserted (a : AoSt) : Bool := a.button.asserted || a.rstIn.asserted

/-- A request is acted on: not in SHUTDOWN before it is parked, nor while a source holds the module in reset (13 R394, R396). -/
def requestActs (s : State) : Bool :=
  match s.mode with
  | .shutdown => decide (s.shut = .parked)
  | .dormant => false
  | .safe => !anyHeld s.ao
  | _ => true

/-- A restart request (13 R394). -/
def restartRequest (si : StartIn) (s : State) : State :=
  match s.mode with
  | .active | .standby => onAo (fun a => { a with stopReq := if a.stopReq = .none then .restart 0 else a.stopReq }) s
  | .wake | .safe => beginStart true si s
  | .shutdown => beginStart false si s
  | .dormant => s

/-- A shutdown request (13 R395): as a restart request, but WAKE is left for SHUTDOWN at the next boundary (Table 13.2). -/
def shutdownRequest (si : StartIn) (s : State) : State :=
  match s.mode with
  | .active | .standby | .wake => onAo (fun a => { a with stopReq := if a.stopReq = .none then .shutdown 0 else a.stopReq }) s
  | .safe => beginStart true si s
  | .shutdown => beginStart false si s
  | .dormant => s

/-- RESET_ASSERTED: a source has been held for 10 ms. -/
def execResetAsserted (q : ResetSrc) (s : State) : Host.Outcome State Fault Refusal :=
  .next (if s.mode = .dormant || (resetIn s.ao q).asserted then s
         else onAo (fun a => putResetIn q { asserted := true, held := false, stuck := false, since := a.ms } a) s)

/-- A source that counts as asserted has been held for 2 s and does not yet hold the module (13 Table 13.7). -/
def heldOver (a : AoSt) (q : ResetSrc) : Bool :=
  let r := resetIn a q
  r.asserted && !r.held && decide (r.since + 2000 ≤ a.ms)

/-- A source has been held for 2 s: the record and the trip, then every domain but PD0 is held in reset (13 R396, R397). -/
def holdSource (q : ResetSrc) (ci : CauseIn) (s : State) : State :=
  let r := resetIn s.ao q
  let s1 := noteReset (resetSrcCode q) rcHELD 200 r.since (onAo (putResetIn q { r with held := true }) s)
  holdReset 0 (enterSafe (tripBy ci .resetHeld 0 0 0 s1))

/-- RESET_RELEASED: a source held for less than 2 s makes a restart request. A held one is freed, and with the last of them the module
starts; one held for 2 s has held the module, whether or not RESET_HELD came. -/
def execResetReleased (q : ResetSrc) (si : StartIn) (s0 : State) : Host.Outcome State Fault Refusal :=
  let s := if s0.mode ≠ .dormant && heldOver s0.ao q then holdSource q causeNow s0 else s0
  let r := resetIn s.ao q
  .next (if s.mode = .dormant || !r.asserted then s
         else
           let s1 := onAo (freeSource q) s
           if r.held then (if anyAsserted s1.ao then s1 else beginStart true si s1)
           else if requestActs s1 then restartRequest si (noteReset (resetSrcCode q) rcRESTART (holdUnits s.ao r) r.since s1)
           else noteReset (resetSrcCode q) rcIGNORED (holdUnits s.ao r) r.since s1)

/-- RESET_HELD: a source has been held for 2 s. -/
def execResetHeld (q : ResetSrc) (ci : CauseIn) (s : State) : Host.Outcome State Fault Refusal :=
  .next (if s.mode = .dormant || !heldOver s.ao q then s else holdSource q ci s)

/-- RESET_STUCK: a source has been held for 60 s. -/
def execResetStuck (q : ResetSrc) (s : State) : Host.Outcome State Fault Refusal :=
  let r := resetIn s.ao q
  .next (if !r.held || r.stuck || decide (s.ao.ms < r.since + 60000) then s
         else noteReset (resetSrcCode q) rcSTUCK 6000 r.since (onAo (putResetIn q { r with stuck := true }) s))

/-- RESET_SOURCES_FREED: every asserted source has been released. -/
def execResetSourcesFreed (si : StartIn) (s : State) : Host.Outcome State Fault Refusal :=
  .next (if s.mode = .safe && s.heldForm && anyHeld s.ao then
           beginStart true si (onAo (fun a => freeSource .rst (freeSource .button a)) s)
         else s)

/-- SHDN_ASSERTED: SHDN# has been held for 10 ms. -/
def execShdnAsserted (si : StartIn) (s : State) : Host.Outcome State Fault Refusal :=
  .next (if s.mode = .dormant || s.ao.shdn then s
         else
           let s1 := onAo (fun a => { a with shdn := true }) s
           if requestActs s1 then shutdownRequest si (noteReset 3 rcSHUTDOWN 0 s1.ao.ms s1)
           else noteReset 3 rcIGNORED 0 s1.ao.ms s1)

/-- SHDN_RELEASED: a parked module starts. -/
def execShdnReleased (si : StartIn) (s : State) : Host.Outcome State Fault Refusal :=
  .next (if !s.ao.shdn then s
         else
           let s1 := onAo (fun a => { a with shdn := false }) s
           if s1.shut = .parked then beginStart false si s1 else s1)

/-! ## Shutdown (14 R428, Table 14.5) -/

/-- Every test of step 2 passed. -/
def testsOk (t : TestIn) : Bool := t.bridleNets && t.nets && t.ports && t.pins && t.ripcord

/-- Step 4: the record. -/
def writeRecord (last : Word) (s : State) : State :=
  let r : BistRecord := { m0 := bistM0, aoSec := aoTime s.ao, cycle := last, count := s.bist.count + 1, fwDigest := s.fwDigest,
                          results := 0x1FF, mac := 0 }
  { s with bist := { r with mac := bistMac recordKey r } }

/-- Parked: the dies are off, the window and the recorder stand still (13 R395). -/
def parkModule (s : State) : State :=
  { onDies (fun _ x => dieReset x.strap) s with shut := .parked }

/-- SHUTDOWN_BIST_COMPLETE: once every unit of step 3 has ended, step 2's outcome and the record of step 4, PD2 zeroised and the window
stopped (step 5), the BIST of the bridle (step 6, `bridleOk`), and the mark (step 7). -/
def execShutdownBistComplete (tests : TestIn) (bridleOk : Bool) (si : StartIn) (s : State) : Host.Outcome State Fault Refusal :=
  .next (match s.mode, s.shut with
         | .shutdown, .testing left failed forRestart last =>
           if !left.isEmpty then s
           else
             let s1 := if testsOk tests && !failed then writeRecord last s
                       else if testsOk tests then s
                       else logOpen cdSHUTDOWNBIST unBRIDLE 0 0 0 s
             let s2 := zeroisePd2 (onWin (fun w => { w with alive := false }) (onTail tailStop (closeRecorder s1)))
             let s3 := onAo (fun a => { a with shutMark := testsOk tests && !failed && scanOpen s2 && bridleOk }) s2
             if forRestart then beginStart false si s3 else parkModule s3
         | _, _ => s)

/-! ## Cover, seal block, carrier (13 R389, 15 R434, R438) -/

/-- COVER_OPEN: MAINTENANCE, or in DORMANT the RTC time is stored. -/
def execCoverOpen (s : State) : Host.Outcome State Fault Refusal :=
  let s1 := onAo (fun a => { a with coverOpen := true, coverAt := a.ms }) s
  .next (if s.mode = .dormant then onAo pushCover s1
         else setOverlays { s1.overlays with maintenance := true } s1)

/-- COVER_CLOSED: the contact has read closed for 10 s. -/
def execCoverClosed (s : State) : Host.Outcome State Fault Refusal :=
  let s1 := onAo (fun a => { a with coverOpen := false }) s
  .next (if s.mode = .dormant then s1
         else if s.ao.coverOpen && decide (s.ao.ms < s.ao.coverAt + 10000) then s
         else setOverlays { s1.overlays with maintenance := false } s1)

/-- Switches that stay latched: STATION, POSITION and PREFERRED (15 Table 15.6). -/
def latchedMask : Word := 0x7FFFF

/-- SEAL_READ: a latched switch that reads differently, or a discrepancy, is recorded once. -/
def execSealRead (contacts : Seal) (s : State) : Host.Outcome State Fault Refusal :=
  .next (if s.mode = .dormant then s
         else
           let off := decide ((sealOn contacts ^^^ s.ao.latched) &&& latchedMask ≠ 0) || !sealWhole contacts
           let fresh := decide ((sealOn contacts ^^^ sealOn s.ao.sealShown) &&& latchedMask ≠ 0) ||
             decide (contacts.a ^^^ contacts.b ≠ s.ao.sealShown.a ^^^ s.ao.sealShown.b)
           let s1 := onAo (fun a => { a with contacts := contacts, sealShown := contacts }) s
           if off && fresh && bridleRuns s then
             logData cdSEALCHANGED unAO 0 0 (Config.recordData cdSEALCHANGED (sealOn contacts ++ s.ao.latched)) s1
           else s1)

/-- The request slot of a carrier operation in progress. -/
def opSlot : CarrierOp → Option Nat
  | .open_ n | .write n | .close n _ _ | .confirm n => some n
  | .none | .switched => none

/-- CARRIER_REMOVED: staging, activation or a change in progress is refused. -/
def execCarrierRemoved (s : State) : Host.Outcome State Fault Refusal :=
  .next (if s.carrier.isNone then s
         else
           let s1 := { s with carrier := none, update := { s.update with staging := false, op := .none, pages := [], staged := [], switchDue := false } }
           if !bridleRuns s then s1
           else
             let s2 := abortChange chABORTED (logOpen cdCARRIER unBRIDLE 0 0 0 s1)
             let s3 := onWin (fun w => s.update.pages.foldl (fun w k => handBack (flSTG + k) w) w) s2
             match opSlot s.update.op with
             | some n => onWin (finishSlot n rsREFUPDATE upCARRIER (takenOf s.win n)) s3
             | none => s3)

/-- CARRIER_INSERTED. -/
def execCarrierInserted (c : Carrier) (s : State) : Host.Outcome State Fault Refusal :=
  .next (if s.carrier.isSome then s
         else
           let s1 := { s with carrier := some c }
           if bridleRuns s then logOpen cdCARRIER unBRIDLE 0 1 0 s1 else s1)

/-! ## Forces (15 R448) -/

/-- FORCE_EXPIRY: the boundary of the EXPIRY cycle of a force has come. -/
def execForceExpiry (f : ForceEntry) (s : State) : Host.Outcome State Fault Refusal :=
  .next (if cyclesRun s && s.forces.contains f && forceOver s.cycle f then expireForce s f else s)

end Sys2Proof.Machine
end

