-- ==== Sys2Proof/Machine/TetherRows.lean ====
section
/-!
DEFINITION. The claim lines and the roles of a pair outside a boundary's own decisions (12 R355 to R360, R372 to R378).
-/

namespace Sys2Proof.Machine

/-! ## Claim lines (12 R356, R357) -/

/-- CLAIM_IN_STATIC: no edge for 150 µs. The claim gate of a claiming module passes again. -/
def execClaimInStatic (s : State) : Host.Outcome State Fault Refusal :=
  .next (if s.ao.claimIn = .static then s
         else refreshOuts (onAo (fun a => { a with claimIn := .static, staticSince := a.ms }) s))

/-- CLAIM_IN_LIVE: the gate blocks; a module that claims has found a claiming partner (12 R378). -/
def execClaimInLive (invalid : Bool) (s : State) : Host.Outcome State Fault Refusal :=
  let s1 := onAo (fun a => { a with claimIn := if invalid then .invalid else .live }) s
  .next (refreshOuts (if s.ao.claimEn && (partnerPos s).isSome then onTether (fun t => { t with dualClaim := true }) s1 else s1))

/-- CLAIM_OUT_FAULT: the readback of CLAIM_OUT does not match the drive while CLAIM_EN is set. -/
def execClaimOutFault (s : State) : Host.Outcome State Fault Refusal :=
  .next (if s.ao.claimEn && s.ao.claimOutOk then
           logOpen cdCLAIMOUTFAULT unAO 0 0 0
             (refreshOuts (onTether (fun t => { t with claimOutFault := true }) (onAo (fun a => { a with claimOutOk := false }) s)))
         else s)

/-! ## Entering ACTIVE after silence -/

/-- NEGOTIATION_TIMEOUT (12 R359), at a boundary: 3P for the preferred module, 6P for the alternate. -/
def execNegotiationTimeout (s : State) : Host.Outcome State Fault Refusal :=
  .next (if s.mode = .wake && decide (s.start = .cycles) && atBoundary s && negotiationOver s then enterActive s else s)

/-- TAKEOVER (12 R374), at a boundary. -/
def execTakeover (s : State) : Host.Outcome State Fault Refusal :=
  .next (if atBoundary s && takeoverDue s then enterActive s else s)

/-! ## Records -/

/-- YIELD_REFUSED (12 R372). -/
def execYieldRefused (s : State) : Host.Outcome State Fault Refusal := .next (yieldRefused s)

/-- CLAIM_LINE (12 R376). -/
def execClaimLine (s : State) : Host.Outcome State Fault Refusal :=
  .next (if s.mode = .standby then recordClaimLine s else s)

/-- PREF_CONFLICT_RECORD (12 R360). -/
def execPrefConflictRecord (s : State) : Host.Outcome State Fault Refusal := .next (if bridleRuns s then prefConflict s else s)

end Sys2Proof.Machine
end

