-- ==== Sys2Proof/Machine/Updates.lean ====
section
/-!
DEFINITION. Updates and the signed commands that the bridle carries out (16 R455, R461; 17 R473, R474; 18 R491): staging, confirmation,
the background operations of bridle core pair 0 on the carrier, and CLEAR_RECORDER.
-/

namespace Sys2Proof.Machine

/-! ## Slots with the bridle -/

/-- Hand a slot back. -/
def answerSlot (n : Nat) (result reason : BitVec 8) (s : State) : State := onWin (finishSlot n result reason (takenOf s.win n)) s

/-- REFUSED_UPDATE. -/
def refuseUpdate (n : Nat) (code : BitVec 8) (s : State) : State := answerSlot n rsREFUPDATE code s

/-- A STAGE_UPDATE with the given OP that the bridle can begin: no other operation is in progress. -/
def stageReady (op n : Nat) (s : State) : Bool :=
  bridleSlot .stageUpdate n s && decide (stageOp (reqWords s.win n) = op) && decide (s.update.op = .none)

/-- The mode or an overlay forbids staging (16 R455, 13 R392). -/
def stageBarred (s : State) : Bool :=
  decide (s.mode = .wake) || decide (s.mode = .shutdown) || s.overlays.probation || s.overlays.change

/-- What every operation of STAGE_UPDATE is refused for, else what follows with the carrier. -/
def stageWith (n : Nat) (s : State) (f : Carrier → State) : State :=
  if stageBarred s then refuseUpdate n upMODE s
  else match s.carrier with
    | none => refuseUpdate n upCARRIER s
    | some c => f c

/-- An operation of core pair 0 begins. -/
def beginOp (op : CarrierOp) (pages : List Nat) (s : State) : State := { s with update := { s.update with op := op, pages := pages } }

/-- The slot that staging writes (16 R455). -/
def targetSlotB (c : Carrier) : Bool := !activeSlotB c

/-! ## STAGE_UPDATE (16 Table 16.5) -/

/-- STAGE_UPDATE_OPEN: the permit, the cancelled entry, and the erasure begins. -/
def execStageUpdateOpen (slot : Nat) (s : State) : Host.Outcome State Fault Refusal :=
  .next (if !stageReady 1 slot s then s
         else stageWith slot s (fun c =>
           let p := readPermit swUPDATE s
           if !p.1 then refuseUpdate slot upPERMIT p.2
           else
             let e := newestEntry c
             let s1 := if e.state = csPENDING then putEntry (confirmEntry c (!e.slotB) 4 e.windowH) p.2 else p.2
             let c1 := s1.carrier.getD c
             let c2 := { putSlot (targetSlotB c) slotEmpty c1 with areaNew := [], newArea := false }
             beginOp (.open_ slot) [] { s1 with carrier := some c2, update := { s1.update with staging := false, staged := [] } }))

/-- Slot offset of a WRITE. -/
def stageOffset (ws : List Word) : Nat := (ws.getD 5 0).toNat

/-- Open staging, an offset in range and pages that the device owns. -/
def stageWriteOk (ws : List Word) (s : State) : Bool :=
  s.update.staging && decide (stageOffset ws % 4096 = 0) &&
    decide (stageOffset ws + 4096 * (stagePages ws).length ≤ slotBytes) &&
    (stagePages ws).all (fun k => decide (k < 32) && decide (winFlag s.win (flSTG + k) ≠ ownGATEWAY))

/-- STAGE_UPDATE_WRITE: programming begins. -/
def execStageUpdateWrite (slot : Nat) (s : State) : Host.Outcome State Fault Refusal :=
  let ws := reqWords s.win slot
  .next (if !stageReady 2 slot s then s
         else stageWith slot s (fun _ =>
           if stageWriteOk ws s then beginOp (.write slot) (stagePages ws) s else refuseUpdate slot upSLOT s))

/-- WINDOW_H of a CLOSE; 0 stands for 72. -/
def stageWindow (ws : List Word) : BitVec 16 :=
  let h := (ws.getD 7 0).extractLsb' 0 16
  if h = 0 then 72 else h

/-- STAGE_UPDATE_CLOSE: the checks begin. -/
def execStageUpdateClose (slot : Nat) (s : State) : Host.Outcome State Fault Refusal :=
  let ws := reqWords s.win slot
  .next (if !stageReady 3 slot s then s
         else stageWith slot s (fun _ =>
           if s.update.staging then beginOp (.close slot (bitOf (ws.getD 4 0) 8) (stageWindow ws)) [] s else refuseUpdate slot upSLOT s))

/-! ## CONFIRM_UPDATE (16 R461) -/

/-- Its tests in order, the signature being past; 0: accepted. -/
def confirmTest (s : State) : BitVec 8 :=
  if decide (s.mode = .safe) || decide (s.mode = .shutdown) || s.overlays.degraded || s.overlays.change then upMODE
  else if !s.overlays.probation then upNOTTRIAL
  else match s.carrier with
    | none => upCARRIER
    | some c =>
      let e := newestEntry c
      if e.windowH.toNat * 3600 < (aoTime s.ao).toNat - e.trialSec.toNat then upWINDOW
      else if s.update.clean < 1000 then upCYCLES
      else 0

/-- A CONFIRMED entry for a slot, with versions, fuses and areas (16 R459, R461). -/
def confirmSlot (slotB : Bool) (reason : BitVec 4) (s : State) : State :=
  match s.carrier with
  | none => s
  | some c =>
    let s1 := putEntry (confirmEntry c slotB reason (newestEntry c).windowH) s
    { s1 with versions := raiseVersions recordKey (slotOf c slotB) s1.versions,
              carrier := s1.carrier.map (fun c => rewriteAreas (slotOf c slotB) c) }

/-- CONFIRM_UPDATE: an accepted one writes the entry, the versions and the fuses, rewrites the areas, and clears PROBATION at the next
boundary. Its slot returns when the carrier is done. -/
def execConfirmUpdate (slot : Nat) (s : State) : Host.Outcome State Fault Refusal :=
  .next (if !bridleSlot .confirmUpdate slot s || decide (s.update.op ≠ .none) then s
         else
           let code := confirmTest s
           if code ≠ 0 then refuseUpdate slot code s
           else
             let b := match s.carrier with
               | some c => (newestEntry c).slotB
               | none => false
             let s1 := confirmSlot b 2 s
             beginOp (.confirm slot) [] { s1 with update := { s1.update with cleared := true } })

/-! ## CARRIER_WRITE_COMPLETE -/

/-- The code with which a checked CLOSE is refused; 0: accepted. -/
def closeTest (img : SlotImg) (activate : Bool) (permit : Bool) (s : State) (c : Carrier) : BitVec 8 :=
  match slotFails s.recordKey s.versions (stationNo s) (targetSlotB c) img with
  | some .version => upVERSION
  | some .carrier | some .manifest => upMANIFEST
  | none =>
    if !img.keysOpen then upKEYS
    else if (slotPdFormat (slotOf c (activeSlotB c))).toNat < (slotPdOldest img).toNat then upFORMAT
    else if activate && !permit then upPERMIT
    else 0

/-- A CLOSE ends: the image stands in the target slot, and with ACTIVATE a PENDING entry is written. -/
def closeDone (slot : Nat) (activate : Bool) (windowH : BitVec 16) (img : SlotImg) (c : Carrier) (s0 : State) : State :=
  let b := targetSlotB c
  let s1 := { s0 with carrier := some (putSlot b img c), update := { s0.update with staging := false, staged := [] } }
  let p := if activate then readPermit swUPDATE s1 else (true, s1)
  let code := closeTest img activate p.1 s1 c
  if code ≠ 0 then refuseUpdate slot code p.2
  else
    let s2 := if activate then
        putEntry { seq := 0, state := csPENDING, reason := 1, slotB := b, starts := 0, trialSec := 0, windowH := windowH,
                   manDigest := manDigest img } p.2
      else p.2
    answerSlot slot rsDONE 0 s2

/-- Bytes of a staging page, by slot offset. -/
def pageBytes (w : WinSt) (off page : Nat) : List Host.Cell :=
  (w.mem.filter (fun c => decide (stgAddr page ≤ c.1) && decide (c.1 < stgAddr page + 4096))).map (fun c => (off + c.1 - stgAddr page, c.2))

/-- Program the pages of a WRITE from its offset on. -/
def programPages (w : WinSt) : Nat → List Nat → List Host.Cell → List Host.Cell
  | _, [], m => m
  | off, k :: t, m =>
    programPages w (off + 4096) t ((pageBytes w off k).foldl (fun m c => memPut m c.1 c.2) (memClear m off (off + 4096)))

/-- A WRITE ends: its pages are handed back with the request. -/
def writeDone (slot : Nat) (ok : Bool) (s : State) : State :=
  let ws := reqWords s.win slot
  let m := if ok then programPages s.win (stageOffset ws) s.update.pages s.update.staged else s.update.staged
  let s1 := returnPages s.update.pages { s with update := { s.update with staged := m, pages := [] } }
  if ok then answerSlot slot rsDONE 0 s1 else refuseUpdate slot upWRITE s1

/-- CARRIER_WRITE_COMPLETE: the operation under way ends. -/
def execCarrierWriteComplete (done : CarrierDone) (s : State) : Host.Outcome State Fault Refusal :=
  let s1 := if s.update.switchDue then { beginOp .switched [] s with update := { s.update with op := .switched, pages := [], switchDue := false } }
            else beginOp .none [] s
  .next (match s.carrier with
         | none => s
         | some c =>
           match s.update.op with
           | .none => s
           | .open_ n =>
             if done.ok then answerSlot n rsDONE 0 { s1 with update := { s1.update with staging := true } } else refuseUpdate n upWRITE s1
           | .write n => writeDone n done.ok { s1 with update := { s1.update with pages := s.update.pages } }
           | .close n a h =>
             if done.ok then closeDone n a h done.image c s1
             else refuseUpdate n upCARRIER { s1 with update := { s1.update with staging := false, staged := [] } }
           | .confirm n => if done.ok then answerSlot n rsDONE 0 s1 else refuseUpdate n upWRITE s1
           | .switched => confirmSlot s.partSlotB 3 s1)

/-! ## Signed requests (17 R473, R474) -/

/-- A signed request is recorded with its key and counter. -/
def acceptRecord (ws : List Word) : LogReq :=
  { code := cdSIGNEDACCEPT, unit_ := 4, place := 0, index := BitVec.ofNat 8 ((ws.getD 40 0).extractLsb' 0 3).toNat,
    data := (0#24 ++ (ws.getD 0 0).extractLsb' 24 8 ++ ws.getD 41 0 : BitVec 64) }

/-- The counter of a key is used up: written to the areas in use, the new-format area in the format of the slot on trial. -/
def useCounter (key : Nat) (v : Word) (c : Carrier) : Carrier :=
  pdWrite (slotPdFormat (slotOf c (newestEntry c).slotB)) (BitVec.ofNat 16 key) v c

/-- SIGNATURE_CHECK_DONE: the checks of a signed slot are complete. -/
def execSignatureCheckDone (slot : Nat) (s : State) : Host.Outcome State Fault Refusal :=
  let ws := reqWords s.win slot
  .next (if !s.win.alive || decide (64 ≤ slot) || decide (winFlag s.win slot ≠ ownDEVICE) || !slotSigned ws || (slotChecked s.win slot).isSome ||
            s.win.bridle.contains slot || s.win.delivered.contains slot then s
         else
           let k := authCheck s.part.operators (moduleAddr s) (lastCounter s) ws
           let s1 := onWin (fun w => { w with checked := w.checked ++ [(slot, k)] }) s
           let good := match reqCmd ws with
             | some c => recordOk (reqAddr slot) ws c
             | none => false
           if k ≠ 0 || !good then s1
           else logCore (acceptRecord ws)
             { s1 with carrier := s1.carrier.map (useCounter ((ws.getD 40 0).extractLsb' 0 3).toNat (ws.getD 41 0)) })

/-! ## CLEAR_RECORDER (18 R491) -/

/-- The CLEAR record of a request. -/
def clearRecord (ws : List Word) : LogReq :=
  { code := cdCLEAR, unit_ := 4, place := 0, index := BitVec.ofNat 8 ((ws.getD 40 0).extractLsb' 0 3).toNat,
    data := (ws.getD 41 0).setWidth 64 }

/-- The record of a request stands in the staging spool. -/
def clearStaged (ws : List Word) (t : TailSt) : Bool := (t.staging.items ++ t.staging.stalled).any (fun r => decide (r.req = clearRecord ws))

/-- CLEAR_RECORDER: the CLEAR record is handed to the recorder. -/
def execClearRecorder (slot : Nat) (s : State) : Host.Outcome State Fault Refusal :=
  let ws := reqWords s.win slot
  .next (if bridleSlot .clearRecorder slot s && !clearStaged ws s.tail then logCore (clearRecord ws) s else s)

/-- The slot whose CLEAR record has been completed. -/
def clearedSlot (q : LogReq) (s : State) : Option Nat :=
  s.win.bridle.find? (fun n => decide (reqCmd (reqWords s.win n) = some .clearRecorder) && decide (clearRecord (reqWords s.win n) = q))

/-! ## The tail (18 R483, R485, R487, R488) -/

/-- TAIL_RECORD_WRITTEN: the oldest record of the staging spool is complete; a CLEAR record returns its slot. -/
def execTailRecordWritten (s : State) : Host.Outcome State Fault Refusal :=
  let s1 := onTail tailWrite s
  .next (if s1.tail.newest = s.tail.newest then s1
         else match s1.tail.newest with
           | none => s1
           | some p =>
             match clearedSlot (getA slotErased s1.tail.log p.1).rec_.req s1 with
             | some n => answerSlot n rsDONE 0 s1
             | none => s1)

/-- TAIL_BLOCK_ERASED. -/
def execTailBlockErased (s : State) : Host.Outcome State Fault Refusal :=
  .next (if s.tail.running then onTail tailErased s else s)

/-- SUPPRESSED_SUMMARY: the count of a code has stood for 60 s. -/
def execSuppressedSummary (code : BitVec 16) (s : State) : Host.Outcome State Fault Refusal :=
  .next (if s.tail.running then onTail (supDue (stampOf s) code.toNat) s else s)

/-- RTC_WRITEBACK (18 R488): it is due 60 s after the last; a boundary writes it too. -/
def execRtcWriteback (s : State) : Host.Outcome State Fault Refusal := .next (rtcDue s)

end Sys2Proof.Machine
end

