-- ==== Sys2Proof/Machine/WindowRows.lean ====
section
/-!
DEFINITION. The gateway's side of the window (17 R462 to R468, R476 to R479; 18 R489, R490): the words of the window, the port's commands,
the polling of the ring, recorder pages and staging pages.
-/

namespace Sys2Proof.Machine

/-! ## Words of the window -/

/-- Header words (17 Table 17.3). -/
def headerWord (w : WinSt) (a : Nat) : Word :=
  if a = 0 then 0x44570001
  else if a = 4 then w.modeW
  else if a = 8 then w.cycleW
  else if a = 0xC then w.moduleW
  else if a = 0x10 then (0#29 ++ b2v (!w.written1) ++ b2v (!w.written0) ++ b2v w.repCur : BitVec 32)
  else if a = 0x14 then w.repCycle0
  else if a = 0x18 then w.repCycle1
  else if a = 0x1C then w.probCount
  else if a = 0x20 then BitVec.ofNat 32 w.take
  else if a = 0x24 then w.irq.setWidth 32
  else if a = 0x28 then BitVec.ofNat 32 w.discards
  else if a = 0x2C then BitVec.ofNat 32 w.flagBad
  else if a = 0x30 then BitVec.ofNat 32 w.recBad
  else if 0x100 ≤ a && a < 0x170 then leWord (winFlag w (a - 0x100)) (winFlag w (a - 0xFF)) (winFlag w (a - 0xFE)) (winFlag w (a - 0xFD))
  else 0

/-- Word `k` of report record `n` of a buffer (17 Table 17.9). -/
def reportWord (w : WinSt) (buf : Nat) (n k : Nat) : Word :=
  if !(if buf = 0 then w.written0 else w.written1) then 0
  else
    let z := getA [] w.reports (4096 * buf + n)
    let ws := if z.isEmpty then (0x800000 ||| BitVec.ofNat 32 n) :: List.replicate 6 0 else z
    if k = 7 then slotCheck (0x5000 + 0x20000 * buf + 32 * n) (ws.take 7) else ws.getD k 0

/-- Words of a link's entry. -/
def linkDiag (l : LinkSt) (k : Nat) : Word :=
  if k = 0 then (0#22 ++ b2v l.netDownB ++ b2v l.netDownA ++ 0#6 ++ linkStateCode l.state : BitVec 32)
  else if k = 1 then BitVec.ofNat 32 l.accepted
  else if k = 2 then BitVec.ofNat 32 (discardTotal l)
  else l.lastCause.setWidth 32

/-- Words of the change report. -/
def changeWord (c : ChangeSt) (k : Nat) : Word :=
  if k = 0 then (0#8 ++ BitVec.ofNat 8 (min c.report.length 254) ++ 0#8 ++ c.code : BitVec 32)
  else if k = 1 then c.at_
  else match c.report[k - 2]? with
    | some (d, i) => (b2v d ++ i : BitVec 32)
    | none => 0

/-- Slice steps of four regions of a die. -/
def sliceWord (x : DieSt) (k : Nat) : Word :=
  let b := fun (r : Nat) => BitVec.ofNat 8 (getA 0 x.sliceStep r)
  leWord (b (4 * k)) (b (4 * k + 1)) (b (4 * k + 2)) (b (4 * k + 3))

/-- The die of a place in a table by dies. -/
def dieAt (n : Nat) : Die := if n = 0 then .a else if n = 1 then .b else .c

/-- Diagnostic pages (17 Table 17.10), by offset. -/
def diagWord (s : State) (w : WinSt) (o : Nat) : Word :=
  if o < 0xC0 then (copyOf s.vote (dieAt (o / 64)) (o / 4 % 16)).status
  else if 0x100 ≤ o && o < 0x400 then getA 0 w.inWords ((o - 0x100) / 4)
  else if 0x400 ≤ o && o < 0x580 then getA 0xFF w.outWords ((o - 0x400) / 4)
  else if 0x580 ≤ o && o < 0x5C0 then w.spWords.getD ((o - 0x580) / 4) 0
  else if 0x5C0 ≤ o && o < 0x5F0 then sliceWord (dieOf s (dieAt ((o - 0x5C0) / 16))) ((o - 0x5C0) / 4 % 4)
  else if 0x5F0 ≤ o && o < 0x5FC then BitVec.ofNat 32 (triGet s.rotations (dieAt ((o - 0x5F0) / 4)))
  else if o = 0x600 then s.ao.latched
  else if o = 0x604 then sealOn s.ao.sealShown
  else if o = 0x608 then ~~~(s.ao.sealShown.a ^^^ s.ao.sealShown.b)
  else if 0x800 ≤ o && o < 0xB00 then linkDiag (linkSt s.links ((o - 0x800) / 16)) (o / 4 % 4)
  else if 0xB00 ≤ o && o < 0xF00 then changeWord s.change ((o - 0xB00) / 4)
  else if 0xF00 ≤ o && o < 0x1000 then Config.faultCounterWord (bridleFaults s) ((o - 0xF00) / 4)
  else if 0x1000 ≤ o && o < 0x1800 then getA 0 w.pmcWords ((o - 0x1000) / 4)
  else if 0x4000 ≤ o then getA 0 w.routeMirror ((o - 0x4000) / 4)
  else 0

/-- The aligned word at address `a` of the window (17 Table 17.2). -/
def winWord (s : State) (w : WinSt) (a : Nat) : Word :=
  if a < 0x1000 then headerWord w a
  else if a < 0x5000 then memWord w.mem a
  else if a < 0x25000 then reportWord w 0 ((a - 0x5000) / 32) (a / 4 % 8)
  else if a < 0x45000 then reportWord w 1 ((a - 0x25000) / 32) (a / 4 % 8)
  else if a < 0x75000 then memWord w.mem a
  else if a < 0x7D000 then diagWord s w (a - 0x75000)
  else if a < 0x7F000 then getA 0 w.auth ((a - 0x7D000) / 4)
  else 0

/-! ## Port commands (17 R463, R464) -/

/-- What a port that is not served drives: 0xFF on every line (13 R397). -/
def portSilent (n : Nat) (s : State) : State := onWin (fun w => { w with out := List.replicate n 0xFF }) s

/-- A transfer ends: a byte cut short by the rise of WCS# is discarded, and ERR is set (17 R464). -/
def portEnd (cut : Bool) (s : State) : State := if cut then onWin (fun w => { w with err := true }) s else s

/-- Bytes arrive; a transfer with discarded bytes and each flag of neither value are recorded (17 R479). -/
def portWrite (addr : Nat) (bs : List Byte) (cut : Bool) (s : State) : State :=
  if !s.win.alive then s
  else
    let r := winWrite s.ao.ms addr bs s.win
    let s1 := { s with win := r.1 }
    let s2 := if r.2 then logOpen cdGATEWAYFAULT unBRIDLE 0 0 1 s1 else s1
    portEnd cut ((List.replicate (r.1.flagBad - s.win.flagBad) ()).foldl (fun s _ => logOpen cdGATEWAYFAULT unBRIDLE 0 0 2 s) s2)

/-- Bytes go out. -/
def portRead (addr n : Nat) (cut : Bool) (s : State) : State :=
  if !s.win.alive then portSilent n s else portEnd cut (onWin (winRead (winWord s) addr n) s)

/-- WRITE. -/
def execWrite (addr : BitVec 24) (bytes : List Byte) (cut : Bool) (s : State) : Host.Outcome State Fault Refusal :=
  .next (portWrite addr.toNat bytes cut s)

/-- QWRITE. -/
def execQwrite (addr : BitVec 24) (bytes : List Byte) (cut : Bool) (s : State) : Host.Outcome State Fault Refusal :=
  .next (portWrite addr.toNat bytes cut s)

/-- READ. -/
def execRead (addr : BitVec 24) (count : Nat) (cut : Bool) (s : State) : Host.Outcome State Fault Refusal :=
  .next (portRead addr.toNat count cut s)

/-- QREAD. -/
def execQread (addr : BitVec 24) (count : Nat) (cut : Bool) (s : State) : Host.Outcome State Fault Refusal :=
  .next (portRead addr.toNat count cut s)

/-- STATUS: ERR, IRQ pending and READY; the read clears ERR. -/
def execStatus (s : State) : Host.Outcome State Fault Refusal := .next (if bridleRuns s then onWin winStatus s else portSilent 1 s)

/-- IDENT. -/
def execIdent (s : State) : Host.Outcome State Fault Refusal :=
  .next (if bridleRuns s then onWin (fun w => { w with out := [0xD2, 0x40, 0x96, 0x01] }) s else portSilent 4 s)

/-- A code of 17 Table 17.1. -/
def portCode (c : Byte) : Bool := [0x02, 0x05, 0x0B, 0x38, 0x9F, 0xEB].contains c

/-- PORT_COMMAND_INVALID: the transfer is ignored and ERR is set. -/
def execPortCommandInvalid (code : Byte) (s : State) : Host.Outcome State Fault Refusal :=
  .next (if bridleRuns s && !portCode code then onWin (fun w => { w with err := true, out := [] }) s else s)

/-- PORT_TRANSFER_TIMEOUT: the transfer is ended and ERR is set. -/
def execPortTransferTimeout (s : State) : Host.Outcome State Fault Refusal :=
  .next (if bridleRuns s then onWin (fun w => { w with err := true }) s else s)

/-- WIN_IRQ_READ: byte 0x024 is read and cleared. -/
def execWinIrqRead (s : State) : Host.Outcome State Fault Refusal := .next (portRead 0x24 1 false s)

/-! ## Requests outside cycles, pages (17 R470, R479; 18 R489, R490) -/

/-- REQUEST_POLL. -/
def execRequestPoll (s : State) : Host.Outcome State Fault Refusal := .next (if cyclesRun s then s else takeRequests false s)

/-- STAGING_PAGE_TIMEOUT: a page that no WRITE has named within 10 s is returned unchanged. -/
def execStagingPageTimeout (page : Nat) (s : State) : Host.Outcome State Fault Refusal :=
  .next (if s.win.alive && pageOver page s then returnPages [page] s else s)

/-- `x` does not lie before `y` in serial order. -/
def notBefore (x y : Word) : Bool := !serialAfter y x

/-- Later of two sequence numbers. -/
def laterSeq (x y : Word) : Word := if serialAfter x y then x else y

/-- Records a page returns (18 R490). -/
def pageRecords (t : TailSt) (fromNewest : Bool) (req : Word) : List (Nat × TailRec) :=
  let l := (logOrdered t).filter (fun p => p.2.complete)
  match l.head? with
  | none => []
  | some o =>
    let clear := t.clearSeq.getD o.2.seq
    let lo := laterSeq clear o.2.seq
    if fromNewest then lastN 127 (l.filter (fun p => notBefore p.2.seq lo))
    else (l.filter (fun p => notBefore p.2.seq (laterSeq req lo))).take 127

/-- Slots passed over between the records of a page. -/
def slotsSkipped : List (Nat × TailRec) → Nat
  | p :: q :: t => (q.1 + logSlots - p.1 - 1) % logSlots + slotsSkipped (q :: t)
  | _ => 0

/-- Words of a filled page without its CHECK: H0 to H6 and the 127 places. -/
def pageWords (t : TailSt) (h0 h1 : Word) : List Word × List Word :=
  let rs := pageRecords t (bitOf h1 31) h0
  let all := (logOrdered t).filter (fun p => p.2.complete)
  let oldest : Word := (all.head?.map (fun p => p.2.seq)).getD 0
  let newest : Word := (all.getLast?.map (fun p => p.2.seq)).getD 0
  let first : Word := (rs.head?.map (fun p => p.2.seq)).getD 0
  let body := rs.flatMap (fun p => recordWords p.1 p.2)
  ([h0, (b2v (bitOf h1 31) ++ 0#23 ++ BitVec.ofNat 8 rs.length : BitVec 32), first, newest, laterSeq (t.clearSeq.getD oldest) oldest, oldest,
    BitVec.ofNat 32 (min (slotsSkipped rs) 65535)], body ++ List.replicate (1016 - body.length) 0)

/-- RECORDER_PAGE_REQUEST: a page with the device is filled and handed back. -/
def execRecorderPageRequest (page : Nat) (s : State) : Host.Outcome State Fault Refusal :=
  let a := recAddr page
  let q := pageWords s.tail (memWord s.win.mem a) (memWord s.win.mem (a + 4))
  .next (if s.win.alive && decide (page < 16) && decide (winFlag s.win (flREC + page) = ownDEVICE) then
           onWin (fun w => handBack (flREC + page) { w with mem := memPutWords w.mem a (q.1 ++ [slotCheck a (q.1 ++ q.2)] ++ q.2) }) s
         else s)

end Sys2Proof.Machine
end

