-- ==== Sys2Proof/Machine/Dispatch.lean ====
section
/-!
DEFINITION. One arm for each command: a direct call of its meaning.
-/

namespace Sys2Proof.Machine

/-- The effect of a command on everything but the queue. -/
def exec (i : Instr) (s : State) : Host.Outcome State Fault Refusal :=
  match i with
  | .logicSupplyQualified si => Sys2Proof.Machine.execLogicSupplyQualified si s
  | .bistComplete unit_ dieMatch bridleMatch => Sys2Proof.Machine.execBistComplete unit_ dieMatch bridleMatch s
  | .logicSupplyLost ci => Sys2Proof.Machine.execLogicSupplyLost ci s
  | .railFault ci domain => Sys2Proof.Machine.execRailFault ci domain s
  | .channelDomainOff => Sys2Proof.Machine.execChannelDomainOff s
  | .cycleBoundary bi => Sys2Proof.Machine.execCycleBoundary bi s
  | .cycleStartMessage d ok => Sys2Proof.Machine.execCycleStartMessage d ok s
  | .wakeLate d => Sys2Proof.Machine.execWakeLate d s
  | .cycleStartAck d dieCount slkCount => Sys2Proof.Machine.execCycleStartAck d dieCount slkCount s
  | .sample => Sys2Proof.Machine.execSample s
  | .rulesIn d => Sys2Proof.Machine.execRulesIn d s
  | .propagate d => Sys2Proof.Machine.execPropagate d s
  | .waveEnd d => Sys2Proof.Machine.execWaveEnd d s
  | .waveCut d loaded => Sys2Proof.Machine.execWaveCut d loaded s
  | .rulesOut d => Sys2Proof.Machine.execRulesOut d s
  | .commit d ci => Sys2Proof.Machine.execCommit d ci s
  | .deadline hw => Sys2Proof.Machine.execDeadline hw s
  | .commitBlockArrival d r rxH rxL hw => Sys2Proof.Machine.execCommitBlockArrival d r rxH rxL hw s
  | .pumpFault ci detail => Sys2Proof.Machine.execPumpFault ci detail s
  | .aoWatchdog ci => Sys2Proof.Machine.execAoWatchdog ci s
  | .overtemp ci detail => Sys2Proof.Machine.execOvertemp ci detail s
  | .noLoop ci o => Sys2Proof.Machine.execNoLoop ci o s
  | .pumpEdgeTimeout o high => Sys2Proof.Machine.execPumpEdgeTimeout o high s
  | .autoRestart si hottest => Sys2Proof.Machine.execAutoRestart si hottest s
  | .inputWindowEnd g samples linkH linkL => Sys2Proof.Machine.execInputWindowEnd g samples linkH linkL s
  | .discrepancyLatched half pair => Sys2Proof.Machine.execDiscrepancyLatched half pair s
  | .discrepancyCleared half pair rawEven rawOdd => Sys2Proof.Machine.execDiscrepancyCleared half pair rawEven rawOdd s
  | .inputFaultClear n linkH linkL => Sys2Proof.Machine.execInputFaultClear n linkH linkL s
  | .inputEvent d => Sys2Proof.Machine.execInputEvent d s
  | .revertOverrun d r => Sys2Proof.Machine.execRevertOverrun d r s
  | .rulesOverrun d r => Sys2Proof.Machine.execRulesOverrun d r s
  | .realClockHalt d r => Sys2Proof.Machine.execRealClockHalt d r s
  | .pairMismatch d r clock lines => Sys2Proof.Machine.execPairMismatch d r clock lines s
  | .checkerFault d r clock => Sys2Proof.Machine.execCheckerFault d r clock s
  | .sliceComplete d dieMatch bridleMatch => Sys2Proof.Machine.execSliceComplete d dieMatch bridleMatch s
  | .rejoinPassComplete d r room => Sys2Proof.Machine.execRejoinPassComplete d r room s
  | .rejoinLimit d r => Sys2Proof.Machine.execRejoinLimit d r s
  | .loadComplete bankOk => Sys2Proof.Machine.execLoadComplete bankOk s
  | .dropRequest d o => Sys2Proof.Machine.execDropRequest d o s
  | .readbackWindowEnd samples fs => Sys2Proof.Machine.execReadbackWindowEnd samples fs s
  | .hsDarkStep o plus met => Sys2Proof.Machine.execHsDarkStep o plus met s
  | .lsDarkStep o minus met => Sys2Proof.Machine.execLsDarkStep o minus met s
  | .lightStep o samples met => Sys2Proof.Machine.execLightStep o samples met s
  | .overload o us => Sys2Proof.Machine.execOverload o us s
  | .lockClear o => Sys2Proof.Machine.execLockClear o s
  | .groupLow g q => Sys2Proof.Machine.execGroupLow g q s
  | .lowCleared g q => Sys2Proof.Machine.execLowCleared g q s
  | .groupCut g q => Sys2Proof.Machine.execGroupCut g q s
  | .groupRestored g q => Sys2Proof.Machine.execGroupRestored g q s
  | .gondolaHalfStopped half => Sys2Proof.Machine.execGondolaHalfStopped half s
  | .idleTelegram p t => Sys2Proof.Machine.execIdleTelegram p t s
  | .appTelegram p t => Sys2Proof.Machine.execAppTelegram p t s
  | .cellsTelegram p t => Sys2Proof.Machine.execCellsTelegram p t s
  | .terrTelegram p t => Sys2Proof.Machine.execTerrTelegram p t s
  | .fieldTelegram p t => Sys2Proof.Machine.execFieldTelegram p t s
  | .heartTelegram p t => Sys2Proof.Machine.execHeartTelegram p t s
  | .timeTelegram p t => Sys2Proof.Machine.execTimeTelegram p t s
  | .diagTelegram p t => Sys2Proof.Machine.execDiagTelegram p t s
  | .pmcSetup p t => Sys2Proof.Machine.execPmcSetup p t s
  | .transferBlock p t => Sys2Proof.Machine.execTransferBlock p t s
  | .transferRoutes p t => Sys2Proof.Machine.execTransferRoutes p t s
  | .transferModule p t => Sys2Proof.Machine.execTransferModule p t s
  | .transferEnd p t => Sys2Proof.Machine.execTransferEnd p t s
  | .transferKindInvalid p t => Sys2Proof.Machine.execTransferKindInvalid p t s
  | .telegramTypeUndefined p t => Sys2Proof.Machine.execTelegramTypeUndefined p t s
  | .frameNotAfno p f => Sys2Proof.Machine.execFrameNotAfno p f s
  | .arpRequest p ip => Sys2Proof.Machine.execArpRequest p ip s
  | .arpRefresh p => Sys2Proof.Machine.execArpRefresh p s
  | .frameTransmitted p => Sys2Proof.Machine.execFrameTransmitted p s
  | .stalledWriteAccepted sp => Sys2Proof.Machine.execStalledWriteAccepted sp s
  | .linkLost n => Sys2Proof.Machine.execLinkLost n s
  | .linkUp n => Sys2Proof.Machine.execLinkUp n s
  | .netDown n => Sys2Proof.Machine.execNetDown n s
  | .telegramAgeExpired d n => Sys2Proof.Machine.execTelegramAgeExpired d n s
  | .cycleApartRecord => Sys2Proof.Machine.execCycleApartRecord s
  | .terrProbe d => Sys2Proof.Machine.execTerrProbe d s
  | .terrCommit d => Sys2Proof.Machine.execTerrCommit d s
  | .terrEntered d => Sys2Proof.Machine.execTerrEntered d s
  | .terrRelease d => Sys2Proof.Machine.execTerrRelease d s
  | .terrCancel d => Sys2Proof.Machine.execTerrCancel d s
  | .terrProbed d => Sys2Proof.Machine.execTerrProbed d s
  | .terrNack d => Sys2Proof.Machine.execTerrNack d s
  | .terrHeld d => Sys2Proof.Machine.execTerrHeld d s
  | .terrReleased d => Sys2Proof.Machine.execTerrReleased d s
  | .terrOpUndefined d => Sys2Proof.Machine.execTerrOpUndefined d s
  | .terrAbsent d k => Sys2Proof.Machine.execTerrAbsent d k s
  | .remoteTimeout d k => Sys2Proof.Machine.execRemoteTimeout d k s
  | .probe d t => Sys2Proof.Machine.execProbe d t s
  | .hold d t => Sys2Proof.Machine.execHold d t s
  | .nack d t => Sys2Proof.Machine.execNack d t s
  | .commitToken d t => Sys2Proof.Machine.execCommitToken d t s
  | .lockedAck d t => Sys2Proof.Machine.execLockedAck d t s
  | .flankSeek d t => Sys2Proof.Machine.execFlankSeek d t s
  | .flankFound d t => Sys2Proof.Machine.execFlankFound d t s
  | .flankNone d t => Sys2Proof.Machine.execFlankNone d t s
  | .releaseToken d t => Sys2Proof.Machine.execReleaseToken d t s
  | .cancel d t => Sys2Proof.Machine.execCancel d t s
  | .tokenTypeInvalid d t => Sys2Proof.Machine.execTokenTypeInvalid d t s
  | .timerExpired d n k => Sys2Proof.Machine.execTimerExpired d n k s
  | .claimInStatic => Sys2Proof.Machine.execClaimInStatic s
  | .claimInLive invalid => Sys2Proof.Machine.execClaimInLive invalid s
  | .claimOutFault => Sys2Proof.Machine.execClaimOutFault s
  | .negotiationTimeout => Sys2Proof.Machine.execNegotiationTimeout s
  | .takeover => Sys2Proof.Machine.execTakeover s
  | .yieldRefused => Sys2Proof.Machine.execYieldRefused s
  | .claimLine => Sys2Proof.Machine.execClaimLine s
  | .transferLimit => Sys2Proof.Machine.execTransferLimit s
  | .transferRetry => Sys2Proof.Machine.execTransferRetry s
  | .prefConflictRecord => Sys2Proof.Machine.execPrefConflictRecord s
  | .resetAsserted src => Sys2Proof.Machine.execResetAsserted src s
  | .resetReleased src si => Sys2Proof.Machine.execResetReleased src si s
  | .resetHeld src ci => Sys2Proof.Machine.execResetHeld src ci s
  | .resetStuck src => Sys2Proof.Machine.execResetStuck src s
  | .shdnAsserted si => Sys2Proof.Machine.execShdnAsserted si s
  | .shdnReleased si => Sys2Proof.Machine.execShdnReleased si s
  | .resetSourcesFreed si => Sys2Proof.Machine.execResetSourcesFreed si s
  | .shutdownBistComplete tests bridleOk si => Sys2Proof.Machine.execShutdownBistComplete tests bridleOk si s
  | .coverOpen => Sys2Proof.Machine.execCoverOpen s
  | .coverClosed => Sys2Proof.Machine.execCoverClosed s
  | .sealRead contacts => Sys2Proof.Machine.execSealRead contacts s
  | .carrierRemoved => Sys2Proof.Machine.execCarrierRemoved s
  | .carrierInserted c => Sys2Proof.Machine.execCarrierInserted c s
  | .forceExpiry f => Sys2Proof.Machine.execForceExpiry f s
  | .pendingExpiry d r e => Sys2Proof.Machine.execPendingExpiry d r e s
  | .ldw d r rd ra imm ecc => Sys2Proof.Machine.execLdw d r rd ra imm ecc s
  | .ldh d r rd ra imm ecc => Sys2Proof.Machine.execLdh d r rd ra imm ecc s
  | .ldb d r rd ra imm ecc => Sys2Proof.Machine.execLdb d r rd ra imm ecc s
  | .stw d r rd ra imm => Sys2Proof.Machine.execStw d r rd ra imm s
  | .sth d r rd ra imm => Sys2Proof.Machine.execSth d r rd ra imm s
  | .stb d r rd ra imm => Sys2Proof.Machine.execStb d r rd ra imm s
  | .lui d r rd imm => Sys2Proof.Machine.execLui d r rd imm s
  | .addi d r rd ra imm => Sys2Proof.Machine.execAddi d r rd ra imm s
  | .andi d r rd ra imm => Sys2Proof.Machine.execAndi d r rd ra imm s
  | .ori d r rd ra imm => Sys2Proof.Machine.execOri d r rd ra imm s
  | .xori d r rd ra imm => Sys2Proof.Machine.execXori d r rd ra imm s
  | .andr d r rd ra rb => Sys2Proof.Machine.execAndr d r rd ra rb s
  | .orr d r rd ra rb => Sys2Proof.Machine.execOrr d r rd ra rb s
  | .xorr d r rd ra rb => Sys2Proof.Machine.execXorr d r rd ra rb s
  | .andn d r rd ra rb => Sys2Proof.Machine.execAndn d r rd ra rb s
  | .add d r rd ra rb => Sys2Proof.Machine.execAdd d r rd ra rb s
  | .sub d r rd ra rb => Sys2Proof.Machine.execSub d r rd ra rb s
  | .shl d r rd ra rb => Sys2Proof.Machine.execShl d r rd ra rb s
  | .shr d r rd ra rb => Sys2Proof.Machine.execShr d r rd ra rb s
  | .sar d r rd ra rb => Sys2Proof.Machine.execSar d r rd ra rb s
  | .ceq d r rd ra rb => Sys2Proof.Machine.execCeq d r rd ra rb s
  | .clt d r rd ra rb => Sys2Proof.Machine.execClt d r rd ra rb s
  | .cltu d r rd ra rb => Sys2Proof.Machine.execCltu d r rd ra rb s
  | .ceqi d r rd ra imm => Sys2Proof.Machine.execCeqi d r rd ra imm s
  | .cltui d r rd ra imm => Sys2Proof.Machine.execCltui d r rd ra imm s
  | .bz d r rd imm => Sys2Proof.Machine.execBz d r rd imm s
  | .bnz d r rd imm => Sys2Proof.Machine.execBnz d r rd imm s
  | .beq d r rd ra imm => Sys2Proof.Machine.execBeq d r rd ra imm s
  | .bne d r rd ra imm => Sys2Proof.Machine.execBne d r rd ra imm s
  | .jal d r rd imm => Sys2Proof.Machine.execJal d r rd imm s
  | .jr d r ra => Sys2Proof.Machine.execJr d r ra s
  | .crd d r rd ra f => Sys2Proof.Machine.execCrd d r rd ra f s
  | .cwr d r rd ra rb f => Sys2Proof.Machine.execCwr d r rd ra rb f s
  | .cfc d r rd ra rb f => Sys2Proof.Machine.execCfc d r rd ra rb f s
  | .ird d r rd ra k => Sys2Proof.Machine.execIrd d r rd ra k s
  | .owr d r ra rb k => Sys2Proof.Machine.execOwr d r ra rb k s
  | .tst d r ra rb k => Sys2Proof.Machine.execTst d r ra rb k s
  | .tsp d r ra k => Sys2Proof.Machine.execTsp d r ra k s
  | .drop d r ra k => Sys2Proof.Machine.execDrop d r ra k s
  | .ewait d r rd => Sys2Proof.Machine.execEwait d r rd s
  | .dacc d r ra => Sys2Proof.Machine.execDacc d r ra s
  | .illegal d r w => Sys2Proof.Machine.execIllegal d r w s
  | .write addr bytes cut => Sys2Proof.Machine.execWrite addr bytes cut s
  | .status => Sys2Proof.Machine.execStatus s
  | .read addr count cut => Sys2Proof.Machine.execRead addr count cut s
  | .qwrite addr bytes cut => Sys2Proof.Machine.execQwrite addr bytes cut s
  | .ident => Sys2Proof.Machine.execIdent s
  | .qread addr count cut => Sys2Proof.Machine.execQread addr count cut s
  | .portCommandInvalid code => Sys2Proof.Machine.execPortCommandInvalid code s
  | .portTransferTimeout => Sys2Proof.Machine.execPortTransferTimeout s
  | .winIrqRead => Sys2Proof.Machine.execWinIrqRead s
  | .requestPoll => Sys2Proof.Machine.execRequestPoll s
  | .signatureCheckDone slot => Sys2Proof.Machine.execSignatureCheckDone slot s
  | .stagingPageTimeout page => Sys2Proof.Machine.execStagingPageTimeout page s
  | .routeSet d => Sys2Proof.Machine.execRouteSet d s
  | .routeCancel d => Sys2Proof.Machine.execRouteCancel d s
  | .pointCall d => Sys2Proof.Machine.execPointCall d s
  | .block d => Sys2Proof.Machine.execBlock d s
  | .unblock d => Sys2Proof.Machine.execUnblock d s
  | .signalReplace d => Sys2Proof.Machine.execSignalReplace d s
  | .emergRelease d => Sys2Proof.Machine.execEmergRelease d s
  | .emergReleaseConfirm d => Sys2Proof.Machine.execEmergReleaseConfirm d s
  | .sectionRestore d => Sys2Proof.Machine.execSectionRestore d s
  | .sectionRestoreConfirm d => Sys2Proof.Machine.execSectionRestoreConfirm d s
  | .forceSet d => Sys2Proof.Machine.execForceSet d s
  | .forceClear d => Sys2Proof.Machine.execForceClear d s
  | .clearRecorder slot => Sys2Proof.Machine.execClearRecorder slot s
  | .stageUpdateOpen slot => Sys2Proof.Machine.execStageUpdateOpen slot s
  | .stageUpdateWrite slot => Sys2Proof.Machine.execStageUpdateWrite slot s
  | .stageUpdateClose slot => Sys2Proof.Machine.execStageUpdateClose slot s
  | .confirmUpdate slot => Sys2Proof.Machine.execConfirmUpdate slot s
  | .onlineChange d => Sys2Proof.Machine.execOnlineChange d s
  | .handover d => Sys2Proof.Machine.execHandover d s
  | .requestCmdUndefined slot => Sys2Proof.Machine.execRequestCmdUndefined slot s
  | .recorderPageRequest page => Sys2Proof.Machine.execRecorderPageRequest page s
  | .tailRecordWritten => Sys2Proof.Machine.execTailRecordWritten s
  | .tailBlockErased => Sys2Proof.Machine.execTailBlockErased s
  | .suppressedSummary code => Sys2Proof.Machine.execSuppressedSummary code s
  | .rtcWriteback => Sys2Proof.Machine.execRtcWriteback s
  | .spoolMark sp => Sys2Proof.Machine.execSpoolMark sp s
  | .spoolRewind sp => Sys2Proof.Machine.execSpoolRewind sp s
  | .spoolRelease sp => Sys2Proof.Machine.execSpoolRelease sp s
  | .spoolAbort sp => Sys2Proof.Machine.execSpoolAbort sp s
  | .checkRestart u writer set_ foldLen => Sys2Proof.Machine.execCheckRestart u writer set_ foldLen s
  | .checkData u writer w => Sys2Proof.Machine.execCheckData u writer w s
  | .checkData8 u writer b => Sys2Proof.Machine.execCheckData8 u writer b s
  | .checkExpect u writer w => Sys2Proof.Machine.execCheckExpect u writer w s
  | .checkExpectHi u writer w => Sys2Proof.Machine.execCheckExpectHi u writer w s
  | .registerWrite q => Sys2Proof.Machine.execRegisterWrite q s
  | .pmcOverflow d r n skidPc ended => Sys2Proof.Machine.execPmcOverflow d r n skidPc ended s
  | .pmcCycLoRead d r => Sys2Proof.Machine.execPmcCycLoRead d r s
  | .carrierWriteComplete done => Sys2Proof.Machine.execCarrierWriteComplete done s
  | .arpReply p ip => Sys2Proof.Machine.execArpReply p ip s
  | .portUp p phy => Sys2Proof.Machine.execPortUp p phy s
  | .portDown p => Sys2Proof.Machine.execPortDown p s
  | .supplySag g q => Sys2Proof.Machine.execSupplySag g q s

end Sys2Proof.Machine
end

