-- ==== Sys2Proof/Machine/Tick.lean ====
section
/-!
DEFINITION. Time: what passes when no command waits (13 R404, 18 R485, R488).
-/

namespace Sys2Proof.Machine

/-- One millisecond outside DORMANT: the count, the buckets of the limiter and the time base. In DORMANT one XO32 period. -/
def tick (s : State) : State :=
  if s.mode = .dormant then onAo aoTickDormant s
  else onTail (fun t => timeTick (tailRefill s.part.rates t)) (onAo aoTick s)

end Sys2Proof.Machine
end

