-- ==== Sys2Proof/Safety.lean ====
section
/-!
DEFINITION. The terms in which claims about the module are made: a command that answers a next state, what two states share
(frames), and what a safe module keeps at every step.
-/

namespace Sys2Proof.Machine

/-! ## Answers -/

/-- The command answers a next state, and `P` holds of it. -/
def Answers (i : Instr) (s : State) (P : State → Prop) : Prop := ∃ t, exec i s = .next t ∧ P t

/-! ## Frames of rule code (05 R172, R188) -/

/-- Two dies agree on everything but region `r`. -/
def SameButRegion (r : Nat) (x y : DieSt) : Prop :=
  y = { x with regions := y.regions } ∧ ∀ q, q ≠ r → reg y q = reg x q

/-- The module differs at most in region `r` of die `d`. Tail records that the die had raised before may leave it for the tail. -/
def RegionStep (d : Die) (r : Nat) (s t : State) : Prop :=
  t = { s with dies := t.dies, tail := t.tail } ∧ ((dieOf s d).logOut = [] → t.tail = s.tail) ∧
    (∀ e, e ≠ d → dieOf t e = dieOf s e) ∧ SameButRegion r { dieOf s d with logOut := [] } (dieOf t d)

/-- The module differs at most in region `r` of die `d` and in the cells of that region, whose blocks may become dirty. -/
def CellStep (d : Die) (r : Nat) (s t : State) : Prop :=
  t = { s with dies := t.dies, tail := t.tail } ∧ ((dieOf s d).logOut = [] → t.tail = s.tail) ∧
    (∀ e, e ≠ d → dieOf t e = dieOf s e) ∧
    dieOf t d = { dieOf s d with regions := (dieOf t d).regions, cells := (dieOf t d).cells, dirtyCells := (dieOf t d).dirtyCells,
                                 logOut := [] } ∧
    ∀ q, q ≠ r → reg (dieOf t d) q = reg (dieOf s d) q

/-- A stop of a task or run: the module differs at most in region `r` of die `d`, in the records that reach the tail, and in the die's
fast clock, which may rest once no run lasts. -/
def StopStep (d : Die) (r : Nat) (s t : State) : Prop :=
  t = { s with dies := t.dies, tail := t.tail } ∧ (∀ e, e ≠ d → dieOf t e = dieOf s e) ∧
    dieOf t d = { dieOf s d with regions := (dieOf t d).regions, fastClock := (dieOf t d).fastClock, logOut := [] } ∧
    ∀ q, q ≠ r → reg (dieOf t d) q = reg (dieOf s d) q

/-- The running register set alone may differ, with its PC and charge: the other set, memory, supervisor data, traps and flags are as
before. The performance counters may count, and one that wraps posts its source 200 to 207 (19 R497). -/
def RegistersOnly (a b : RegionSt) : Prop :=
  b = { a with g := b.g, rg := b.rg, pc := b.pc, rpc := b.rpc, charge := b.charge, rcharge := b.rcharge, pmc := b.pmc,
               posted := b.posted } ∧
    (if a.revert then b.g = a.g ∧ b.pc = a.pc ∧ b.charge = a.charge
     else b.rg = a.rg ∧ b.rpc = a.rpc ∧ b.rcharge = a.rcharge) ∧
    ∀ src, src < 200 ∨ 208 ≤ src → bitOf b.posted src = bitOf a.posted src

/-- Every register of the running set but `n` reads as before. -/
def OtherRegisters (n r : Nat) (x y : DieSt) : Prop := ∀ k, k ≠ n → rget y r k = rget x r k

/-- PC and charge after an instruction of charge `c` that is followed by the next word. -/
def Advances (r c : Nat) (x y : DieSt) : Prop :=
  curPc y r = (curPc x r + 4) % 2 ^ 17 ∧ curCharge y r = curCharge x r + c

/-- The rows of rule code (05 Tables 5.6, 5.7). -/
def isRuleCode : Instr → Bool
  | .ldw .. | .ldh .. | .ldb .. | .stw .. | .sth .. | .stb .. | .lui .. | .addi .. | .andi .. | .ori .. | .xori .. | .andr .. | .orr ..
  | .xorr .. | .andn .. | .add .. | .sub .. | .shl .. | .shr .. | .sar .. | .ceq .. | .clt .. | .cltu .. | .ceqi .. | .cltui .. | .bz ..
  | .bnz .. | .beq .. | .bne .. | .jal .. | .jr .. | .crd .. | .cwr .. | .cfc .. | .ird .. | .owr .. | .tst .. | .tsp .. | .drop ..
  | .ewait .. | .dacc .. | .illegal .. => true
  | _ => false

/-- Die, region and word of a row of rule code (05 Tables 5.7, 5.10). -/
def insWord : Instr → Option (Die × Nat × Word)
  | .ldw d r rd ra imm _ => some (d, r, wordI 0x01 rd ra imm)
  | .ldh d r rd ra imm _ => some (d, r, wordI 0x02 rd ra imm)
  | .ldb d r rd ra imm _ => some (d, r, wordI 0x03 rd ra imm)
  | .stw d r rd ra imm => some (d, r, wordI 0x04 rd ra imm)
  | .sth d r rd ra imm => some (d, r, wordI 0x05 rd ra imm)
  | .stb d r rd ra imm => some (d, r, wordI 0x06 rd ra imm)
  | .lui d r rd imm => some (d, r, wordI 0x08 rd 0 (imm.setWidth 18))
  | .addi d r rd ra imm => some (d, r, wordI 0x09 rd ra imm)
  | .andi d r rd ra imm => some (d, r, wordI 0x0A rd ra (imm.setWidth 18))
  | .ori d r rd ra imm => some (d, r, wordI 0x0B rd ra (imm.setWidth 18))
  | .xori d r rd ra imm => some (d, r, wordI 0x0C rd ra (imm.setWidth 18))
  | .andr d r rd ra rb => some (d, r, wordR 0x10 rd ra rb)
  | .orr d r rd ra rb => some (d, r, wordR 0x11 rd ra rb)
  | .xorr d r rd ra rb => some (d, r, wordR 0x12 rd ra rb)
  | .andn d r rd ra rb => some (d, r, wordR 0x13 rd ra rb)
  | .add d r rd ra rb => some (d, r, wordR 0x14 rd ra rb)
  | .sub d r rd ra rb => some (d, r, wordR 0x15 rd ra rb)
  | .shl d r rd ra rb => some (d, r, wordR 0x16 rd ra rb)
  | .shr d r rd ra rb => some (d, r, wordR 0x17 rd ra rb)
  | .sar d r rd ra rb => some (d, r, wordR 0x18 rd ra rb)
  | .ceq d r rd ra rb => some (d, r, wordR 0x1A rd ra rb)
  | .clt d r rd ra rb => some (d, r, wordR 0x1B rd ra rb)
  | .cltu d r rd ra rb => some (d, r, wordR 0x1C rd ra rb)
  | .ceqi d r rd ra imm => some (d, r, wordI 0x1D rd ra (imm.setWidth 18))
  | .cltui d r rd ra imm => some (d, r, wordI 0x1E rd ra (imm.setWidth 18))
  | .bz d r a off => some (d, r, wordI 0x20 a 0 off)
  | .bnz d r a off => some (d, r, wordI 0x21 a 0 off)
  | .beq d r a b off => some (d, r, wordI 0x22 a b off)
  | .bne d r a b off => some (d, r, wordI 0x23 a b off)
  | .jal d r rd imm => some (d, r, wordI 0x24 rd 0 imm)
  | .jr d r ra => some (d, r, wordR 0x25 0 ra 0)
  | .crd d r rd ra f => some (d, r, wordC 0x28 rd ra 0 f 0)
  | .cwr d r rd ra rb f => some (d, r, wordC 0x29 rd ra rb f 0)
  | .cfc d r rd ra rb f => some (d, r, wordC 0x2A rd ra rb f 0)
  | .ird d r rd ra k => some (d, r, wordC 0x2B rd ra 0 0 k)
  | .owr d r ra rb k => some (d, r, wordC 0x2C 0 ra rb 0 k)
  | .tst d r ra rb k => some (d, r, wordC 0x2D 0 ra rb 0 (k.setWidth 3))
  | .tsp d r ra k => some (d, r, wordC 0x2E 0 ra 0 0 (k.setWidth 3))
  | .drop d r ra k => some (d, r, wordC 0x2F 0 ra 0 0 k)
  | .ewait d r rd => some (d, r, wordR 0x30 rd 0 0)
  | .dacc d r ra => some (d, r, wordR 0x31 0 ra 0)
  | .illegal d r w => some (d, r, w)
  | _ => none

/-- A row of rule code is the instruction that its pair fetches at PC (05 R187); fields that the operation does not use are open. -/
def Fetched (i : Instr) (s : State) : Prop :=
  ∀ d r w, insWord i = some (d, r, w) → insKey (fetchedWord (dieOf s d) r) = insKey w

/-- The instruction that the pair fetches answers a next state, and `P` holds of it. -/
def Executes (i : Instr) (s : State) (P : State → Prop) : Prop := Fetched i s → Answers i s P

/-- Registers of the set that runs in region `r` of die `d`. -/
def gReg (s : State) (d : Die) (r : Nat) (n : BitVec 4) : Word := rget (dieOf s d) r n.toNat

/-- Table 5.7 for the instructions that compute one register from others: where they run, rd, and the value it takes. -/
def aluResult (s : State) : Instr → Option (Die × Nat × BitVec 4 × Word)
  | .lui d r rd imm => some (d, r, rd, imm.setWidth 32 <<< 16)
  | .addi d r rd ra imm => some (d, r, rd, gReg s d r ra + imm.signExtend 32)
  | .andi d r rd ra imm => some (d, r, rd, gReg s d r ra &&& imm.setWidth 32)
  | .ori d r rd ra imm => some (d, r, rd, gReg s d r ra ||| imm.setWidth 32)
  | .xori d r rd ra imm => some (d, r, rd, gReg s d r ra ^^^ imm.setWidth 32)
  | .andr d r rd ra rb => some (d, r, rd, gReg s d r ra &&& gReg s d r rb)
  | .orr d r rd ra rb => some (d, r, rd, gReg s d r ra ||| gReg s d r rb)
  | .xorr d r rd ra rb => some (d, r, rd, gReg s d r ra ^^^ gReg s d r rb)
  | .andn d r rd ra rb => some (d, r, rd, gReg s d r ra &&& ~~~gReg s d r rb)
  | .add d r rd ra rb => some (d, r, rd, gReg s d r ra + gReg s d r rb)
  | .sub d r rd ra rb => some (d, r, rd, gReg s d r ra - gReg s d r rb)
  | .shl d r rd ra rb => some (d, r, rd, gReg s d r ra <<< ((gReg s d r rb).toNat % 32))
  | .shr d r rd ra rb => some (d, r, rd, gReg s d r ra >>> ((gReg s d r rb).toNat % 32))
  | .sar d r rd ra rb => some (d, r, rd, (gReg s d r ra).sshiftRight ((gReg s d r rb).toNat % 32))
  | .ceq d r rd ra rb => some (d, r, rd, if gReg s d r ra = gReg s d r rb then 1 else 0)
  | .clt d r rd ra rb => some (d, r, rd, if (gReg s d r ra).toInt < (gReg s d r rb).toInt then 1 else 0)
  | .cltu d r rd ra rb => some (d, r, rd, if (gReg s d r ra).toNat < (gReg s d r rb).toNat then 1 else 0)
  | .ceqi d r rd ra imm => some (d, r, rd, if (gReg s d r ra).toNat = imm.toNat then 1 else 0)
  | .cltui d r rd ra imm => some (d, r, rd, if (gReg s d r ra).toNat < imm.toNat then 1 else 0)
  | _ => none

/-- Branches of Table 5.7: where they run, whether the condition holds, and the offset in words. -/
def branchOf (s : State) : Instr → Option (Die × Nat × Bool × BitVec 18)
  | .bz d r a off => some (d, r, decide (gReg s d r a = 0), off)
  | .bnz d r a off => some (d, r, decide (gReg s d r a ≠ 0), off)
  | .beq d r a b off => some (d, r, decide (gReg s d r a = gReg s d r b), off)
  | .bne d r a b off => some (d, r, decide (gReg s d r a ≠ gReg s d r b), off)
  | _ => none

/-- A place of the code (05 R188): from 0x0020 to code length − 4. -/
def codePlace (s : State) (d : Die) (r : Nat) (t : Int) : Prop := 0x20 ≤ t ∧ t ≤ (codeLen (dieOf s d) r : Int) - 4

/-- The instruction is executed and the next word is a place of the code: a task runs, the budget holds charge `c`, and the fall-through
stays in range. -/
def FallsThrough (s : State) (d : Die) (r c : Nat) : Prop :=
  insGoes s d r c = true ∧ codePlace s d r (curPc (dieOf s d) r + 4)

/-- Address of a load or store (05 Table 5.7): ra + sext(imm). -/
def memAddr (s : State) (d : Die) (r : Nat) (ra : BitVec 4) (imm : BitVec 18) : Nat := (gReg s d r ra + imm.signExtend 32).toNat

/-- Loads of Table 5.7: where they run, rd, address, bytes, and what SECDED makes of the read. -/
def loadOf (s : State) : Instr → Option (Die × Nat × BitVec 4 × Nat × Nat × Ecc)
  | .ldw d r rd ra imm e => some (d, r, rd, memAddr s d r ra imm, 4, e)
  | .ldh d r rd ra imm e => some (d, r, rd, memAddr s d r ra imm, 2, e)
  | .ldb d r rd ra imm e => some (d, r, rd, memAddr s d r ra imm, 1, e)
  | _ => none

/-- Stores of Table 5.7: where they run, address, bytes, and the register stored. -/
def storeOf (s : State) : Instr → Option (Die × Nat × Nat × Nat × Word)
  | .stw d r rd ra imm => some (d, r, memAddr s d r ra imm, 4, gReg s d r rd)
  | .sth d r rd ra imm => some (d, r, memAddr s d r ra imm, 2, gReg s d r rd)
  | .stb d r rd ra imm => some (d, r, memAddr s d r ra imm, 1, gReg s d r rd)
  | _ => none

/-- The lowest trap cause that a load meets (05 Table 5.11). -/
def loadTrap (x : DieSt) (r a n : Nat) : Option (BitVec 8) :=
  if a % n ≠ 0 then some cALIGN
  else if loadArea x r a = .none then some cADDR
  else if loadArea x r a = .sup then some cREG
  else none

/-- The lowest trap cause that a store meets; in REVERT the restriction of that task comes first (05 R194). -/
def storeTrap (x : DieSt) (r a n : Nat) : Option (BitVec 8) :=
  if inRevert x r && decide (storeArea x r a = .none) then some cREVERT
  else if a % n ≠ 0 then some cALIGN
  else if storeArea x r a = .none then some cADDR
  else if storeArea x r a = .rr && !(decide (0x200004 ≤ a) && decide (a < 0x200008)) then some cREG
  else none

/-- Target of a jump that is no place of the code, or is not word-aligned (05 R188). -/
def jumpTrap (s : State) (d : Die) (r : Nat) (t : Int) (aligned : Bool) : Option (BitVec 8) :=
  if t < 0x20 ∨ (codeLen (dieOf s d) r : Int) - 4 < t then some cPCRANGE else if aligned then none else some cALIGN

/-- The lowest cause that a write of a cell's record meets (05 Table 5.11): in REVERT its restriction, in PROPAGATE the phase, another
region's cell, an ID out of range or a cell of class UNUSED. -/
def cellTrap (x : DieSt) (r : Nat) (w : Word) : Option (BitVec 8) :=
  let id := (w.extractLsb' 0 12).toNat
  if inRevert x r && !inPropagate x then some cREVERT
  else if inPropagate x then some cCELLPHASE
  else if w.toNat < 4096 && regionOf id ≠ r then some cCELLFOREIGN
  else if 4096 ≤ w.toNat || isCls .unused (getCell x id) then some cCELLRANGE
  else none

/-- The lowest cause that OWR and DROP meet: a cell of another region, an ID out of range, an output that the cell does not bind here. -/
def outTrap (r : Nat) (w : Word) (c : CellRec) (k : Nat) : Option (BitVec 8) :=
  if w.toNat < 4096 && regionOf (w.extractLsb' 0 12).toNat ≠ r then some cCELLFOREIGN
  else if 4096 ≤ w.toNat then some cCELLRANGE
  else if outCount c ≤ k || bindRemote c then some cIOBIND
  else none

/-- The cell that a register names. -/
def namedCell (s : State) (d : Die) (r : Nat) (ra : BitVec 4) : CellRec := getCell (dieOf s d) ((gReg s d r ra).extractLsb' 0 12).toNat

/-- Charge of each row of rule code (05 Table 5.7). -/
def chargeOf (s : State) : Instr → Option (Die × Nat × Nat)
  | .ldw d r .. | .ldh d r .. | .ldb d r .. | .stw d r .. | .sth d r .. | .stb d r .. => some (d, r, 12)
  | .lui d r .. | .addi d r .. | .andi d r .. | .ori d r .. | .xori d r .. | .andr d r .. | .orr d r .. | .xorr d r .. | .andn d r ..
  | .add d r .. | .sub d r .. | .shl d r .. | .shr d r .. | .sar d r .. | .ceq d r .. | .clt d r .. | .cltu d r .. | .ceqi d r ..
  | .cltui d r .. => some (d, r, 1)
  | .bz d r .. | .bnz d r .. | .beq d r .. | .bne d r .. | .jal d r .. | .jr d r .. => some (d, r, 3)
  | .crd d r _ ra _ => some (d, r, if regionOf ((gReg s d r ra).extractLsb' 0 12).toNat = r then 14 else 48)
  | .cwr d r .. | .cfc d r .. | .tst d r .. | .tsp d r .. => some (d, r, 18)
  | .ird d r .. | .owr d r .. => some (d, r, 14)
  | .drop d r .. => some (d, r, 24)
  | .ewait d r .. => some (d, r, 10)
  | .dacc d r .. => some (d, r, 6)
  | _ => none

/-- Rows of rule code that meet a trap cause (05 Table 5.11): where, their charge and the lowest cause. -/
def trapOf (s : State) : Instr → Option (Die × Nat × Nat × BitVec 8)
  | .ldw d r _ ra imm _ => (loadTrap (dieOf s d) r (memAddr s d r ra imm) 4).map (fun c => (d, r, 12, c))
  | .ldh d r _ ra imm _ => (loadTrap (dieOf s d) r (memAddr s d r ra imm) 2).map (fun c => (d, r, 12, c))
  | .ldb d r _ ra imm _ => (loadTrap (dieOf s d) r (memAddr s d r ra imm) 1).map (fun c => (d, r, 12, c))
  | .stw d r _ ra imm => (storeTrap (dieOf s d) r (memAddr s d r ra imm) 4).map (fun c => (d, r, 12, c))
  | .sth d r _ ra imm => (storeTrap (dieOf s d) r (memAddr s d r ra imm) 2).map (fun c => (d, r, 12, c))
  | .stb d r _ ra imm => (storeTrap (dieOf s d) r (memAddr s d r ra imm) 1).map (fun c => (d, r, 12, c))
  | .jal d r _ imm => (jumpTrap s d r (curPc (dieOf s d) r + 4 * imm.toInt) true).map (fun c => (d, r, 3, c))
  | .jr d r ra =>
    (jumpTrap s d r (gReg s d r ra).toNat (decide ((gReg s d r ra).toNat % 4 = 0))).map (fun c => (d, r, 3, c))
  | .dacc d r _ => if inRevert (dieOf s d) r then some (d, r, 6, cREVERT) else none
  | .crd d r _ ra f =>
    let w := gReg s d r ra
    let c := if regionOf (w.extractLsb' 0 12).toNat = r then 14 else 48
    if inPropagate (dieOf s d) = true ∧ regionOf (w.extractLsb' 0 12).toNat ≠ r ∧ w.toNat < 4096 then some (d, r, c, cCELLFOREIGN)
    else if 4096 ≤ w.toNat then some (d, r, c, cCELLRANGE) else if 0x19 ≤ f.toNat then some (d, r, c, cFIELD) else none
  | .cwr d r _ ra _ f =>
    ((cellTrap (dieOf s d) r (gReg s d r ra)).or (if [0x03, 0x04, 0x06, 0x07, 0x17].contains f.toNat then none else some cFIELD)).map
      (fun c => (d, r, 18, c))
  | .cfc d r _ ra _ f => ((cellTrap (dieOf s d) r (gReg s d r ra)).or (if f = 0x08 then none else some cFIELD)).map (fun c => (d, r, 18, c))
  | .ird d r _ ra k =>
    if 4096 ≤ (gReg s d r ra).toNat then some (d, r, 14, cCELLRANGE)
    else if inCount (verifyCell (namedCell s d r ra)) ≤ k.toNat then some (d, r, 14, cIOBIND) else none
  | .owr d r ra _ k =>
    if inRevert (dieOf s d) r then some (d, r, 14, cREVERT)
    else (outTrap r (gReg s d r ra) (verifyCell (namedCell s d r ra)) k.toNat).map (fun c => (d, r, 14, c))
  | .tst d r ra rb k =>
    ((cellTrap (dieOf s d) r (gReg s d r ra)).or (if timerRo (namedCell s d r ra) k.toNat then some cTIMERRO
      else if 16777215 < (gReg s d r rb).toNat then some cVALUE else none)).map (fun c => (d, r, 18, c))
  | .tsp d r ra k =>
    ((cellTrap (dieOf s d) r (gReg s d r ra)).or (if timerRo (namedCell s d r ra) k.toNat then some cTIMERRO else none)).map
      (fun c => (d, r, 18, c))
  | .drop d r ra k => (outTrap r (gReg s d r ra) (namedCell s d r ra) k.toNat).map (fun c => (d, r, 24, c))
  | .illegal d r w => if illegalWord w then some (d, r, 0, cILLEGAL) else none
  | _ => none

/-- What a trap does to its region (05 R173, R194): the trap is recorded unless one stands, the next block is forced, 0xC3 is posted. A
task's registers, as `g` gives them, go to its save block under STOPPED_TRAP; a REVERT run is cleared with the sources it has not yet
delivered. -/
def TrappedWith (g : Nat → Word) (d : Die) (r : Nat) (cause : BitVec 8) (s t : State) : Prop :=
  let x := dieOf s d
  let a := reg x r
  let b := reg (dieOf t d) r
  b.forceNext = true ∧ bitOf b.posted 0xC3 = true ∧
    (if bitOf a.trap 31 then b.trap = a.trap ∧ b.trapPc = a.trapPc
     else b.trap = (1#1 ++ 0#19 ++ runningTask x r ++ cause : BitVec 32) ∧ b.trapPc = BitVec.ofNat 32 (curPc x r)) ∧
    (if a.revert then b.revert = false ∧ b.rg = [] ∧ b.pend = 0
     else memWord b.mem (saveBlock a.task) = 3 ∧ ∀ k, 1 ≤ k → k ≤ 15 → memWord b.mem (saveBlock a.task + 4 * k) = g k) ∧
    StopStep d r s t

/-- A trap that leaves the registers as they stood. -/
def Trapped (d : Die) (r : Nat) (cause : BitVec 8) (s t : State) : Prop := TrappedWith (rget (dieOf s d) r) d r cause s t

/-- The status that a task's save block takes, with the registers as they stand (05 R173, Table 5.2). -/
def SavedWith (status : Word) (r : Nat) (x y : DieSt) : Prop :=
  memWord (reg y r).mem (saveBlock (reg x r).task) = status ∧
    ∀ k, 1 ≤ k → k ≤ 15 → memWord (reg y r).mem (saveBlock (reg x r).task + 4 * k) = rget x r k

/-- What an overrun of the budget does to a region (04 R151, R162; 05 R173): a REVERT run ends with its region's next block forced; a task
stops and the region is marked for the phase, which forces the block of this cycle. -/
def Overran (d : Die) (r : Nat) (s t : State) : Prop :=
  let x := dieOf s d
  let a := reg x r
  let b := reg (dieOf t d) r
  bitOf b.posted 0xC4 = true ∧
    (if a.revert then b.forceNext = true ∧ b.revOver = true ∧ b.revert = false ∧ b.rg = [] ∧ b.pend = 0
     else b.task = 0 ∧ SavedWith 2 r x (dieOf t d) ∧
       b.overIn = (a.overIn || decide (x.phase = phRULESIN)) ∧ b.overOut = (a.overOut || decide (x.phase = phRULESOUT))) ∧
    StopStep d r s t

/-- A record that a check leaves as it is: its CHECK matches and its class is one of 02 Table 2.1 (02 R67, R73). -/
def CheckedCell (c : CellRec) : Prop := c.checkErr = 0 ∧ (clsOf c.cls).isSome = true

/-- The register names cell `id` (05 R187), and its record passes its check. -/
def NamesCell (s : State) (d : Die) (r : Nat) (ra : BitVec 4) (id : Nat) : Prop :=
  gReg s d r ra = BitVec.ofNat 32 id ∧ id < 4096 ∧ CheckedCell (getCell (dieOf s d) id)

/-- The record that CRD reads of cell `id` (01 R35): the present one, or in PROPAGATE the shadow of the own region. -/
def ReadsCell (s : State) (d : Die) (r : Nat) (ra : BitVec 4) (id : Nat) (c : CellRec) : Prop :=
  gReg s d r ra = BitVec.ofNat 32 id ∧ id < 4096 ∧ CheckedCell c ∧
    if inPropagate (dieOf s d) then regionOf id = r ∧ c = getA cellUnused (dieOf s d).shadow id else c = getCell (dieOf s d) id

/-- A task that may write cell `id` now (01 R35, R36; 04 R163): outside REVERT and PROPAGATE, a live cell of its own region. -/
def WritesCell (s : State) (d : Die) (r : Nat) (id : Nat) : Prop :=
  inRevert (dieOf s d) r = false ∧ inPropagate (dieOf s d) = false ∧ regionOf id = r ∧ isCls .unused (getCell (dieOf s d) id) = false

/-- The coded field that a CWR selector names (05 Table 5.12). -/
def writtenField (f : BitVec 5) (k : Coded) : Prop :=
  (f = 0x03 ∧ k = .occ) ∨ (f = 0x04 ∧ k = .pos) ∨ (f = 0x06 ∧ k = .aspect) ∨ (f = 0x07 ∧ k = .cmd)

/-- Every cell of die `d` is as before. -/
def SameCells (d : Die) (s t : State) : Prop := ∀ n, getCell (dieOf t d) n = getCell (dieOf s d) n

/-- Every cell of die `d` but `id` is as before. -/
def OtherCells (id : Nat) (d : Die) (s t : State) : Prop := ∀ n, n ≠ id → getCell (dieOf t d) n = getCell (dieOf s d) n

/-! ## Frames of a die and of the fabric (03, 04) -/

/-- The module differs at most in die `d` and in the records that reach the tail. -/
def DieStep (d : Die) (s t : State) : Prop :=
  t = { s with dies := t.dies, tail := t.tail } ∧ ∀ e, e ≠ d → dieOf t e = dieOf s e

/-- A die after the transport has brought a token to its cell, with the token taken from there. -/
def broughtBy (t : Token) (x : DieSt) : DieSt :=
  let y := carry t (netFuel x) x
  { y with flights := dropFlight { tok := t, place := .cell (destCell t) } y.flights }

/-- An addressed token reaches its cell in PROPAGATE, and `y` is the die as the token meets it. -/
def Arrives (s : State) (d : Die) (t : Token) (y : DieSt) : Prop :=
  (dieOf s d).phase = phPROPAGATE ∧ isBroadcast t = false ∧ hasArrived (carry t (netFuel (dieOf s d)) (dieOf s d)) t = true ∧
    y = broughtBy t (dieOf s d)

/-- A broadcast token of an engine acts in PROPAGATE, and `y` is the die as it meets it: no cell is stalled (03 R109). -/
def Broadcasts (s : State) (d : Die) (t : Token) (y : DieSt) : Prop :=
  (dieOf s d).phase = phPROPAGATE ∧ isBroadcast t = true ∧ ∃ rest, takeBroadcast t (dieOf s d).flights = some rest ∧
    y = unstall (netFuel (dieOf s d)) { dieOf s d with flights := rest }

/-- A token of a die has not acted: it rests in an outbox, waits for one, or is on its way. -/
def Flies (s : State) (d : Die) (t : Token) : Prop := t ∈ tokensOf (dieOf s d)

/-- A live cell of a region that is not halted, whose record the fabric reads as it stands. -/
def SoundCell (s : State) (d : Die) (n : Nat) : Prop :=
  isLive (getCell (dieOf s d) n) = true ∧ regHalted (dieOf s d) (regionOf n) = false ∧
    fabricRead (getCell (dieOf s d) n) = getCell (dieOf s d) n

/-- The command that delivers a token, by its TYPE (03 Table 3.9). -/
def tokenCommand (d : Die) (t : Token) : Instr :=
  if t.typ = 1 then .probe d t else if t.typ = 2 then .hold d t else if t.typ = 3 then .nack d t
  else if t.typ = 4 then .commitToken d t else if t.typ = 5 then .lockedAck d t else if t.typ = 6 then .flankSeek d t
  else if t.typ = 7 then .flankFound d t else if t.typ = 8 then .flankNone d t else if t.typ = 9 then .releaseToken d t
  else if t.typ = 0xA then .cancel d t else .tokenTypeInvalid d t

/-! ## Trips and claims (06, 12, 13) -/

/-- Gate drive is removed from every switch and the module stands in SAFE with its latch set (06 R223, R226, R228; 13 R385). -/
def TrippedSafe (t : State) : Prop :=
  t.mode = .safe ∧ t.ao.tripLatch = true ∧ t.ao.pumpRun = false ∧ t.clampOpen = [] ∧ t.ao.claimEn = false ∧ t.ao.wdArmed = false ∧
    (∀ o high, pumpFed t o high = false) ∧ ∀ d, (dieOf t d).phase = phIDLE

/-- The newest trip history record is the TRIP of state `s`: its FIRST holds the cause with every other cause active, its CYCLE the cycle of
`s`, and it has the given DETAIL (06 R230, Table 6.8). -/
def TripRecorded (c : Cause) (detail : BitVec 8) (s t : State) : Prop :=
  ∃ q, t.ao.tripHist.getLast? = some q ∧ q.kind = 1 ∧ q.first = setBitOf (activeCauses s.ao.causeLines) (causeBit c) true ∧
    q.secondary = 0 ∧ q.cycle = s.cycle ∧ q.detail = detail

/-- A module that runs cycles with its trip latch clear. -/
def RunsClear (s : State) : Prop := (s.mode = .active ∨ s.mode = .standby) ∧ s.ao.tripLatch = false

/-- What a module keeps at every step: CLAIM_EN is set in ACTIVE alone (12 R355), and cycles run only with the trip latch clear (06
R229, 13 Table 13.1). -/
def ClaimDiscipline (s : State) : Prop :=
  (s.ao.claimEn = true → s.mode = .active) ∧
    (s.mode = .active ∨ s.mode = .standby ∨ (s.mode = .wake ∧ (s.start = .ready ∨ s.start = .cycles)) → s.ao.tripLatch = false)

/-- Region memory in every copy, the window's memory and the staged bytes stand in the canonical form. -/
def MemoryCanonical (s : State) : Prop :=
  (∀ d r, Memory.wf (reg (dieOf s d) r).mem = true) ∧ Memory.wf s.win.mem = true ∧ Memory.wf s.update.staged = true

/-- A full start has begun (14 R408, R409, R410): WAKE, every domain reset, the latch set, waiting for the BIST of the bridle. -/
def FullStartBegun (si : StartIn) (t : State) : Prop :=
  t.mode = .wake ∧ t.start = .bridleBist ∧ t.fullBist = true ∧ t.startIn = some si ∧ t.ao.tripLatch = true ∧ t.ao.claimEn = false ∧
    t.ao.pumpRun = false ∧ t.outs = outStReset ∧ ∀ d, (dieOf t d).phase = phIDLE ∧ (dieOf t d).cells = [] ∧ (dieOf t d).routes = []

/-! ## The vote (06) -/

/-- A copy's block stands in both halves with the given words, and the copy is available. -/
def Ballot (s : State) (d : Die) (r : Nat) (ws : List Word) : Prop :=
  isAvail s.vote d r = true ∧ (copyOf s.vote d r).rxH = some ws ∧ (copyOf s.vote d r).rxL = some ws

/-- The copies of region `r` on dies `e` and `f` have delivered; that of the third die `d` arrives now, usable on both lanes. -/
def LastArrival (s : State) (d e f : Die) (r : Nat) (rxH rxL : LaneRx) (we wf w : List Word) : Prop :=
  d ≠ e ∧ d ≠ f ∧ e ≠ f ∧ r < 16 ∧ cyclesRun s = true ∧ xferHalted s = false ∧ s.vote.deadline = false ∧
    (regionVote s.vote r).verdict = none ∧ Ballot s e r we ∧ Ballot s f r wf ∧ isAvail s.vote d r = true ∧
    (copyOf s.vote d r).arrived = false ∧ laneUsable s d .h r rxH = some w ∧ laneUsable s d .l r rxL = some w

/-! ## Inputs, outputs, links and requests -/

/-- The latched states of an input's pair differ in the two halves, and differed at the previous window end (07 R244). -/
def pairApart (x : InSt) (n : Nat) : Bool :=
  match pairOf x n with
  | some j => (pairSt x j).apart && (isLatched (pairSt x j).h != isLatched (pairSt x j).l)
  | none => false

/-- Failures of a kind in a row, this one included (08 R271, R273). -/
def failsNow (k : BitVec 4) (c : OutCell) : Nat := if c.failKind = k then c.fails + 1 else 1

/-- A test step is due at an output whose expectation stands as the module's conditions give it (08 R264, R269, R270). -/
def TestDue (s : State) (o : Nat) : Prop :=
  gondolaRuns s = true ∧ stepDue (outCxOf s) s.outs o = true ∧ (outCell s.outs o).e = expectOf (outCxOf s) s.outs o

/-- Every lock but that of output `o` stands as before, and every group. -/
def OtherLocks (o : Nat) (s t : State) : Prop :=
  (∀ p, p ≠ o → (outCell t.outs p).kind = (outCell s.outs p).kind) ∧ (∀ g, groupSt t.outs g = groupSt s.outs g) ∧ t.mode = s.mode

/-- The command that takes a telegram, by its TYPE and, in a TRANSFER, its KIND (09 R294, 12 Table 12.4). -/
def telCommand (p : Port) (t : Tel) : Instr :=
  if telType t = tyIDLE then .idleTelegram p t else if telType t = tyAPP then .appTelegram p t
  else if telType t = tyCELLS then .cellsTelegram p t else if telType t = tyTERR then .terrTelegram p t
  else if telType t = tyFIELD then .fieldTelegram p t else if telType t = tyHEART then .heartTelegram p t
  else if telType t = tyTIME then .timeTelegram p t else if telType t = tyDIAG then .diagTelegram p t
  else if telType t = tyTRANSFER then
    (if xferKind t = xkBLOCK then .transferBlock p t else if xferKind t = xkROUTES then .transferRoutes p t
     else if xferKind t = xkMODULE then .transferModule p t else if xferKind t = xkEND then .transferEnd p t
     else .transferKindInvalid p t)
  else .telegramTypeUndefined p t

/-- A telegram of a port that is up passes every test of 09 R305 on link `n`. -/
def TelAccepted (s : State) (p : Port) (t : Tel) (n : Nat) : Prop := portIsUp s p = true ∧ rxTest (linkCxOf s) p t s.links = .accept n

/-- The head of a die's work at step 5 of RULES_IN is the request in slot `n`, of command `c`; an accepted change does not bar it. -/
def HeadRequest (s : State) (d : Die) (n : Nat) (c : WinCmd) (rest : List Todo) : Prop :=
  (dieOf s d).phase = phRULESIN ∧ (dieOf s d).todo = .request n :: rest ∧ reqCmd (reqWords s.win n) = some c ∧
    changeImage s (dieOf s d) = none

/-- The head of a die's work at step 5 of RULES_IN is a TERR entry; no change has been accepted. -/
def HeadTerr (s : State) (d : Die) (e : TerrEntry) (rest : List Todo) : Prop :=
  (dieOf s d).phase = phRULESIN ∧ (dieOf s d).todo = .terr e :: rest ∧ changeImage s (dieOf s d) = none

/-- The command that takes a TERR entry, by its OP (11 Table 11.6). -/
def terrCommand (d : Die) (e : TerrEntry) : Instr :=
  if e.op = 1 then .terrProbe d else if e.op = 2 then .terrCommit d else if e.op = 3 then .terrEntered d
  else if e.op = 4 then .terrRelease d else if e.op = 5 then .terrCancel d else if e.op = 8 then .terrProbed d
  else if e.op = 9 then .terrNack d else if e.op = 0xA then .terrHeld d else if e.op = 0xB then .terrReleased d
  else .terrOpUndefined d

/-- Region `r` of die `d` holds a result for slot `n`, given now. -/
def Reports (d : Die) (r n : Nat) (result reason : BitVec 8) (s t : State) : Prop :=
  ∃ info, (reg (dieOf t d) r).results = (reg (dieOf s d) r).results ++ [{ slot := n, result := result, reason := reason, info := info }]

/-- Region `r` of die `d` has given no result. -/
def NoReport (d : Die) (r : Nat) (s t : State) : Prop := (reg (dieOf t d) r).results = (reg (dieOf s d) r).results

/-- Every route entry of die `d` but `i` is as before. -/
def OtherRoutes (i : Nat) (d : Die) (s t : State) : Prop := ∀ j, j ≠ i → getRoute (dieOf t d) j = getRoute (dieOf s d) j

/-- What a spool shows of itself: items, read position, mark, open packet, faults counted, writes stalled. -/
structure SpView where
  items : Nat
  readPos : Nat
  mark : Option Nat
  openPkt : Bool
  faults : Nat
  stalled : Nat

/-- The view of one spool. -/
def spView {α : Type} (p : Spool α) : SpView :=
  { items := p.items.length, readPos := p.readPos, mark := p.mark, openPkt := p.openPkt.isSome, faults := p.faults, stalled := p.stalled.length }

/-- The view of a spool of the module. -/
def viewOf (s : State) : SpoolId → SpView
  | .event d => spView (dieOf s d).evSpool
  | .txS p => spView (spoolTxS s.links p)
  | .txD p => spView (spoolTxD s.links p)
  | .rxS p => spView (spoolRxS s.links p)
  | .staging => spView s.tail.staging
  | .outbox d n => spView (outboxOf (dieOf s d) n)

/-- Depth of a spool (10 Table 10.2). -/
def depthOf : SpoolId → Nat
  | .event _ => evDepth
  | .txS _ => txSDepth
  | .txD _ => txDDepth
  | .rxS _ => rxSDepth
  | .staging => stagingDepth
  | .outbox _ _ => outboxDepth

/-- A spool that carries packets (10 Table 10.2). -/
def isPacketSpool : SpoolId → Bool
  | .txS _ | .txD _ | .rxS _ => true
  | _ => false

/-- Two names of one spool: an outbox is that of the physical cell (01 R30). -/
def SameSpool (s : State) : SpoolId → SpoolId → Prop
  | .outbox d n, .outbox e k => d = e ∧ physCell (dieOf s d) n = physCell (dieOf s d) k
  | p, q => p = q

/-- A stalled write enters once a stage is free and no packet is open (10 R316, R318). -/
def accepted (depth : Nat) (v : SpView) : SpView :=
  if v.stalled = 0 ∨ v.openPkt = true ∨ depth ≤ v.items then v else { v with items := v.items + 1, stalled := v.stalled - 1 }

/-- A commit entry stands complete in the entry slot that is next, with SEQ after the newest, and the entry slots of no other block than
that one have changed (16 R454). -/
def EntryWritten (e : CommitEntry) (c d : Carrier) : Prop :=
  let p := (commitPlace c).1
  let seq : Word := match newestValid c with
    | none => 0
    | some n => n.2.seq + 1
  getA commitErased d.commit p = { rec_ := carSeal (commitAt p) 0x03 (entryWords { e with seq := seq }), mark := commitMARK } ∧
    ∀ k, k / commitBlock ≠ p / commitBlock → getA commitErased d.commit k = getA commitErased c.commit k

/-- The module differs at most in the check unit of one instance that core pairs feed. -/
def UnitStep (u : CuId) (s t : State) : Prop :=
  t = { s with unitWin := t.unitWin, unitCar := t.unitCar } ∧ ∀ v, v ≠ u → unitOf v t = unitOf v s

/-- Every byte of a transfer lies in one slot that the gateway owns (17 R465, R466). -/
def InOwnSlot (s : State) (addr n k : Nat) : Prop :=
  addr + n ≤ 0x80000 ∧ addr < 0x80000 ∧ (∀ j, j < n → winPlace (addr + j) = .slot k) ∧ winFlag s.win k = ownGATEWAY

/-- A slot's record holds RESULT, REASON and TAKEN, and the slot is the gateway's (17 R472). -/
def SlotAnswered (n : Nat) (result reason : BitVec 8) (taken : Word) (s t : State) : Prop :=
  winFlag t.win n = ownGATEWAY ∧ bitOf t.win.irq 0 = true ∧ memWord t.win.mem (reqAddr n + 8) = taken ∧
    memWord t.win.mem (reqAddr n) =
      ((memWord s.win.mem (reqAddr n)).extractLsb' 24 8 ++ result ++ reason ++ (memWord s.win.mem (reqAddr n)).extractLsb' 0 8 : BitVec 32)

end Sys2Proof.Machine
end

