-- ==== Sys2Proof/Certificates/Slice0/Obligations.lean ====
section
/-!
DEFINITION. The statements for the provers.
-/

open Sys2Proof Sys2Proof.Machine

/-! ## Rule code (05) -/

/-- 05 R188 (Table 5.7), R172: an instruction that computes a register writes its result into rd, a write to g0 is discarded, PC names
the next word, the charge is 1, and nothing else changes. -/
def Obligations.AluInstructionsWriteRdOnly : Prop :=
  ∀ (i : Instr) (s : State) (d : Die) (r : Nat) (rd : BitVec 4) (v : Word),
    aluResult s i = some (d, r, rd, v) → FallsThrough s d r 1 →
    Executes i s (fun t =>
      gReg t d r rd = (if rd = 0 then 0 else v) ∧ OtherRegisters rd.toNat r (dieOf s d) (dieOf t d) ∧
      Advances r 1 (dieOf s d) (dieOf t d) ∧ RegistersOnly (reg (dieOf s d) r) (reg (dieOf t d) r) ∧ RegionStep d r s t)

/-- 05 R188: a taken branch to a place of the code sets PC to the branch's own offset plus four times the offset, one that is not taken
goes on, both for the full charge of 3 and without any other effect; a taken branch elsewhere, or one that falls off the code, traps PC_RANGE. -/
def Obligations.BranchesSetPcOrTrap : Prop :=
  ∀ (i : Instr) (s : State) (d : Die) (r : Nat) (taken : Bool) (off : BitVec 18),
    branchOf s i = some (d, r, taken, off) → insGoes s d r 3 = true →
    let x := dieOf s d
    let target : Int := (curPc x r : Int) + 4 * off.toInt
    (taken = true → codePlace s d r target →
      Executes i s (fun t => curPc (dieOf t d) r = target.toNat % 2 ^ 17 ∧ curCharge (dieOf t d) r = curCharge x r + 3 ∧
        (∀ n, gReg t d r n = gReg s d r n) ∧ RegistersOnly (reg x r) (reg (dieOf t d) r) ∧ RegionStep d r s t)) ∧
    (taken = true → ¬ codePlace s d r target → Executes i s (Trapped d r cPCRANGE s)) ∧
    (taken = false → codePlace s d r (curPc x r + 4) →
      Executes i s (fun t => Advances r 3 x (dieOf t d) ∧ (∀ n, gReg t d r n = gReg s d r n) ∧
        RegistersOnly (reg x r) (reg (dieOf t d) r) ∧ RegionStep d r s t)) ∧
    (taken = false → ¬ codePlace s d r (curPc x r + 4) → Executes i s (Trapped d r cPCRANGE s))

/-- 05 R188: JAL writes PC + 4 into rd and goes to PC + 4 × imm; JR goes to the address in ra; each for a charge of 3. -/
def Obligations.JumpsLinkAndGo : Prop :=
  ∀ (s : State) (d : Die) (r : Nat) (rd ra : BitVec 4) (imm : BitVec 18),
    insGoes s d r 3 = true →
    let x := dieOf s d
    (codePlace s d r ((curPc x r : Int) + 4 * imm.toInt) →
      Executes (.jal d r rd imm) s (fun t =>
        curPc (dieOf t d) r = ((curPc x r : Int) + 4 * imm.toInt).toNat % 2 ^ 17 ∧
        gReg t d r rd = (if rd = 0 then 0 else BitVec.ofNat 32 (curPc x r + 4)) ∧ OtherRegisters rd.toNat r x (dieOf t d) ∧
        curCharge (dieOf t d) r = curCharge x r + 3 ∧ RegistersOnly (reg x r) (reg (dieOf t d) r) ∧ RegionStep d r s t)) ∧
    (codePlace s d r (gReg s d r ra).toNat → (gReg s d r ra).toNat % 4 = 0 →
      Executes (.jr d r ra) s (fun t =>
        curPc (dieOf t d) r = (gReg s d r ra).toNat % 2 ^ 17 ∧ (∀ n, gReg t d r n = gReg s d r n) ∧
        curCharge (dieOf t d) r = curCharge x r + 3 ∧ RegistersOnly (reg x r) (reg (dieOf t d) r) ∧ RegionStep d r s t))

/-- 05 R188, R174, 00 R10: a load that meets no trap cause puts the bytes of its area into rd, the lowest address in bits 7 to 0 and the
rest 0, for a charge of 12. The bytes of region memory are those that memory holds. -/
def Obligations.LoadsReadLittleEndian : Prop :=
  ∀ (i : Instr) (s : State) (d : Die) (r : Nat) (rd : BitVec 4) (a n : Nat) (e : Ecc),
    loadOf s i = some (d, r, rd, a, n, e) → loadTrap (dieOf s d) r a n = none → FallsThrough s d r 12 →
    e = .ok ∨ loadArea (dieOf s d) r a ≠ .mem →
    Executes i s (fun t =>
      (rd ≠ 0 → (∀ k, k < n → (gReg t d r rd).extractLsb' (8 * k) 8 = loadByte (ctxOf s) (addCharge r 12 (dieOf s d)) r (a + k)) ∧
        (gReg t d r rd).toNat < 2 ^ (8 * n) ∧
        (loadArea (dieOf s d) r a = .mem → ∀ k, k < n →
          (gReg t d r rd).extractLsb' (8 * k) 8 = memByte (reg (dieOf s d) r).mem (a + k))) ∧
      gReg t d r 0 = 0 ∧ OtherRegisters rd.toNat r (dieOf s d) (dieOf t d) ∧ Advances r 12 (dieOf s d) (dieOf t d) ∧
      RegistersOnly (reg (dieOf s d) r) (reg (dieOf t d) r) ∧ RegionStep d r s t)

/-- 01 R37: a read of region memory with a single-bit error gives the corrected value and counts it; an uncorrectable error halts the
pair, excludes the copy and records the address, and the load has no result. -/
def Obligations.SecdedCorrectsOrHalts : Prop :=
  ∀ (i : Instr) (s : State) (d : Die) (r : Nat) (rd : BitVec 4) (a n : Nat) (e : Ecc),
    loadOf s i = some (d, r, rd, a, n, e) → loadTrap (dieOf s d) r a n = none → loadArea (dieOf s d) r a = .mem →
    FallsThrough s d r 12 →
    (e = .corrected → Executes i s (fun t =>
      (reg (dieOf t d) r).eccCorrected = (reg (dieOf s d) r).eccCorrected + 1 ∧ (reg (dieOf t d) r).eccAddr = BitVec.ofNat 32 a ∧
      (rd ≠ 0 → ∀ k, k < n → (gReg t d r rd).extractLsb' (8 * k) 8 = memByte (reg (dieOf s d) r).mem (a + k)) ∧
      Advances r 12 (dieOf s d) (dieOf t d))) ∧
    (e = .uncorrectable → Executes i s (fun t =>
      (reg (dieOf t d) r).halted = true ∧ isExcluded (copyOf t.vote d r) = true ∧ (reg (dieOf t d) r).eccAddr = BitVec.ofNat 32 a ∧
      (reg (dieOf t d) r).g = (reg (dieOf s d) r).g ∧ (reg (dieOf t d) r).mem = (reg (dieOf s d) r).mem))

/-- 05 R188, 00 R10: a store that meets no trap cause changes the bytes at its address and no other byte of region memory, and no
register; a store into RR.TRAP clears VALID where it writes 1 to it. -/
def Obligations.StoresChangeTheirBytesOnly : Prop :=
  ∀ (i : Instr) (s : State) (d : Die) (r a n : Nat) (v : Word),
    storeOf s i = some (d, r, a, n, v) → storeTrap (dieOf s d) r a n = none → FallsThrough s d r 12 →
    Executes i s (fun t =>
      let b := reg (dieOf t d) r
      let b0 := reg (dieOf s d) r
      (storeArea (dieOf s d) r a = .mem → b.trap = b0.trap ∧
        ∀ q, memByte b.mem q = if a ≤ q ∧ q < a + n then v.extractLsb' (8 * (q - a)) 8 else memByte b0.mem q) ∧
      (storeArea (dieOf s d) r a = .rr → b.mem = b0.mem ∧
        b.trap = (if a = 0x200004 ∧ n = 4 ∧ bitOf v 31 then setBitOf b0.trap 31 false
                  else if a = 0x200006 ∧ n = 2 ∧ bitOf v 15 then setBitOf b0.trap 31 false
                  else if a = 0x200007 ∧ n = 1 ∧ bitOf v 7 then setBitOf b0.trap 31 false else b0.trap)) ∧
      (∀ k, gReg t d r k = gReg s d r k) ∧ Advances r 12 (dieOf s d) (dieOf t d) ∧
      b = { b0 with mem := b.mem, trap := b.trap, dirty := b.dirty, pc := b.pc, rpc := b.rpc, charge := b.charge, rcharge := b.rcharge,
                    pmc := b.pmc, posted := b.posted } ∧ RegionStep d r s t)

/-- 05 R194, R188: an instruction that meets a trap cause records it with task and PC, forces the next block, posts 0xC3 and stops its task;
an instruction that computes a register and falls off the code traps PC_RANGE after its result. -/
def Obligations.TrapsRecordStopAndForce : Prop :=
  ∀ (i : Instr) (s : State) (d : Die) (r : Nat),
    (∀ c cause, trapOf s i = some (d, r, c, cause) → insGoes s d r c = true → Executes i s (Trapped d r cause s)) ∧
    (∀ rd v, aluResult s i = some (d, r, rd, v) → insGoes s d r 1 = true → ¬ codePlace s d r (curPc (dieOf s d) r + 4) →
      Executes i s (TrappedWith (fun k => if k = rd.toNat ∧ k ≠ 0 then v else rget (dieOf s d) r k) d r cPCRANGE s))

/-- 05 R189, R190 (Tables 5.12, 5.13), 02 R78, R91, R82, R86, 01 R35: CRD returns a field of the named cell, of the shadow in PROPAGATE, coded
fields as their codeword zero-extended, for a charge of 14 in the own region and 48 across the spine. Writes reach a cell of the task's own
region: CWR of a coded field returns its status and stores what the status says, and CWR of APP stores rb[15:0]; CFC clears only bits of its
mask, those whose cause is absent, never a hardware bit 0 to 3, and returns FAULT after the write; TST starts a timer with its value,
EXPIRED at once for 0; TSP stops one and keeps what is left. Each carries a charge of 18. Every other cell stays. -/
def Obligations.CellInstructionsReadAndWriteOneCell : Prop :=
  ∀ (s : State) (d : Die) (r : Nat) (rd ra rb : BitVec 4) (f : BitVec 5) (k : BitVec 2) (id : Nat),
    (∀ c, ReadsCell s d r ra id c → FallsThrough s d r (if regionOf id = r then 14 else 48) →
      let out := fun (v : Word) (e : CellRec) => Executes (.crd d r rd ra f) s (fun t =>
        gReg t d r rd = (if rd = 0 then 0 else v) ∧ OtherRegisters rd.toNat r (dieOf s d) (dieOf t d) ∧
        Advances r (if regionOf id = r then 14 else 48) (dieOf s d) (dieOf t d) ∧
        RegistersOnly (reg (dieOf s d) r) (reg (dieOf t d) r) ∧ CellStep d r s t ∧ OtherCells id d s t ∧
        getCell (dieOf t d) id = if inPropagate (dieOf s d) then getCell (dieOf s d) id else e)
      let code := fun (q : Coded) => out ((coded q c).setWidth 32) (readCoded q c).2
      (f = 0x00 → out (c.cls.setWidth 32) c) ∧ (f = 0x01 → out (c.profile.setWidth 32) c) ∧ (f = 0x02 → out (BitVec.ofNat 32 id) c) ∧
      (f = 0x03 → code .occ) ∧ (f = 0x04 → code .pos) ∧ (f = 0x05 → code .lock) ∧ (f = 0x06 → code .aspect) ∧ (f = 0x07 → code .cmd) ∧
      (f = 0x08 → out (c.fault.setWidth 32) c) ∧
      (f = 0x09 → out (b2v c.owned ++ b2v c.foreign ++ c.ownerModule ++ 0#11 ++ c.ownerRoute : BitVec 32) c) ∧
      (∀ p, p < 4 → f.toNat = 0x0A + p → out ((markOf c p).setWidth 32) c) ∧
      (∀ p, p < 4 → f.toNat = 0x0E + p → ((timerOf c p).tstate ≠ 3 → out (timerWord (timerOf c p)) c) ∧
        ((timerOf c p).tstate = 3 → out (timerWord { timerOf c p with tstate := tRUNNING }) (addFault fTIMER c))) ∧
      (∀ p, p < 4 → f.toNat = 0x12 + p → out ((portOf c p).setWidth 32) c) ∧
      (f = 0x16 → out (maskBind c.cls c.bind) c) ∧ (f = 0x17 → out (c.app.setWidth 32) c) ∧ (f = 0x18 → out (c.ext.setWidth 32) c)) ∧
    (NamesCell s d r ra id → WritesCell s d r id → FallsThrough s d r 18 →
      let c := getCell (dieOf s d) id
      let v := gReg s d r rb
      let frame := fun (t : State) => Advances r 18 (dieOf s d) (dieOf t d) ∧ RegistersOnly (reg (dieOf s d) r) (reg (dieOf t d) r) ∧
        CellStep d r s t ∧ OtherCells id d s t
      (∀ q, writtenField f q → (∀ p, (readCoded p c).2 = c) → Executes (.cwr d r rd ra rb f) s (fun t =>
        let e := getCell (dieOf t d) id
        let st := (appWrite q v (cellProf (ctxOf s) (dieOf s d) c) (routeAllows (ctxOf s) (dieOf s d) c (v.extractLsb' 0 16))
          (lineClear (ctxOf s) (dieOf s d) c) c).1
        st.toNat ≤ 3 ∧ gReg t d r rd = (if rd = 0 then 0 else st) ∧ OtherRegisters rd.toNat r (dieOf s d) (dieOf t d) ∧
        (st = 0 → v = (rawCoded q e).setWidth 32) ∧ (st = 1 → rawCoded q e = restrictive q c ∧ hasFault e fCODE = true) ∧
        (st = 2 → q = .aspect ∧ e.aspect = aspDANGER) ∧ (st = 3 → q = .cmd ∧ e.cmd = cmdNONE) ∧
        ((validOf q c).contains (v.extractLsb' 0 16) = false ∨ v.extractLsb' 16 16 ≠ 0 → st = 1) ∧
        (∀ p, p ≠ q → rawCoded p (getCell (dieOf t d) id) = rawCoded p c) ∧
        e = { c with occ := e.occ, pos := e.pos, aspect := e.aspect, cmd := e.cmd, fault := e.fault, t0 := e.t0 } ∧ frame t)) ∧
      Executes (.cwr d r rd ra rb 0x17) s (fun t =>
        getCell (dieOf t d) id = { c with app := v.extractLsb' 0 16 } ∧ gReg t d r rd = 0 ∧
        OtherRegisters rd.toNat r (dieOf s d) (dieOf t d) ∧ frame t) ∧
      Executes (.cfc d r rd ra rb 0x08) s (fun t =>
        let e := getCell (dieOf t d) id
        e = { c with fault := e.fault, t0 := e.t0 } ∧
        (∀ n, n < 16 → bitOf e.fault n = true → bitOf c.fault n = true) ∧
        (∀ n, n < 16 → n < 4 ∨ bitOf v n = false → bitOf e.fault n = bitOf c.fault n) ∧
        (∀ n, 4 ≤ n → n < 16 → bitOf v n = true → causeAbsent (ctxOf s) (dieOf s d) c n = true → bitOf e.fault n = false) ∧
        gReg t d r rd = (if rd = 0 then 0 else e.fault.setWidth 32) ∧ OtherRegisters rd.toNat r (dieOf s d) (dieOf t d) ∧ frame t) ∧
      (timerRo c k.toNat = false → v.toNat ≤ 16777215 →
        Executes (.tst d r ra rb k) s (fun t =>
          getCell (dieOf t d) id =
            putTimer k.toNat { tstate := if v = 0 then tEXPIRED else tRUNNING, fresh := true, trem := v.extractLsb' 0 24 } c ∧
          (∀ n, gReg t d r n = gReg s d r n) ∧ frame t)) ∧
      (timerRo c k.toNat = false →
        Executes (.tsp d r ra k) s (fun t =>
          getCell (dieOf t d) id = putTimer k.toNat { timerOf c k.toNat with tstate := tSTOPPED, fresh := false } c ∧
          (∀ n, gReg t d r n = gReg s d r n) ∧ frame t)))

/-- 05 R193, R192: IRD returns the reading of a bound input, 1 for ON; OWR writes one bit of the region's output share table from bit 0
of rb; DACC folds the four bytes of ra into the sub-digest and counts it. Nothing else changes but the running set's PC and charge. -/
def Obligations.InputsSharesAndDigest : Prop :=
  ∀ (s : State) (d : Die) (r : Nat) (rd ra rb : BitVec 4) (k : BitVec 3) (id : Nat),
    let x := dieOf s d
    let c := getCell x id
    (NamesCell s d r ra id → k.toNat < inCount c → FallsThrough s d r 14 →
      Executes (.ird d r rd ra k) s (fun t =>
        gReg t d r rd = (if rd = 0 then 0 else if inputOn (ctxOf s) x c (inBase c + k.toNat) then 1 else 0) ∧
        OtherRegisters rd.toNat r x (dieOf t d) ∧ Advances r 14 x (dieOf t d) ∧ RegistersOnly (reg x r) (reg (dieOf t d) r) ∧
        CellStep d r s t ∧ SameCells d s t)) ∧
    (NamesCell s d r ra id → regionOf id = r → inRevert x r = false → k.toNat < outCount c → bindRemote c = false →
      FallsThrough s d r 14 →
      Executes (.owr d r ra rb k) s (fun t =>
        let b := reg (dieOf t d) r
        b.sup = { (reg x r).sup with shares := setBitOf (reg x r).sup.shares (outBase c + k.toNat) (bitOf (gReg s d r rb) 0) } ∧
        (∀ n, gReg t d r n = gReg s d r n) ∧ Advances r 14 x (dieOf t d) ∧
        b = { reg x r with sup := b.sup, pc := b.pc, charge := b.charge, pmc := b.pmc, posted := b.posted } ∧ CellStep d r s t ∧
        SameCells d s t)) ∧
    (inRevert x r = false → FallsThrough s d r 6 →
      Executes (.dacc d r ra) s (fun t =>
        let b := reg (dieOf t d) r
        b.dacc = crc64Feed (reg x r).dacc (leBytes (gReg s d r ra)) ∧ b.daccN = (reg x r).daccN + 1 ∧
        (∀ n, gReg t d r n = gReg s d r n) ∧ Advances r 6 x (dieOf t d) ∧
        b = { reg x r with dacc := b.dacc, daccN := b.daccN, pc := b.pc, charge := b.charge, pmc := b.pmc, posted := b.posted } ∧
        RegionStep d r s t))

/-- 05 R191, R186, R184, R173, R179: EWAIT ends INIT, CYCLIC_IN and CYCLIC_OUT and writes their save block with ENDED; in REVERT it delivers the
lowest pending input source and takes it out of the pending set, or ends the run; in ERROR it delivers the next source, or ends and lets
CYCLIC_IN start. -/
def Obligations.EwaitEndsOrDelivers : Prop :=
  ∀ (s : State) (d : Die) (r : Nat) (rd : BitVec 4),
    insGoes s d r 10 = true →
    let x := dieOf s d
    let a := reg x r
    (a.revert = false → a.task = tkCYCIN ∨ a.task = tkCYCOUT →
      Executes (.ewait d r rd) s (fun t =>
        (reg (dieOf t d) r).task = 0 ∧ SavedWith 1 r x (dieOf t d) ∧ curCharge (dieOf t d) r = curCharge x r + 10 ∧ RegionStep d r s t)) ∧
    (a.revert = false → a.task = tkINIT → Executes (.ewait d r rd) s (fun t =>
      (reg (dieOf t d) r).sup.initDone = true ∧ SavedWith 1 r x (dieOf t d) ∧ RegionStep d r s t)) ∧
    (a.revert = false → a.task = tkERROR → a.errLeft = [] → Executes (.ewait d r rd) s (fun t =>
      (reg (dieOf t d) r).task = (if entryPoint x r tkCYCIN = 0 then 0 else tkCYCIN) ∧ SavedWith 1 r x (dieOf t d) ∧ RegionStep d r s t)) ∧
    (a.revert = true → a.pend = 0 → Executes (.ewait d r rd) s (fun t =>
      (reg (dieOf t d) r).revert = false ∧ (reg (dieOf t d) r).rg = [] ∧ (reg (dieOf t d) r).g = a.g ∧
      (reg (dieOf t d) r).pc = a.pc ∧ (reg (dieOf t d) r).charge = a.charge ∧
      (∀ q, memSCRATCH ≤ q → q < memSCRATCH + 0x400 → memByte (reg (dieOf t d) r).mem q = 0) ∧ StopStep d r s t)) ∧
    (∀ n, a.revert = true → n < 192 → bitOf a.pend n = true → (∀ m, m < n → bitOf a.pend m = false) →
      codePlace s d r (curPc x r + 4) →
      Executes (.ewait d r rd) s (fun t =>
        gReg t d r rd = (if rd = 0 then 0 else BitVec.ofNat 32 n) ∧ (reg (dieOf t d) r).revCur = BitVec.ofNat 32 n ∧
        (∀ m, m < 192 → bitOf (reg (dieOf t d) r).pend m = (bitOf a.pend m && decide (m ≠ n))) ∧ Advances r 10 x (dieOf t d) ∧
        RegionStep d r s t)) ∧
    (∀ n l, a.revert = false → a.task = tkERROR → a.errLeft = n :: l → codePlace s d r (curPc x r + 4) →
      Executes (.ewait d r rd) s (fun t =>
        gReg t d r rd = (if rd = 0 then 0 else BitVec.ofNat 32 n) ∧ (reg (dieOf t d) r).evtCur = BitVec.ofNat 32 n ∧
        (reg (dieOf t d) r).errLeft = l ∧ Advances r 10 x (dieOf t d) ∧ RegionStep d r s t))

/-- 04 R164, 05 R188, 06 R229: a drop request counts once for its die and output; on an energised output two of three available dies, or
one of fewer, decide at once that it is dropped, and both its switches lose their gate drive. A request for an output without an owner, or
of a die that is not available for the owning region, is discarded and counted; with the trip latch set a request has no effect. DROP emits
its request for a charge of 24; DROP_REQUEST is the request itself. The model's readings in it: log entry 27. -/
def Obligations.DropRequestsCountByDie : Prop :=
  ∀ (s : State) (d : Die) (o r : Nat),
    let n := (availDies s.vote r).length
    let asked := fun (v : VoteSt) (e : Die) => decide (getA 0 v.dropReq o / 2 ^ dieIndex e % 2 = 1)
    let discarded := fun (t : State) => t.vote = { s.vote with dropDiscards := s.vote.dropDiscards + 1 } ∧ t.dies = s.dies ∧ t.mode = s.mode
    let others := fun (t : State) => (∀ p, p ≠ o → getA 0 t.vote.dropReq p = getA 0 s.vote.dropReq p ∧ isDropped t.vote p = isDropped s.vote p) ∧
      t.mode = s.mode
    let counted := fun (t : State) => asked t.vote d = true ∧ (∀ e, e ≠ d → asked t.vote e = asked s.vote e) ∧
      isDropped t.vote o = (isDropped s.vote o || (outDriven s o && (decide (n ≠ 3) || allDies.any (fun e => decide (e ≠ d) && asked s.vote e)))) ∧
      (isDropped t.vote o = true → ∀ high, getA false t.clampOpen (switchNo o high) = false) ∧ others t
    (s.ao.tripLatch = true → Answers (.dropRequest d o) s (fun t => t = s)) ∧
    (s.ao.tripLatch = false →
      (outOwner s.vote o = none → Answers (.dropRequest d o) s discarded) ∧
      (outOwner s.vote o = some r → 2 ≤ n → isAvail s.vote d r = false → Answers (.dropRequest d o) s discarded) ∧
      (outOwner s.vote o = some r → n < 2 ∨ isAvail s.vote d r = true → Answers (.dropRequest d o) s (fun t => counted t ∧ t.dies = s.dies)) ∧
      (∀ (q : Nat) (ra : BitVec 4) (k : BitVec 3) (id : Nat), NamesCell s d q ra id → regionOf id = q →
        k.toNat < outCount (getCell (dieOf s d) id) → bindRemote (getCell (dieOf s d) id) = false → FallsThrough s d q 24 →
        o = outBase (getCell (dieOf s d) id) + k.toNat → outOwner s.vote o = some r → n < 2 ∨ isAvail s.vote d r = true →
        Executes (.drop d q ra k) s (fun t => counted t ∧
          Advances q 24 (dieOf s d) (dieOf t d) ∧ RegistersOnly (reg (dieOf s d) q) (reg (dieOf t d) q) ∧ SameCells d s t)))

/-! ## Stops of tasks and pairs (04, 05) -/

/-- 04 R151, R162: an instruction whose charge would pass the budget is not executed; a task stops with STOPPED_OVERRUN and the region is
marked for the phase, or the REVERT run ends with REVERT_OVER and its next block forced; 0xC4 is posted. RULES_OVERRUN and REVERT_OVERRUN are
that stop itself. The model's readings in it: log entry 7. -/
def Obligations.OverrunsStopAtTheBudget : Prop :=
  ∀ (s : State) (d : Die) (r : Nat),
    canRun (dieOf s d) r = true →
    let x := dieOf s d
    (∀ i c, chargeOf s i = some (d, r, c) → curBudget (ctxOf s) x r < curCharge x r + c → Executes i s (Overran d r s)) ∧
    (overruns (ctxOf s) x r = true → inRevert x r = false → Answers (.rulesOverrun d r) s (Overran d r s)) ∧
    (overruns (ctxOf s) x r = true → inRevert x r = true → Answers (.revertOverrun d r) s (Overran d r s)) ∧
    (overruns (ctxOf s) x r = false → Answers (.rulesOverrun d r) s (fun t => dieOf t d = { x with logOut := [] }) ∧
      Answers (.revertOverrun d r) s (fun t => dieOf t d = { x with logOut := [] }))

/-- 04 R146, 05 R169, 06 R215, 01 R39: a pair whose real clocks reach the budget first stops for the cycle; a pair that executes and whose comparator
or checker finds a fault is halted, the fault stands in the region and in the die's log with clock and lines, and the copy is excluded, which
sets DEGRADED where the mode lets it; the region's tokens fall. The model's readings in it: log entry 27. -/
def Obligations.PairFaultsHaltTheRegion : Prop :=
  ∀ (s : State) (d : Die) (r : Nat) (clock : BitVec 24) (lines : Word),
    r < 16 → (reg (dieOf s d) r).halted = false →
    let x := dieOf s d
    let halts := fun (i : Instr) (w : PairRec) => Answers i s (fun t =>
      (reg (dieOf t d) r).halted = true ∧ (reg (dieOf t d) r).task = 0 ∧ (reg (dieOf t d) r).revert = false ∧
      (reg (dieOf t d) r).pairFault = some w ∧ (dieOf t d).faultLog = x.faultLog ++ [w] ∧ isExcluded (copyOf t.vote d r) = true ∧
      (isExcluded (copyOf s.vote d r) = false → s.mode ≠ .safe → s.mode ≠ .shutdown → t.overlays.degraded = true) ∧
      (dieOf t d).flights = x.flights.filter (fun f => decide (placeRegion f.place ≠ r)) ∧
      (reg (dieOf t d) r).mem = (reg x r).mem ∧ t.mode = s.mode ∧ t.outs = s.outs ∧ t.ins = s.ins ∧ t.links = s.links)
    (x.fastClock = true →
      halts (.pairMismatch d r clock lines) { kind := 1, region := r, clock := clock, lines := lines } ∧
      halts (.checkerFault d r clock) { kind := 2, region := r, clock := clock, lines := 0 }) ∧
    (x.fastClock = false → Answers (.pairMismatch d r clock lines) s (fun t => t = s) ∧ Answers (.checkerFault d r clock) s (fun t => t = s)) ∧
    ((x.phase = phRULESIN ∨ x.phase = phRULESOUT) → (reg x r).revert = false → (reg x r).charge < curBudget (ctxOf s) x r →
      Answers (.realClockHalt d r) s (fun t =>
        reg (dieOf t d) r = { reg x r with haltCycle := true, task := 0 } ∧ (∀ q, q ≠ r → reg (dieOf t d) q = reg x q) ∧
        t.vote = s.vote ∧ DieStep d s t))

/-! ## Phases of a die (04) -/

/-- 01 R51, 04 R144, R154, 02 R94: a good cycle-start message puts a die into WAKE of the present cycle with every region's count, flags and
block clear, and tells whether the die had to abandon its cycle; a bad one leaves the die without phases; WAKE that is late ends the same
way and is remembered. A cycle without base derivation breaks every run of clean cycles. Nothing but that die changes.
The model's readings in it: log entry 18. -/
def Obligations.CycleStartBeginsWake : Prop :=
  ∀ (s : State) (d : Die),
    let x := dieOf s d
    (cyclesRun s = true → Answers (.cycleStartMessage d true) s (fun t =>
      let y := dieOf t d
      y.phase = phWAKE ∧ y.cycleNo = s.cycle ∧ y.runsPhases = true ∧ y.fastClock = true ∧ y.flights = [] ∧ y.todo = [] ∧
      y.sliceRun = none ∧ y.waveCut = false ∧ y.abandoned = decide (x.phase ≠ phIDLE) ∧ y.wakeLate = false ∧ y.routes = x.routes ∧
      (∀ n, getCell y n = if x.phase = phWAKE ∨ x.phase = phSAMPLE then { getCell x n with cleanOnce := false } else getCell x n) ∧
      (∀ r, r < 16 → (reg y r).charge = 0 ∧ (reg y r).task = 0 ∧ (reg y r).haltCycle = false ∧ (reg y r).sent = [] ∧
        (reg y r).overIn = false ∧ (reg y r).overOut = false ∧ (reg y r).halted = (reg x r).halted ∧
        (reg y r).mem = (reg x r).mem) ∧ DieStep d s t)) ∧
    (cyclesRun s = true → Answers (.cycleStartMessage d false) s (fun t =>
      let y := dieOf t d
      y.phase = phIDLE ∧ y.runsPhases = false ∧ y.flights = [] ∧ y.waveCut = false ∧ y.routes = x.routes ∧
      (∀ n, getCell y n = { getCell x n with cleanOnce := false }) ∧
      (∀ r, r < 16 → (reg y r).task = 0 ∧ (reg y r).sent = [] ∧ (reg y r).overIn = false ∧ (reg y r).overOut = false ∧
        (reg y r).mem = (reg x r).mem) ∧ DieStep d s t)) ∧
    (x.phase = phWAKE → Answers (.wakeLate d) s (fun t =>
      let y := dieOf t d
      y.phase = phIDLE ∧ y.runsPhases = false ∧ y.wakeLate = true ∧ y.regions = x.regions ∧ y.routes = x.routes ∧
      (∀ n, getCell y n = { getCell x n with cleanOnce := false }) ∧
      (x.sliceRun = none → (∀ r, r < 16 → (reg x r).revert = false) → y.fastClock = false) ∧ DieStep d s t)) ∧
    (x.phase ≠ phWAKE → Answers (.wakeLate d) s (fun t => t = s)) ∧
    (cyclesRun s = false → ∀ ok, Answers (.cycleStartMessage d ok) s (fun t => t = s))

/-- 04 R144, R145, 05 R177, R192, 15 R444: each phase follows the one before it. SAMPLE takes the dies out of WAKE with DS.CYCLE; RULES_IN
charges the supervisor's 8,000 clocks, with a carry-over that is due, and restarts the digest; PROPAGATE copies the shadow; RULES_OUT charges
4,000. -/
def Obligations.PhasesFollowInOrder : Prop :=
  ∀ (s : State) (d : Die),
    let x := dieOf s d
    (cyclesRun s = true → x.phase = phWAKE → Answers .sample s (fun t =>
      (dieOf t d).phase = phSAMPLE ∧ (dieOf t d).dsCycle = x.cycleNo)) ∧
    (cyclesRun s = true → x.phase ≠ phWAKE → Answers .sample s (fun t => (dieOf t d).phase = x.phase)) ∧
    (x.phase = phSAMPLE → Answers (.rulesIn d) s (fun t =>
      (dieOf t d).phase = phRULESIN ∧ (dieOf t d).accepted = 0 ∧
      ∀ r, r < 16 → (reg (dieOf t d) r).dacc = crc64Ones ∧ (reg (dieOf t d) r).daccN = 0 ∧
        (reg (dieOf t d) r).charge = 8000 + if s.change.carryAt = some x.cycleNo then carryCharge s.change.oldImage s.part r else 0)) ∧
    (x.phase = phRULESIN → x.todo = [] → regionsDone x = true → Answers (.propagate d) s (fun t =>
      (dieOf t d).phase = phPROPAGATE ∧ (dieOf t d).wave = .load ∧ (dieOf t d).shadow = x.cells ∧ (dieOf t d).propDone = false ∧
      DieStep d s t)) ∧
    (x.phase = phPROPAGATE → x.propDone = true → Answers (.rulesOut d) s (fun t =>
      (dieOf t d).phase = phRULESOUT ∧ (∀ r, r < 16 → (reg (dieOf t d) r).charge = 4000) ∧ DieStep d s t))

/-! ## The fabric (03) -/

/-- 03 R110 (Table 3.10), 01 R47: a wave ends once the die is quiet, and the next one begins; EVALUATE ends PROPAGATE. A cut empties every
outbox, shows in the status, and goes on with the next wave, from REFRESH with the one after SWEEP; SWEEP and EVALUATE cannot be cut.
The model's readings in it: log entry 15. -/
def Obligations.WavesFollowInOrder : Prop :=
  ∀ (s : State) (d : Die) (loaded : List Nat),
    (dieOf s d).phase = phPROPAGATE →
    let x := dieOf s d
    let goes := fun (w v : Wave) => x.wave = w → isQuiet x = true → Answers (.waveEnd d) s (fun t =>
      (dieOf t d).wave = v ∧ (dieOf t d).phase = phPROPAGATE ∧ (dieOf t d).shadow = x.shadow ∧ DieStep d s t)
    let cuts := fun (w v : Wave) => x.wave = w → Answers (.waveCut d loaded) s (fun t =>
      (dieOf t d).wave = v ∧ (dieOf t d).waveCut = true ∧ (dieOf t d).phase = phPROPAGATE ∧ (dieOf t d).shadow = x.shadow ∧
      (∀ n, (outboxOf (dieOf t d) n).items = [] ∧ (outboxOf (dieOf t d) n).stalled = []) ∧
      (w = .refresh → (dieOf t d).refreshCut = true) ∧ DieStep d s t)
    goes .load .release ∧ goes .release .refresh ∧ goes .refresh .sweep ∧ goes .sweep .request ∧ goes .request .commit ∧
    goes .commit .evaluate ∧
    (x.wave = .evaluate → isQuiet x = true → Answers (.waveEnd d) s (fun t =>
      (dieOf t d).wave = .none ∧ (dieOf t d).propDone = true ∧ (dieOf t d).cells = x.cells ∧ (dieOf t d).routes = x.routes)) ∧
    (isQuiet x = false ∨ x.wave = .none → Answers (.waveEnd d) s (fun t => dieOf t d = { x with logOut := [] } ∧ DieStep d s t)) ∧
    cuts .load .release ∧ cuts .release .refresh ∧ cuts .refresh .request ∧ cuts .request .commit ∧ cuts .commit .evaluate ∧
    (x.wave = .sweep ∨ x.wave = .evaluate ∨ x.wave = .none → Answers (.waveCut d loaded) s (fun t =>
      dieOf t d = { x with regions := (dieOf t d).regions, logOut := [] } ∧ DieStep d s t))

/-- 03 R114, R115 (Table 3.11), 01 R26, R30: what a PROBE does at the cell that it reaches. A cell that refuses it answers NACK with its reason
and keeps its marks; one that does not puts the route's mark on the port it came by, leaves no mark of another route on a cell that is not
locked, and sends the PROBE to the next entry or, at the end of the walk, HOLD; a BOUNDARY cell answers HOLD, and an EXIT of another class than
LINE_BLOCK passes it on unmarked. A stalled cell takes no PROBE. -/
def Obligations.ProbeMarksOrRefuses : Prop :=
  ∀ (s : State) (d : Die) (t : Token) (y : DieSt),
    Arrives s d t y → t.typ = 1 → SoundCell s d t.dest.toNat →
    let n := t.dest.toNat
    let cx := ctxOf s
    let c := getCell (dieOf s d) n
    let z := modCell y n fabricRead
    let moves := fun (st : StepRec) => isPointLike c && !inPos c st.pos
    let keeps := fun (q : Token) => Answers (.probe d t) s (fun u => getCell (dieOf u d) n = c ∧ OtherCells n d s u ∧ Flies u d q)
    let goesOn := fun (st : StepRec) (flags : BitVec 8) (u : State) =>
      (st.next = none → Flies u d (replyTok z n t 2 flags)) ∧
      (∀ m p pos, st.next = some (m, p, pos) → ∃ q, Flies u d q ∧ q.typ = 1 ∧ q.route = t.route ∧ q.dest = BitVec.ofNat 12 m ∧
        q.dport = p ∧ q.pos = pos ∧ q.reason = flags)
    (cellStalled y n = true → Answers (.probe d t) s (fun u => Flies u d t ∧ SameCells d s u)) ∧
    (cellStalled y n = false →
      (findStep z (isForeign t) t.route n t.alt = none → keeps (replyTok z n t 3 rnTOPOLOGY)) ∧
      (∀ st, findStep z (isForeign t) t.route n t.alt = some st →
        (topologyOk c st t.dport = false → keeps (replyTok z n t 3 rnTOPOLOGY)) ∧
        (topologyOk c st t.dport = true →
          (isCls .boundary c = true → keeps (replyTok z n t 2 (t.reason ||| 2))) ∧
          (isCls .boundary c = false → st.exit = true → isCls .lineBlock c = false → Answers (.probe d t) s (fun u =>
            getCell (dieOf u d) n = c ∧ OtherCells n d s u ∧ goesOn st t.reason u)) ∧
          (isCls .boundary c = false → st.exit = false ∨ isCls .lineBlock c = true →
            (∀ reason, probeRefusal cx z n t st c = some reason → keeps (replyTok z n t 3 reason)) ∧
            (probeRefusal cx z n t st c = none → Answers (.probe d t) s (fun u =>
              let e := getCell (dieOf u d) n
              markOf e t.dport.toNat = mkMark t.kind t.route ∧ e.lock = c.lock ∧ e.owned = c.owned ∧ OtherCells n d s u ∧
              (markOnly z t st c = false → ∀ p, p < 4 → markValid (markOf e p) = true → markOfRoute (isForeign t) t.route (markOf e p) = true) ∧
              goesOn st (t.reason ||| (if moves st then (if st.kind = 1 then 5 else 1) else 0)) u ∧
              (st.kind = 0 → st.noflank = false → ∀ p, p ∈ unusedLegs c st.pos t.dport.toNat → Flies u d (seekOut z n c t p 1 0))))))))

/-- 03 R121, R523 (Table 3.12): what a FLANK_SEEK does at the cell that it reaches. HOP 0 marks the start cell, which it leaves by DPORT. A
search that ends there answers FLANK_FOUND with its fork depth or FLANK_NONE with its reason, and leaves the cell as it is; one that goes on
sends a FLANK_SEEK through each track port it leaves by; a cell that protects takes the route's FLANK mark, and in REFRESH a FREE one is
FLANK_LOCKED. -/
def Obligations.FlankSeekAnswersOrGoesOn : Prop :=
  ∀ (s : State) (d : Die) (t : Token) (y : DieSt),
    Arrives s d t y → t.typ = 6 → SoundCell s d t.dest.toNat → cellStalled y t.dest.toNat = false →
    let n := t.dest.toNat
    let cx := ctxOf s
    let c := getCell (dieOf s d) n
    let z := modCell y n fabricRead
    let depth : BitVec 8 := (t.reason.extractLsb' 0 3).setWidth 8
    let res := seekRes z n c t (stopEntry cx z (isForeign t) t.route n t.dport.toNat)
    let keeps := fun (q : Token) => Answers (.flankSeek d t) s (fun u => getCell (dieOf u d) n = c ∧ OtherCells n d s u ∧ Flies u d q)
    (t.hop = 0 → keeps (seekOut z n c t t.dport.toNat 1 depth.toNat)) ∧
    (t.hop ≠ 0 →
      (res = .found → keeps (replyTok z n t 7 depth)) ∧
      (∀ reason, res = .fail reason → keeps (replyTok z n t 8 reason)) ∧
      (∀ qs, res = .onward qs → Answers (.flankSeek d t) s (fun u => getCell (dieOf u d) n = c ∧ OtherCells n d s u ∧
        ∀ p k, (p, k) ∈ qs → adjLink (portOf c p) = 1 → ∃ q, Flies u d q ∧ q.typ = 6 ∧
          q.dest = BitVec.ofNat 12 (adjCell (portOf c p)) ∧ q.dport = BitVec.ofNat 2 (adjPort (portOf c p)) ∧
          q.hop = BitVec.ofNat 6 (t.hop.toNat + 1) ∧ q.reason = BitVec.ofNat 8 k)) ∧
      (∀ call away, res = .mark call away →
        let lit : BitVec 8 := depth ||| (if call then 0x80 else 0) ||| 0x40
        (y.wave ≠ .refresh → c.lock ≠ lockFREE → keeps (replyTok z n t 7 depth)) ∧
        (y.wave ≠ .refresh → c.lock = lockFREE → barred cx z (isForeign t) t.route c = true → keeps (replyTok z n t 8 rnCONFLICT)) ∧
        (y.wave ≠ .refresh → c.lock = lockFREE → barred cx z (isForeign t) t.route c = false → Answers (.flankSeek d t) s (fun u =>
          markOf (getCell (dieOf u d) n) t.dport.toNat = flankMark (isForeign t) t.route ∧ (getCell (dieOf u d) n).lock = lockFREE ∧
          OtherCells n d s u ∧ Flies u d (replyTok z n t 7 lit))) ∧
        (y.wave = .refresh → c.lock ≠ lockFREE → Answers (.flankSeek d t) s (fun u =>
          getCell (dieOf u d) n = putMark t.dport.toNat (flankMark (isForeign t) t.route) c ∧ OtherCells n d s u ∧
          Flies u d (replyTok z n t 7 (depth ||| 0x40)))) ∧
        (y.wave = .refresh → c.lock = lockFREE → Answers (.flankSeek d t) s (fun u =>
          let e := getCell (dieOf u d) n
          markOf e t.dport.toNat = flankMark (isForeign t) t.route ∧ e.lock = lockFLANK ∧ e.owned = true ∧ e.foreign = isForeign t ∧
          e.ownerRoute = t.route ∧ OtherCells n d s u ∧ Flies u d (replyTok z n t 7 lit)))))

/-- 03 R126, R128: a broadcast COMMIT turns a PATH mark of its route on a FREE cell into ROUTE_LOCKED, owned by the route, clears the route's
marks on it, and the cell answers LOCKED_ACK; of a proxy's FOREIGN mark the step says what it is. An addressed COMMIT is answered with
LOCKED_ACK by the cell that it names, which stays as it is unless it is a free shared cell. -/
def Obligations.BroadcastCommitLocksMarkedCells : Prop :=
  ∀ (s : State) (d : Die) (t : Token) (y : DieSt) (n : Nat) (st : StepRec),
    t.typ = 4 →
    let fg := isForeign t
    let c := getCell (dieOf s d) n
    (Broadcasts s d t y → SoundCell s d n → c.owned = false → coded .lock c = lockFREE →
      (∃ p, p < 4 ∧ markOfRoute fg t.route (markOf c p) = true ∧ if fg then st.kind = 0 else markKind (markOf c p) = kPATH) →
      findStep (dieOf s d) fg t.route n t.alt = some st →
      Answers (.commitToken d t) s (fun u =>
        let e := getCell (dieOf u d) n
        e.lock = lockROUTE ∧ e.owned = true ∧ e.foreign = fg ∧ e.ownerRoute = t.route ∧ e.checkErr = 0 ∧
        (∀ p, p < 4 → markOfRoute fg t.route (markOf e p) = false) ∧
        ∃ q, Flies u d q ∧ q.typ = 5 ∧ q.route = t.route ∧ q.origin = BitVec.ofNat 12 n)) ∧
    (Arrives s d t y → n = t.dest.toNat → SoundCell s d n → cellStalled y n = false →
      let z := modCell y n fabricRead
      (t.hop = hopQuery → Answers (.commitToken d t) s (fun u => getCell (dieOf u d) n = c ∧ OtherCells n d s u ∧
        Flies u d (replyTok z n t 5 (ackReason z n c 0 topHELD)))) ∧
      (t.hop ≠ hopQuery → sharedCls c = false ∨ coded .lock c ≠ lockFREE → Answers (.commitToken d t) s (fun u =>
        getCell (dieOf u d) n = c ∧ OtherCells n d s u ∧ Flies u d (replyTok z n t 5 (ackReason z n c t.pos (ackTop z c fg t.route))))) ∧
      (t.hop ≠ hopQuery → sharedCls c = true → coded .lock c = lockFREE → Answers (.commitToken d t) s (fun u =>
        let e := getCell (dieOf u d) n
        e.lock = (if t.kind = kOVERLAP then lockOVERLAP else lockROUTE) ∧ e.owned = true ∧ e.ownerRoute = t.route ∧ e.foreign = fg ∧
        OtherCells n d s u ∧ Flies u d (replyTok z n t 5 (ackReason z n e t.pos topHELD)))))

/-- 03 R136, R137, R108 (Table 3.9), 11 R343: a RELEASE with HOP 0x3F frees every cell that the route holds under ROUTE_LOCKED or
OVERLAP_LOCKED and writes its owner word as 0, one of KIND OVERLAP those under OVERLAP_LOCKED alone; it frees no FLANK_LOCKED cell, and no cell
of another route. An addressed RELEASE frees the cell that it names, unless with REASON[0] the cell is occupied. A CANCEL clears the
marks of its route of its KIND, or of every KIND with HOP 0x3F or FOREIGN, and no other mark and no lock. -/
def Obligations.BroadcastsFreeTheirRouteOnly : Prop :=
  ∀ (s : State) (d : Die) (t : Token) (y : DieSt) (n : Nat),
    let fg := isForeign t
    let c := getCell (dieOf s d) n
    let freed := fun (e : CellRec) => e.lock = lockFREE ∧ e.owned = false ∧ e.foreign = false ∧ e.ownerModule = 0 ∧ e.ownerRoute = 0
    let cancelled := fun (u : State) =>
      let e := getCell (dieOf u d) n
      (∀ p, p < 4 → markOf e p =
        (if markOfRoute fg t.route (markOf c p) = true ∧ (t.hop = hopAll ∨ fg = true ∨ markKind (markOf c p) = t.kind) then 0 else markOf c p)) ∧
      e.lock = c.lock ∧ e.owned = c.owned ∧ e.ownerRoute = c.ownerRoute ∧ e.occ = c.occ
    (Broadcasts s d t y → t.typ = 9 → SoundCell s d n → Answers (.releaseToken d t) s (fun u =>
      let e := getCell (dieOf u d) n
      (t.hop = hopAll → lockedBy c fg t.route = true → c.lock = lockROUTE ∨ c.lock = lockOVERLAP → freed e) ∧
      (t.hop ≠ hopAll → lockedBy c false t.route = true → c.lock = lockOVERLAP → freed e) ∧
      (t.hop ≠ hopAll → c.lock = lockROUTE → e = c) ∧ (c.lock = lockFLANK → e = c) ∧
      (t.hop = hopAll → lockedBy c fg t.route = false → e = c) ∧ (t.hop ≠ hopAll → lockedBy c false t.route = false → e = c))) ∧
    (Arrives s d t y → t.typ = 9 → n = t.dest.toNat → SoundCell s d n → cellStalled y n = false → Answers (.releaseToken d t) s (fun u =>
      let e := getCell (dieOf u d) n
      OtherCells n d s u ∧ (∃ q, Flies u d q ∧ q.typ = 5 ∧ q.route = t.route ∧ q.origin = BitVec.ofNat 12 n) ∧
      (lockedBy c fg t.route = true → c.lock ≠ lockFLANK → bitOf t.reason 0 = false ∨ occSet c = false → freed e) ∧
      (lockedBy c fg t.route = false ∨ c.lock = lockFLANK ∨ (bitOf t.reason 0 = true ∧ occSet c = true) → e = c))) ∧
    (Broadcasts s d t y → t.typ = 0xA → regHalted (dieOf s d) (regionOf n) = false → Answers (.cancel d t) s cancelled) ∧
    (Arrives s d t y → t.typ = 0xA → n = t.dest.toNat → Answers (.cancel d t) s (fun u => cancelled u ∧ OtherCells n d s u))

/-- 03 R108, R118, R119, R123, R128, R129: what the route engine takes from replies. NACK and FLANK_NONE return a route under search to PROBING
with the reason, but for a NACK of a later overlap attempt; FLANK_FOUND takes the branch weight from FLANK_OPEN; HOLD at an edge, or with no
overlap, selects; LOCKED_ACK is kept for the evaluation, and that of the state query gives the approach. No cell changes. -/
def Obligations.EngineTakesReplies : Prop :=
  ∀ (s : State) (d : Die) (t : Token) (y : DieSt) (i : Nat),
    Arrives s d t y → tokRoute (dieOf s d) t = some i →
    let x := dieOf s d
    let e := getRoute x i
    let w := getWork x i
    (t.typ = 3 → e.state = rsPROBED ∨ (e.state = rsPROBING ∧ (x.wave ≠ .request ∨ w.hold ≠ none ∨ w.nack ≠ none)) →
      Answers (.nack d t) s (fun u =>
        (getRoute (dieOf u d) i).state = rsPROBING ∧ (getRoute (dieOf u d) i).altValid = false ∧
        (getWork (dieOf u d) i).nack = some (joinReason w.nack t.reason) ∧ SameCells d s u)) ∧
    (t.typ = 8 → e.state = rsPROBING ∨ e.state = rsPROBED → Answers (.flankNone d t) s (fun u =>
      (getRoute (dieOf u d) i).state = rsPROBING ∧ (getWork (dieOf u d) i).nack = some (joinReason w.nack t.reason) ∧ SameCells d s u)) ∧
    (t.typ = 8 → e.state ≠ rsPROBING → e.state ≠ rsPROBED → Answers (.flankNone d t) s (fun u =>
      getRoute (dieOf u d) i = e ∧ (getWork (dieOf u d) i).flankBad = some (joinReason w.flankBad t.reason) ∧ SameCells d s u)) ∧
    (t.typ = 7 → Answers (.flankFound d t) s (fun u =>
      (getRoute (dieOf u d) i).flankOpen = BitVec.ofNat 15 (e.flankOpen.toNat - 2 ^ (7 - (t.reason.extractLsb' 0 3).toNat)) ∧
      SameCells d s u)) ∧
    (t.typ = 2 → e.state = rsPROBING → w.nack = none →
      bitOf t.reason 1 = true ∨ (alternatives x (entryDesc (ctxOf s) x e)).length = 0 → Answers (.hold d t) s (fun u =>
      (getWork (dieOf u d) i).selected = true ∧ (getWork (dieOf u d) i).hold = some t.reason ∧
      (getWork (dieOf u d) i).remote = (w.remote || bitOf t.reason 1) ∧ SameCells d s u)) ∧
    (t.typ = 5 → t.hop = hopQuery → Answers (.lockedAck d t) s (fun u =>
      (getWork (dieOf u d) i).approach = some (bitOf t.reason 3) ∧ (getWork (dieOf u d) i).acks = w.acks ∧ SameCells d s u)) ∧
    (t.typ = 5 → t.hop ≠ hopQuery → x.wave ≠ .release → Answers (.lockedAck d t) s (fun u =>
      (∃ k, (getWork (dieOf u d) i).acks = w.acks ++ [{ cell := t.origin.toNat, hop := t.hop, kind := k, reason := t.reason }]) ∧
      (getWork (dieOf u d) i).expect = w.expect - 1 ∧ getRoute (dieOf u d) i = e ∧ SameCells d s u))

/-- 01 R39, 03 R108 (Table 3.9): a token that leaves the spine for a halted region is discarded there, and its credit is back; a token of
undefined TYPE is discarded and counted at its cell. No cell and no route changes. -/
def Obligations.TokensDiscardedWithoutEffect : Prop :=
  ∀ (s : State) (d : Die) (t : Token) (y : DieSt) (a : Nat),
    let x := dieOf s d
    (x.phase = phPROPAGATE → isBroadcast t = false → 1 ≤ t.typ.toNat → t.typ.toNat ≤ 0xA → x.outboxes = [] → a < 16 →
      x.flights = [{ tok := t, place := .egress a }] → 0 < creditOf x a (destRegion t) → regHalted x (destRegion t) = true →
      Answers (tokenCommand d t) s (fun u => (dieOf u d).flights = [] ∧ (dieOf u d).credits = x.credits ∧ SameCells d s u ∧
        (dieOf u d).routes = x.routes ∧ (dieOf u d).work = x.work ∧ DieStep d s u)) ∧
    (Arrives s d t y → t.typ = 0 ∨ 0xB ≤ t.typ.toNat → Answers (.tokenTypeInvalid d t) s (fun u =>
      dieOf u d = { countOut t x { y with undefTokens := x.undefTokens + 1 } with logOut := [] } ∧ SameCells d s u ∧ DieStep d s u))

/-! ## The vote (06) -/

/-- 06 R208 (Table 6.5), R210, R212, R215, R216, R225, R233, 01 R52: the third block of a region lets it be voted. Three equal blocks agree and
are kept, true in half H and complemented in half L; with two equal ones the majority is kept, the minority copy is excluded and DEGRADED is
set; three different ones trip with MAJORITY_LOSS. A comparator of a half that shows neither 0b10 nor 0b01, or a cause line HL_DISAGREE
that does not read healthy, trips with HL_DISAGREE. -/
def Obligations.ThirdBlockDecidesTheVote : Prop :=
  ∀ (s : State) (d e f : Die) (r : Nat) (rxH rxL : LaneRx) (we wf w : List Word),
    LastArrival s d e f r rxH rxL we wf w →
    let cmd := Instr.commitBlockArrival d r rxH rxL hwSound
    (we = wf → w = wf → Answers cmd s (fun t =>
      (regionVote t.vote r).verdict = some 0x3 ∧ (regionVote t.vote r).h = w ∧ (regionVote t.vote r).l = w.map (~~~·) ∧
      t.mode = s.mode ∧ t.outs = s.outs ∧ t.ins = s.ins)) ∧
    (we = wf → w ≠ wf → Answers cmd s (fun t =>
      (regionVote t.vote r).verdict = some 0x5 ∧ (regionVote t.vote r).h = wf ∧ (regionVote t.vote r).l = wf.map (~~~·) ∧
      isExcluded (copyOf t.vote d r) = true ∧ t.overlays.degraded = true ∧ t.mode = s.mode ∧ t.outs = s.outs ∧ t.ins = s.ins)) ∧
    (we ≠ wf → w ≠ we → w ≠ wf → s.ao.tripLatch = false → Answers cmd s (fun t => TrippedSafe t ∧ TripRecorded .majorityLoss 0x0A s t)) ∧
    (∀ k : BitVec 2, k ≠ 1 → k ≠ 2 → s.ao.tripLatch = false →
      Answers (.commitBlockArrival d r rxH rxL { hwSound with h := { halfSound with ab := some k } }) s (fun t =>
        TrippedSafe t ∧ TripRecorded .hlDisagree 0 s t)) ∧
    (∀ hw : VoteHw, hw.lineHl ≠ 2 → s.ao.tripLatch = false →
      Answers (.commitBlockArrival d r rxH rxL hw) s (fun t => TrippedSafe t ∧ TripRecorded .hlDisagree 0 s t))

/-- 01 R52 to R54, 04 R153, 06 R207, R208, 13 R405: at D a region without a verdict is voted from the blocks present: two equal blocks of three
available copies give their words under code 0x6 and the third copy a miss, fewer than two trip; a region that has its verdict is left
alone. A block that cannot be used on a lane, or comes after D, only counts as arrived, and so does a second one. A die count within
0.5 % of the SLK count adds to the die's run of good counts, at most 16; one outside it clears the run and excludes all sixteen copies
of the die. Where no cycles run none of the three acts. The model's readings in it: log entries 19 and 28. -/
def Obligations.DeadlineAndDieClocks : Prop :=
  ∀ (s : State) (d : Die) (r c k : Nat) (rxH rxL : LaneRx) (hw : VoteHw),
    r < 16 →
    (cyclesRun s = true → xferHalted s = false → (regionVote s.vote r).verdict = none → (ballots halfSound s.vote .h r).length < 2 →
      s.ao.tripLatch = false → Answers (.deadline hwSound) s (fun t => t.vote.deadline = true ∧ TrippedSafe t)) ∧
    (∀ (e f : Die) (ws : List Word), cyclesRun s = true → xferHalted s = false → d ≠ e → d ≠ f → e ≠ f →
      (regionVote s.vote r).verdict = none → (∀ q, q < 16 → q ≠ r → (regionVote s.vote q).verdict ≠ none) →
      Ballot s e r ws → Ballot s f r ws → isAvail s.vote d r = true → isPresent (copyOf s.vote d r) = false →
      Answers (.deadline hwSound) s (fun t =>
        (regionVote t.vote r).verdict = some 0x6 ∧ (regionVote t.vote r).h = ws ∧ (copyOf t.vote d r).missNow = true ∧
        t.mode = s.mode ∧ t.outs = s.outs)) ∧
    (cyclesRun s = true → (∀ q, q < 16 → (regionVote s.vote q).verdict ≠ none) →
      Answers (.deadline hw) s (fun t => t = { s with vote := { s.vote with deadline := true, hw := hw } })) ∧
    (cyclesRun s = true → (copyOf s.vote d r).arrived = false →
      (s.vote.deadline = false ∧ (laneUsable s d .h r rxH = none ∨ laneUsable s d .l r rxL = none)) ∨
        (s.vote.deadline = true ∧ (regionVote s.vote r).verdict ≠ none) →
      Answers (.commitBlockArrival d r rxH rxL hw) s (fun t =>
        (copyOf t.vote d r).arrived = true ∧ isPresent (copyOf t.vote d r) = false ∧
        (regionVote t.vote r).verdict = (regionVote s.vote r).verdict ∧ t = { s with vote := t.vote })) ∧
    ((copyOf s.vote d r).arrived = true → Answers (.commitBlockArrival d r rxH rxL hw) s (fun t => t = s)) ∧
    (cyclesRun s = true → clockOk c k = true → Answers (.cycleStartAck d c k) s (fun t =>
      triGet t.vote.clockGood d = min 16 (triGet s.vote.clockGood d + 1) ∧ (∀ e, e ≠ d → triGet t.vote.clockGood e = triGet s.vote.clockGood e) ∧
      t = { s with vote := { s.vote with clockGood := t.vote.clockGood } })) ∧
    (cyclesRun s = true → clockOk c k = false → Answers (.cycleStartAck d c k) s (fun t =>
      triGet t.vote.clockGood d = 0 ∧ (∀ q, q < 16 → isExcluded (copyOf t.vote d q) = true) ∧
      (∀ e q, e ≠ d → copyOf t.vote e q = copyOf s.vote e q) ∧ t.mode = s.mode ∧ t.outs = s.outs)) ∧
    (cyclesRun s = false → Answers (.commitBlockArrival d r rxH rxL hw) s (fun t => t = s) ∧ Answers (.deadline hw) s (fun t => t = s) ∧
      Answers (.cycleStartAck d c k) s (fun t => t = s))

/-- 06 R218, R219, R221: a re-join pass on which both donors agree gives the copy their retained memory, supervisor data and cells, and is
complete; one on which they differ ends the attempt with the copy halted again, as does an attempt without a complete pass in its
twelfth cycle. A pass without the room of its window, or of a copy that re-joins nothing, does nothing. The model's readings in it: log entry 29. -/
def Obligations.RejoinTakesWhatDonorsAgreeOn : Prop :=
  ∀ (s : State) (d p q : Die) (r n : Nat) (room : Bool),
    r < 16 →
    let passing := (copyOf s.vote d r).rejoin = .passing n
    let agree := rejoinItems (dieOf s p) r = rejoinItems (dieOf s q) r
    let abandoned := fun (t : State) => (copyOf t.vote d r).rejoin = .none ∧ (reg (dieOf t d) r).halted = true ∧
      (reg (dieOf t d) r).mem = (reg (dieOf s d) r).mem
    (passing → donorsOf s d r = some (p, q) → (dieOf s d).phase = phIDLE → (∀ o, (dieOf s o).sliceRun = none) → agree →
      Answers (.rejoinPassComplete d r true) s (fun t =>
        (copyOf t.vote d r).rejoin = .complete ∧ isExcluded (copyOf t.vote d r) = isExcluded (copyOf s.vote d r) ∧
        (∀ a, memDATA ≤ a → a < memSCRATCH → memByte (reg (dieOf t d) r).mem a = memByte (reg (dieOf s p) r).mem a) ∧
        (∀ a, a < memDATA ∨ memSCRATCH ≤ a → memByte (reg (dieOf t d) r).mem a = memByte (reg (dieOf s d) r).mem a) ∧
        (reg (dieOf t d) r).sup = (reg (dieOf s p) r).sup ∧
        (∀ m, 256 * r ≤ m → m < 256 * r + 256 → getCell (dieOf t d) m = { getCell (dieOf s p) m with checkErr := 0 }) ∧
        (∀ m, m < 256 * r ∨ 256 * r + 256 ≤ m → getCell (dieOf t d) m = getCell (dieOf s d) m) ∧
        ∀ e, e ≠ d → dieOf t e = dieOf s e)) ∧
    (passing → donorsOf s d r = some (p, q) → (dieOf s d).phase = phIDLE → (∀ o, (dieOf s o).sliceRun = none) → ¬ agree →
      Answers (.rejoinPassComplete d r true) s abandoned) ∧
    (room = false ∨ (copyOf s.vote d r).rejoin = .none ∨ donorsOf s d r = none → Answers (.rejoinPassComplete d r room) s (fun t => t = s)) ∧
    (passing → 11 ≤ n → Answers (.rejoinLimit d r) s abandoned) ∧
    (passing → n < 11 → Answers (.rejoinLimit d r) s (fun t => t = s)) ∧
    ((∀ m, (copyOf s.vote d r).rejoin ≠ .passing m) → Answers (.rejoinLimit d r) s (fun t => t = s))

/-- 14 R418, R423, R425, 01 R39: a slice that passes moves the slice pointer on and counts, and the repeat of a failed one lets its copy re-join;
one that fails excludes its copy, and halts the region where it tested the pair; a second failure bars the copy. Without a slice that runs
the command does nothing. The model's readings in it: log entry 29. -/
def Obligations.SliceResultMovesOnOrExcludes : Prop :=
  ∀ (s : State) (d : Die) (a b : Bool),
    ((dieOf s d).sliceRun = none → Answers (.sliceComplete d a b) s (fun t => t = s)) ∧
    ∀ q : SliceRun, (dieOf s d).sliceRun = some q → q.region < 16 →
      ((a && b) = true → Answers (.sliceComplete d a b) s (fun t =>
        (dieOf t d).sliceRun = none ∧ (dieOf t d).slicePtr = (q.region + 1) % 16 ∧ (dieOf t d).slicePassed = (dieOf s d).slicePassed + 1 ∧
        getA 0 (dieOf t d).sliceStep q.region = (q.step + 1) % 144 ∧ (dieOf t d).regions = (dieOf s d).regions ∧
        (q.again = true → (copyOf t.vote d q.region).sliceAgain = true) ∧ (q.again = false → t.vote = s.vote) ∧
        t.mode = s.mode ∧ t.tail = s.tail)) ∧
      ((a && b) = false → Answers (.sliceComplete d a b) s (fun t =>
        (copyOf t.vote d q.region).excluded = some .slice ∧ (dieOf t d).sliceRun = none ∧
        (136 ≤ q.step → (reg (dieOf t d) q.region).halted = true) ∧ (q.again = true → (copyOf t.vote d q.region).barred = true) ∧
        t.mode = s.mode ∧ t.outs = s.outs))

/-! ## Trips (06) -/

/-- 06 R225 to R228, R230 (Tables 6.7, 6.8): each trip cause of the hardware, on a line that reads anything but 0b10, removes gate drive
from every switch, sets the latch, records the cause and places a running module in SAFE; a line that reads 0b10 fires nothing. The watchdog
gives its cause once it has expired while it is armed, a rail that of a domain that is on, and NO_LOOP where a command latch of the
output is clear. The model's readings in it: log entry 60. -/
def Obligations.HardwareCausesTripToSafe : Prop :=
  ∀ (s : State) (ci : CauseIn) (detail : BitVec 8) (n o : Nat),
    let trips := fun (i : Instr) (c : Cause) (k : BitVec 8) => Answers i s (fun t => TrippedSafe t ∧ TripRecorded c k s t)
    let nothing := fun (i : Instr) => Answers i s (fun t => t = s)
    (RunsClear s → ci.line ≠ 2 →
      trips (.pumpFault ci detail) .pumpFault detail ∧ trips (.overtemp ci detail) .overtemp detail ∧
      (n < 12 → trips (.railFault ci n) .logicSupply 0) ∧
      (wdExpired s = true ∨ ci.line ≠ 1 → trips (.aoWatchdog ci) .aoWatchdog 0) ∧
      ((outCell s.outs o).latchH = false ∨ (outCell s.outs o).latchL = false ∨ ci.line ≠ 1 →
        trips (.noLoop ci o) .noLoop (BitVec.ofNat 8 o))) ∧
    (12 ≤ n → nothing (.railFault ci n)) ∧
    (wdExpired s = false → ci.line = 1 → nothing (.aoWatchdog ci)) ∧
    ((outCell s.outs o).latchH = true → (outCell s.outs o).latchL = true → ci.line = 1 → nothing (.noLoop ci o)) ∧
    (ci.line = 2 → nothing (.pumpFault ci detail) ∧ nothing (.overtemp ci detail) ∧ nothing (.railFault ci n) ∧
      nothing (.aoWatchdog ci) ∧ nothing (.noLoop ci o))

/-- 06 R230, R226, R223, 13 R398: a LOGIC_SUPPLY cause in SAFE or SHUTDOWN finds no gate drive: it writes a POWER_LOSS record and sets no latch.
A cause that arises within 10 µs of a trip joins SECONDARY of its record; a later one with the latch set changes its line alone. A
pump without an edge for 8 µs puts its own gate clamp on and no other; 100 ms after a trip the channel domains are off and every die is as
reset leaves it, with its strap. The model's readings in it: log entries 38 and 62. -/
def Obligations.PowerLossAndGateDriveOff : Prop :=
  ∀ (s : State) (ci : CauseIn) (o : Nat) (high : Bool) (detail : BitVec 8),
    (ci.line ≠ 2 → joinsTrip ci s = false → (s.mode = .safe ∧ s.heldForm = false) ∨ s.mode = .shutdown →
      Answers (.railFault ci 1) s (fun t =>
        (∃ q, t.ao.tripHist.getLast? = some q ∧ q.kind = 2 ∧ bitOf q.first 5 = true) ∧ t.ao.tripLatch = s.ao.tripLatch ∧
        t.ao.causeLines = s.ao.causeLines ∧ t.mode = s.mode ∧ t.outs = s.outs ∧ t.dies = s.dies)) ∧
    (∀ q, ci.line ≠ 2 → joinsTrip ci s = true → s.mode ≠ .dormant → s.ao.tripHist.getLast? = some q →
      Answers (.overtemp ci detail) s (fun t =>
        t.ao.tripHist = s.ao.tripHist.dropLast ++ [{ q with secondary := setBitOf q.secondary 6 true }] ∧ t = { s with ao := t.ao } ∧
        t.ao.tripLatch = true)) ∧
    (ci.line ≠ 2 → joinsTrip ci s = false → s.ao.tripLatch = true → s.mode ≠ .wake → s.mode ≠ .dormant →
      Answers (.overtemp ci detail) s (fun t =>
        t = { s with ao := { s.ao with causeLines := t.ao.causeLines } } ∧ getA 2 t.ao.causeLines 6 = ci.line)) ∧
    Answers (.pumpEdgeTimeout o high) s (fun t =>
      (∀ p q, p < 96 → getA false t.clampOpen (switchNo p q) =
        (if p = o ∧ q = high then false else pumpFed s p q && !getA false s.edgeLost (switchNo p q))) ∧
      t = { s with clampOpen := t.clampOpen, edgeLost := t.edgeLost }) ∧
    (s.mode = .safe → s.ao.tripLatch = true → s.tripAt ≠ 0 → s.tripAt + 99 ≤ s.ao.ms → Answers .channelDomainOff s (fun t =>
      t.coresOff = true ∧ (∀ d, dieOf t d = dieReset (dieOf s d).strap) ∧
      t = { s with coresOff := true, dies := t.dies, tail := t.tail })) ∧
    (s.mode ≠ .safe ∨ s.ao.tripLatch = false ∨ s.tripAt = 0 ∨ s.ao.ms < s.tripAt + 99 →
      Answers .channelDomainOff s (fun t => t = s))

/-! ## The boundary (04, 06, 13) -/

/-- 04 R143, R164, 06 R213, 08 R260, 11 R331, 13 R406, 14 R413: at a boundary of an active module whose votes are closed, the cycle number goes
up by one, the latches of an output that no rank holds follow the voted image, and no latch is set outside it; the vote's record and the
counted drop requests start anew, misses of the cycle become those of the previous one, and a second SLK count in a row outside its limits
withholds the heartbeat. The first boundary after a start gives the cycle the highest CYCLE + 2 accepted, or 0; a later one in WAKE goes on to
it. In SAFE and SHUTDOWN the cycle number goes on without a RELEASE; in DORMANT, with reset held and before the start is ready there is
no boundary. The model's readings in it: log entry 19. -/
def Obligations.BoundaryReleasesAndCountsOn : Prop :=
  ∀ (s : State) (bi : BoundaryIn),
    (s.mode = .active → s.ao.tripLatch = false → s.heldForm = false → s.vote.deadline = true → s.ao.stopReq = .none → s.vote.hw.hl = none →
      imageL s.vote = ~~~ imageH s.vote → Answers (.cycleBoundary bi) s (fun t =>
      t.cycle = s.cycle + 1 ∧ t.boundaries = s.boundaries + 1 ∧
      (∀ o, o < 96 → bitOf (imageH s.vote) o = false → (outCell t.outs o).latchH = false ∧ (outCell t.outs o).latchL = false) ∧
      (∀ o, o < 96 → (groupSt s.outs (outGroup o)).cut = false → (groupSt s.outs (outGroup o)).held = false → s.outs.stoppedH = false →
        s.outs.stoppedL = false → (outCell s.outs o).hsHeld = false → (outCell s.outs o).lsHeld = false →
        (outCell t.outs o).latchH = bitOf (imageH s.vote) o ∧ (outCell t.outs o).latchL = bitOf (imageH s.vote) o) ∧
      (∀ r, r < 16 → (regionVote t.vote r).verdict = none) ∧ t.vote.deadline = false ∧ t.vote.dropReq = [] ∧
      (∀ d r, r < 16 → (copyOf t.vote d r).missPrev = (copyOf s.vote d r).missNow ∧ (copyOf t.vote d r).missNow = false) ∧
      (let bad := !(decide (31840 ≤ bi.slkCount) && decide (bi.slkCount ≤ 32160))
       t.ao.tbBad = (if bad then s.ao.tbBad + 1 else 0) ∧ t.ao.hbHeld = (s.ao.hbHeld || (bad && decide (1 ≤ s.ao.tbBad)))))) ∧
    (s.mode = .standby → s.ao.tripLatch = false → s.heldForm = false → s.vote.deadline = true → s.tether.gotEnd = false →
      Answers (.cycleBoundary bi) s (fun t => t.cycle = s.cycle + 1 ∧ t.boundaries = s.boundaries + 1)) ∧
    (s.mode = .wake → s.start = .ready → s.heldForm = false → Answers (.cycleBoundary bi) s (fun t =>
      t.cycle = s.alignTo.getD 0 ∧ t.boundaries = s.boundaries + 1 ∧ t.vote.imgH = s.vote.imgH)) ∧
    (s.mode = .wake → s.start = .cycles → s.heldForm = false → s.vote.deadline = true → Answers (.cycleBoundary bi) s (fun t =>
      t.boundaries = s.boundaries + 1 ∧
      (s.alignTo = none → t.cycle = s.cycle + 1) ∧
      ∀ a, s.alignTo = some a → t.cycle = if serialAfter a (s.cycle + 1) then a else s.cycle + 1)) ∧
    (s.mode = .safe ∨ s.mode = .shutdown → s.heldForm = false → Answers (.cycleBoundary bi) s (fun t =>
      t.cycle = s.cycle + 1 ∧ t.mode = s.mode ∧ t.vote = s.vote ∧ t.clampOpen = s.clampOpen ∧
      (∀ o, (outCell t.outs o).latchH = (outCell s.outs o).latchH ∧ (outCell t.outs o).latchL = (outCell s.outs o).latchL) ∧
      t.boundaries = s.boundaries)) ∧
    (s.mode = .dormant ∨ s.heldForm = true ∨ (s.mode = .wake ∧ s.start ≠ .ready ∧ s.start ≠ .cycles) →
      Answers (.cycleBoundary bi) s (fun t => t = s))

/-- 06 R203, R201, 04 R151, R162, 05 R180, 01 R37, R39: COMMIT takes a die out of RULES_OUT into IDLE once every region has finished. A region
that runs sends its block in the die's encoding, with its own number and cycle, forced into the restrictive form where the cycle or an
earlier event asks for it; a region with an uncorrectable error in what it digests is halted and excluded. A halted region, and one
whose pair has stopped for the cycle, send none. COMMIT at another time does nothing. The model's readings in it: log entry 27. -/
def Obligations.CommitSendsBlocks : Prop :=
  ∀ (s : State) (d : Die) (ci : CommitIn),
    let x := dieOf s d
    (x.phase = phRULESOUT → regionsDone x = true → Answers (.commit d ci) s (fun t =>
      (dieOf t d).phase = phIDLE ∧ t.mode = s.mode ∧ t.cycle = s.cycle ∧
      ∀ r, r < 16 →
        let g := reg x r
        let h := reg (dieOf t d) r
        let bad := ci.uncorrectable.any (fun q => decide (q.1 = r))
        (g.halted = true ∨ g.haltCycle = true ∨ bad = true → h.sent = []) ∧
        (g.halted = false → bad = true → h.halted = true ∧ isExcluded (copyOf t.vote d r) = true) ∧
        (g.halted = false → g.haltCycle = false → bad = false → h.forceNext = false ∧
          ∃ b : Block, h.sent = (blockWords b).map (encodeWord x.strap) ∧ b.region = r ∧ b.cycle = x.cycleNo ∧
            (blockForced g = true → b.share = 0 ∧ b.expect = 0 ∧ b.summary = 0x3F ∧ b.payload = [])))) ∧
    (x.phase ≠ phRULESOUT ∨ regionsDone x = false → Answers (.commit d ci) s (fun t => t = s))

/-! ## Start, supply and resets (06, 13, 14) -/

/-- 14 R408 to R410, R411, 06 R232, 13 R383, R400: the supply starts a DORMANT module, with every long test where no shutdown mark stands, and with
the seal block next where one does. An automatic restart reads its switch once its 10 s are over and, after an overtemperature trip,
the hottest junction reads 105 °C or less. A module that loses its supply is DORMANT, and one that ran has tripped and recorded it.
The model's readings in it: log entries 34 and 35. -/
def Obligations.SupplyStartsAndEndsTheModule : Prop :=
  ∀ (s : State) (si : StartIn) (w : AutoWait) (hottest : Nat) (ci : CauseIn),
    (s.mode = .dormant → s.ao.shutMark = false → Answers (.logicSupplyQualified si) s (FullStartBegun si)) ∧
    (∀ code, s.mode = .dormant → s.ao.shutMark = true → si.blockOk = true → s.ao.blockOk = true → sealStart si.contacts = .inr code →
      Answers (.logicSupplyQualified si) s (fun t => t.mode = .safe ∧ t.heldForm = false ∧ t.refused = code ∧ t.ao.tripLatch = true ∧
        t.ao.pumpRun = false ∧ t.ao.claimEn = false ∧ t.start = .idle)) ∧
    (s.mode ≠ .dormant → Answers (.logicSupplyQualified si) s (fun t => t = s)) ∧
    (s.ao.autoWait = some w → s.mode = .safe → s.heldForm = false → w.since + 10000 ≤ s.ao.ms → w.overtemp = false ∨ hottest ≤ 105 →
      (permitOn s swAUTORESTART = false → Answers (.autoRestart si hottest) s (fun t =>
        t.ao.autoWait = none ∧ t.mode = .safe ∧ t.ao.tripLatch = s.ao.tripLatch ∧ t.ao.autoTimes = s.ao.autoTimes)) ∧
      (permitOn s swAUTORESTART = true → Answers (.autoRestart si hottest) s (fun t => FullStartBegun si t ∧
        (si.blockOk = true → s.ao.blockOk = true → t.ao.autoTimes = lastN 3 (s.ao.autoTimes ++ [s.ao.ms]))))) ∧
    (s.ao.autoWait = none ∨ s.mode ≠ .safe ∨ (s.ao.autoWait = some w ∧ (s.ao.ms < w.since + 10000 ∨ (w.overtemp = true ∧ 105 < hottest))) →
      Answers (.autoRestart si hottest) s (fun t => t = s)) ∧
    (s.mode ≠ .dormant → Answers (.logicSupplyLost ci) s (fun t =>
      t.mode = .dormant ∧ t.overlays = overlaysClear ∧ t.ao.claimEn = false ∧ t.ao.pumpRun = false ∧ t.outs = outStReset ∧
      t.loaded = false ∧ (∀ d, (dieOf t d).cells = []) ∧
      (RunsClear s → ci.line ≠ 2 → t.ao.tripLatch = true ∧ TripRecorded .logicSupply 0 s t))) ∧
    (s.mode = .dormant → Answers (.logicSupplyLost ci) s (fun t => t = s))

/-- 14 R412, R418, R420, R427, R428: the bridle is tested while its scan enable is open alone. A unit whose two comparisons do not both agree
refuses the start, the bridle's own with every domain held in reset; one that passes leaves the others to wait for, and the last lets the
start complete where the clocks agree. The shutdown sequence records a run whose tests all passed under the record key, discards
the keys, leaves the mark where the bridle passed too, and parks, or starts the module that it was entered to restart.
The model's readings in it: log entries 35 and 37. -/
def Obligations.BistResultsDecide : Prop :=
  ∀ (s : State) (u : BistUnit) (a b f : Bool) (left : List BistUnit) (last : Word) (ti : TestIn) (br : Bool) (si : StartIn),
    let refused := fun (code : BitVec 8) (t : State) => t.mode = .safe ∧ t.heldForm = s.heldForm ∧ t.refused = code ∧ t.start = .idle ∧
      t.ao.claimEn = false ∧ t.ao.pumpRun = false ∧ t.clampOpen = [] ∧ t.win.alive = true
    (s.start = .bridleBist → scanOpen s = true → (a && b) = false → Answers (.bistComplete .bridle a b) s (fun t =>
      t.mode = .safe ∧ t.heldForm = true ∧ t.refused = 0x0D ∧ t.ao.claimEn = false ∧ t.ao.pumpRun = false ∧ t.outs = outStReset)) ∧
    (∀ code, s.start = .bridleBist → scanOpen s = true → s.startIn = some si → sealStart si.contacts = .inr code →
      Answers (.bistComplete .bridle true true) s (fun t => refused code t ∧ t.recordKey = some recordKey ∧ t.ao.pd2On = true ∧
        t.ao.scanLocked = true)) ∧
    (s.start = .bridleBist → u ≠ .bridle ∨ scanOpen s = false → Answers (.bistComplete u a b) s (fun t => t = s)) ∧
    (s.start = .unitBist left → left.contains u = true → (a && b) = false → Answers (.bistComplete u a b) s
      (refused (if isMemory u then 0x0B else 0x0C))) ∧
    (s.start = .unitBist left → left.contains u = true → left.filter (· ≠ u) ≠ [] → Answers (.bistComplete u true true) s (fun t =>
      t = { s with start := .unitBist (left.filter (· ≠ u)) })) ∧
    (s.start = .unitBist left → left.contains u = true → left.filter (· ≠ u) = [] → s.startIn = some si →
      (clocksOk si.clocks.a = true → clocksOk si.clocks.b = true → clocksOk si.clocks.c = true → si.timeBaseOk = true →
        Answers (.bistComplete u true true) s (fun t =>
          t.start = .ready ∧ t.startIn = none ∧ t.ao.tripLatch = false ∧ t.ao.pumpRun = true ∧ t.mode = s.mode ∧ t.dies = s.dies ∧
          t.outs = s.outs)) ∧
      (clocksOk si.clocks.a = false ∨ clocksOk si.clocks.b = false ∨ clocksOk si.clocks.c = false ∨ si.timeBaseOk = false →
        Answers (.bistComplete u true true) s (refused 0x0E))) ∧
    (s.start = .unitBist left → left.contains u = false → Answers (.bistComplete u a b) s (fun t => t = s)) ∧
    (∀ r, s.start = .idle → s.shut = .testing left f r last → left.contains u = true → Answers (.bistComplete u a b) s (fun t =>
      t = { s with shut := .testing (left.filter (· ≠ u)) (f || !(a && b)) r last, tail := t.tail })) ∧
    (s.mode = .shutdown → s.shut = .testing [] f false last → Answers (.shutdownBistComplete ti br si) s (fun t =>
      t.shut = .parked ∧ t.mode = .shutdown ∧ t.ao.shutMark = (testsOk ti && !f && br) ∧ t.links.keys = [] ∧ t.recordKey = none ∧
      t.win.alive = false ∧
      ((testsOk ti && !f) = true → t.bist.results = 0x1FF ∧ t.bist.cycle = last ∧ t.bist.fwDigest = s.fwDigest ∧
        t.bist.count = s.bist.count + 1 ∧ bistGenuine (some recordKey) t.bist = true) ∧
      ((testsOk ti && !f) = false → t.bist = s.bist))) ∧
    (s.mode = .shutdown → s.shut = .testing [] f true last → (testsOk ti && !f && br) = false →
      Answers (.shutdownBistComplete ti br si) s (FullStartBegun si)) ∧
    (s.mode ≠ .shutdown ∨ s.shut = .none ∨ s.shut = .parked ∨ (s.shut = .testing left f a last ∧ left ≠ []) →
      Answers (.shutdownBistComplete ti br si) s (fun t => t = s))

/-- 13 R393 to R397, Tables 13.7, 13.11: a source that asserts notes its time; one released within 2 s asks a running module for a restart, or
starts one in WAKE or SAFE, with a RESTART record of its hold time, and is IGNORED in a shutdown that is not parked; one held for 2 s trips
and holds the module in reset until the last is free, when the module starts; one held for 60 s is recorded as STUCK. SHDN# asks
for a shutdown, and its release starts a parked module. What comes before its time, or without its source, does nothing.
The model's readings in it: log entry 36. -/
def Obligations.ResetSourcesAct : Prop :=
  ∀ (s : State) (q : ResetSrc) (ci : CauseIn) (si : StartIn),
    let src := resetIn s.ao q
    let early := s.mode ≠ .dormant ∧ src.asserted = true ∧ src.held = false ∧ s.ao.ms < src.since + 2000
    let ripe := s.mode ≠ .dormant ∧ src.asserted = true ∧ src.held = false ∧ src.since + 2000 ≤ s.ao.ms
    let noted := fun (source cls : BitVec 4) (dur : BitVec 16) (t : State) =>
      ∃ y, t.ao.resetHist.getLast? = some y ∧ y.source = source ∧ y.cls = cls ∧ y.duration = dur
    let same := fun (t : State) => t.mode = s.mode ∧ t.outs = s.outs ∧ t.dies = s.dies
    let nothing := fun (i : Instr) => Answers i s (fun t => t = s)
    (s.mode ≠ .dormant → src.asserted = false → Answers (.resetAsserted q) s (fun t =>
      t = { s with ao := putResetIn q { asserted := true, held := false, stuck := false, since := s.ao.ms } s.ao })) ∧
    (s.mode = .dormant ∨ src.asserted = true → nothing (.resetAsserted q)) ∧
    (early → s.mode = .active ∨ s.mode = .standby → Answers (.resetReleased q si) s (fun t =>
      t.ao.stopReq = (if s.ao.stopReq = .none then .restart 0 else s.ao.stopReq) ∧ (resetIn t.ao q).asserted = false ∧
      noted (resetSrcCode q) 1 (holdUnits s.ao src) t ∧ same t)) ∧
    (early → s.mode = .wake ∨ (s.mode = .safe ∧ anyHeld (freeSource q s.ao) = false) → Answers (.resetReleased q si) s (FullStartBegun si)) ∧
    (early → (s.mode = .shutdown ∧ s.shut ≠ .parked) ∨ (s.mode = .safe ∧ anyHeld (freeSource q s.ao) = true) → Answers (.resetReleased q si) s (fun t =>
      t.ao.stopReq = s.ao.stopReq ∧ (resetIn t.ao q).asserted = false ∧ noted (resetSrcCode q) 5 (holdUnits s.ao src) t ∧ same t)) ∧
    (s.mode ≠ .dormant → src.asserted = true → src.held = true ∨ src.since + 2000 ≤ s.ao.ms → anyAsserted (freeSource q s.ao) = false →
      Answers (.resetReleased q si) s (FullStartBegun si)) ∧
    (s.mode ≠ .dormant → src.asserted = true → src.held = true → anyAsserted (freeSource q s.ao) = true →
      Answers (.resetReleased q si) s (fun t => t = { s with ao := freeSource q s.ao })) ∧
    (s.mode = .dormant ∨ src.asserted = false → nothing (.resetReleased q si)) ∧
    (ripe → Answers (.resetHeld q ci) s (fun t =>
      t.mode = .safe ∧ t.heldForm = true ∧ t.ao.claimEn = false ∧ t.ao.pumpRun = false ∧ t.outs = outStReset ∧
      (resetIn t.ao q).held = true ∧ noted (resetSrcCode q) 2 200 t ∧ (RunsClear s → ci.line ≠ 2 → TripRecorded .resetHeld 0 s t))) ∧
    (early ∨ src.asserted = false ∨ src.held = true → nothing (.resetHeld q ci)) ∧
    (src.held = true → src.stuck = false → src.since + 60000 ≤ s.ao.ms → Answers (.resetStuck q) s (fun t =>
      noted (resetSrcCode q) 3 6000 t ∧ (resetIn t.ao q).stuck = true ∧ t.heldForm = s.heldForm ∧ same t)) ∧
    (src.held = false ∨ src.stuck = true ∨ s.ao.ms < src.since + 60000 → nothing (.resetStuck q)) ∧
    (s.mode = .safe → s.heldForm = true → anyHeld s.ao = true → Answers (.resetSourcesFreed si) s (fun t =>
      FullStartBegun si t ∧ anyAsserted t.ao = false ∧ anyHeld t.ao = false)) ∧
    (s.mode ≠ .safe ∨ s.heldForm = false ∨ anyHeld s.ao = false → nothing (.resetSourcesFreed si)) ∧
    (s.mode = .active ∨ s.mode = .standby ∨ s.mode = .wake → s.ao.shdn = false → Answers (.shdnAsserted si) s (fun t =>
      t.ao.shdn = true ∧ t.ao.stopReq = (if s.ao.stopReq = .none then .shutdown 0 else s.ao.stopReq) ∧ noted 3 4 0 t ∧ same t)) ∧
    ((s.mode = .shutdown ∧ s.shut ≠ .parked) ∨ (s.mode = .safe ∧ anyHeld s.ao = true) → s.ao.shdn = false → Answers (.shdnAsserted si) s (fun t =>
      t.ao.shdn = true ∧ t.ao.stopReq = s.ao.stopReq ∧ noted 3 5 0 t ∧ same t)) ∧
    (s.mode = .safe → anyHeld s.ao = false → s.ao.shdn = false → Answers (.shdnAsserted si) s (FullStartBegun si)) ∧
    (s.mode = .dormant ∨ s.ao.shdn = true → nothing (.shdnAsserted si)) ∧
    (s.ao.shdn = true → s.shut ≠ .parked → Answers (.shdnReleased si) s (fun t => t = { s with ao := { s.ao with shdn := false } })) ∧
    (s.ao.shdn = true → s.shut = .parked → s.ao.shutMark = false → Answers (.shdnReleased si) s (FullStartBegun si)) ∧
    (s.ao.shdn = false → nothing (.shdnReleased si))

/-- 13 R389, 15 R434, R437, R438, R448: the cover sets MAINTENANCE, and clears it once it has read closed for 10 s; in DORMANT its opening is stored
with the RTC time. The seal block is read without the latched switches changing. A removed carrier ends staging, an operation under way,
whose slot goes back, and a change that has not switched; an inserted one stands. A force goes at its EXPIRY cycle and not before.
The model's readings in it: log entries 39 and 40. -/
def Obligations.CoverSealCarrierAndForces : Prop :=
  ∀ (s : State) (c : Carrier) (v : Seal) (f : ForceEntry),
    let same := fun (t : State) => t.mode = s.mode ∧ t.outs = s.outs ∧ t.ins = s.ins
    (s.mode ≠ .dormant → Answers .coverOpen s (fun t => t.ao.coverOpen = true ∧ t.ao.coverAt = s.ao.ms ∧
      t.overlays = { s.overlays with maintenance := true } ∧ same t)) ∧
    (s.mode = .dormant → Answers .coverOpen s (fun t => t.ao.coverOpen = true ∧
      t.ao.coverEvents = lastN 8 (s.ao.coverEvents ++ [s.ao.rtcSec]) ∧ t.overlays = s.overlays)) ∧
    (s.mode ≠ .dormant → s.ao.coverOpen = false ∨ s.ao.coverAt + 10000 ≤ s.ao.ms → Answers .coverClosed s (fun t =>
      t.ao.coverOpen = false ∧ t.overlays = { s.overlays with maintenance := false } ∧ same t)) ∧
    (s.mode ≠ .dormant → s.ao.coverOpen = true → s.ao.ms < s.ao.coverAt + 10000 → Answers .coverClosed s (fun t => t = s)) ∧
    (s.mode = .dormant → Answers .coverClosed s (fun t => t = { s with ao := { s.ao with coverOpen := false } })) ∧
    (s.mode ≠ .dormant → Answers (.sealRead v) s (fun t =>
      t = { s with ao := { s.ao with contacts := v, sealShown := v }, tail := t.tail })) ∧
    (s.mode = .dormant → Answers (.sealRead v) s (fun t => t = s)) ∧
    (s.carrier = some c → Answers .carrierRemoved s (fun t =>
      t.carrier = none ∧ t.update.staging = false ∧ t.update.op = .none ∧ t.part = s.part ∧ t.mode = s.mode ∧
      (bridleRuns s = true → s.change.phase ≠ .none → t.change.phase = .none ∧ t.overlays.change = false) ∧
      (∀ n, bridleRuns s = true → opSlot s.update.op = some n → winFlag t.win n = ownGATEWAY))) ∧
    (s.carrier = none → Answers .carrierRemoved s (fun t => t = s)) ∧
    (s.carrier = none → Answers (.carrierInserted c) s (fun t => t = { s with carrier := some c, tail := t.tail })) ∧
    (s.carrier ≠ none → Answers (.carrierInserted c) s (fun t => t = s)) ∧
    (cyclesRun s = true → s.forces.contains f = true → f.f3 ≠ 0 → serialAfter f.f3 s.cycle = false → Answers (.forceExpiry f) s (fun t =>
      t.forces = s.forces.filter (· ≠ f) ∧ same t ∧
      (s.overlays.forcing = true ∨ s.mode ≠ .wake → t.overlays = { s.overlays with forcing := !(s.forces.filter (· ≠ f)).isEmpty }))) ∧
    (cyclesRun s = false ∨ s.forces.contains f = false ∨ f.f3 = 0 ∨ serialAfter f.f3 s.cycle = true →
      Answers (.forceExpiry f) s (fun t => t = s))

/-- 02 R83, R101, 11 R341, R345, R349, 17 R475: what ends with its time. A running timer whose rest is within P expires with the timer step of its
die's RULES_IN, and the call of a point with it. A BOUNDARY cell without fresh data takes its restrictive values, a remote binding its
substitutes, and SUBSTITUTE shows it; an uncommitted proxy unheard of for 4 cycles returns to IDLE; a crossing route in its fifth
cycle of waiting returns to IDLE with REMOTE_TIMEOUT, both without their marks; a two-step entry goes after 60 s. Nothing ends before its
time. The model's readings in it: log entry 26. -/
def Obligations.TimeEndsWhatWaits : Prop :=
  ∀ (s : State) (d : Die) (n k i r : Nat) (e : PendEntry),
    let x := dieOf s d
    let c := getCell x n
    let q := getRoute x i
    let due := x.phase = phSAMPLE ∧ isLive c = true ∧ regHalted x (regionOf n) = false ∧ (timerOf c k).tstate = tRUNNING ∧
      (timerOf c k).fresh = false ∧ (timerOf c k).trem.toNat ≤ periodOf s
    let unheard := fun (h : Option TerrEntry) => ∀ u, h = some u → 4 ≤ (x.cycleNo - u.taken).toNat
    let unmarked := fun (t : State) => ∀ m p, p < 4 → regHalted x (regionOf m) = false →
      markOfRoute (isProxy q) q.routeId (markOf (getCell (dieOf t d) m) p) = false
    let nothing := fun (j : Instr) => Answers j s (fun t => t = s)
    (due → CheckedCell c → k < 4 → Answers (.timerExpired d n k) s (fun t =>
      exec (.rulesIn d) s = .next t ∧ (dieOf t d).phase = phRULESIN ∧
      (k ≠ 0 ∨ isCls .levelCrossing c = false →
        timerOf (getCell (dieOf t d) n) k = { tstate := tEXPIRED, fresh := false, trem := 0 }) ∧
      (k = 0 → isPointLike c = true → hasFault (getCell (dieOf t d) n) fCALL = true ∧ (getCell (dieOf t d) n).cmd = cmdNONE) ∧
      (k = 0 → isCls .levelCrossing c = true → hasFault (getCell (dieOf t d) n) fCLOSE = true))) ∧
    (¬ due → nothing (.timerExpired d n k)) ∧
    (x.phase = phRULESIN → isLive c = true → isCls .boundary c = true → freshMirror (ctxOf s) x n = none → regHalted x (regionOf n) = false →
      s.mode ≠ .safe → s.mode ≠ .shutdown → Answers (.telegramAgeExpired d n) s (fun t =>
        getCell (dieOf t d) n = clearOwner (restrictCoded (addFaultIf (ownerLost (ctxOf s) c) fREMOTE c)) ∧ OtherCells n d s t ∧
        t.overlays.substitute = true ∧ t.mode = s.mode)) ∧
    (x.phase = phRULESIN → isCls .boundary c = false → substCell (ctxOf s) x n c = true → regHalted x (regionOf n) = false →
      Answers (.telegramAgeExpired d n) s (fun t =>
        getCell (dieOf t d) n = derive (senseOf (ctxOf s) x c) c ∧ OtherCells n d s t ∧ t.mode = s.mode)) ∧
    (x.phase ≠ phRULESIN ∨ substCell (ctxOf s) x n c = false ∨ regHalted x (regionOf n) = true → nothing (.telegramAgeExpired d n)) ∧
    (x.phase = phRULESIN → isProxy q = true → q.state = rsPROBING ∨ q.state = rsPROBED → s.lostTerr.contains (entryDesc (ctxOf s) x q).reqTerr = false →
      unheard (proxyHeard x (entryDesc (ctxOf s) x q) q.key) → Answers (.terrAbsent d i) s (fun t =>
        (getRoute (dieOf t d) i).state = rsIDLE ∧ (∀ j, j ≠ i → getRoute (dieOf t d) j = getRoute x j) ∧ unmarked t ∧
        (∀ m, (getCell (dieOf t d) m).lock = (getCell x m).lock) ∧ t = { s with dies := t.dies })) ∧
    (isProxy q = false ∨ s.lostTerr.contains (entryDesc (ctxOf s) x q).reqTerr = true ∨ ¬ unheard (proxyHeard x (entryDesc (ctxOf s) x q) q.key) →
      nothing (.terrAbsent d i)) ∧
    (x.phase = phPROPAGATE → (getWork x i).waiting = true → (getWork x i).remote = true → isProxy q = false → q.state = rsPROBING →
      q.wait = 4 → Answers (.remoteTimeout d i) s (fun t =>
        (getRoute (dieOf t d) i).state = rsIDLE ∧ (getRoute (dieOf t d) i).reason = rnREMOTETIMEOUT ∧ unmarked t ∧
        (∀ j, j ≠ i → getRoute (dieOf t d) j = getRoute x j) ∧ t = { s with dies := t.dies })) ∧
    ((getWork x i).waiting = false ∨ q.wait ≠ 4 → nothing (.remoteTimeout d i)) ∧
    (60000 < (s.cycle - e.taken).toNat * periodOf s → r < 16 → (reg x r).halted = false → Answers (.pendingExpiry d r e) s (fun t =>
      (reg (dieOf t d) r).sup = { (reg x r).sup with pendings := (reg x r).sup.pendings.filter (· ≠ e) } ∧
      (reg (dieOf t d) r).mem = (reg x r).mem ∧ (∀ p, p ≠ r → reg (dieOf t d) p = reg x p) ∧ t = { s with dies := t.dies })) ∧
    ((s.cycle - e.taken).toNat * periodOf s ≤ 60000 ∨ (reg x r).halted = true → nothing (.pendingExpiry d r e))

/-! ## Field inputs (07) -/

/-- 07 R239, R244, R246, R248, R251, 08 R262: a window end steps the counter of each input of its group in both halves and leaves the other groups
alone; the reading follows the filtered state, faults and discrepancies, and a missing cross-link word sets the input fault of every input of
the group. A latched discrepancy makes its inputs read OFF; it clears once the raw samples have shown the safe state long enough; an
input fault clears after 16 clean windows; an event leaves its spool for its region and starts REVERT there. A gondola that does not run,
and a command before its condition holds, change nothing. The model's readings in it: log entry 17. -/
def Obligations.InputWindowsAndFaults : Prop :=
  ∀ (s : State) (d : Die) (g k n j m r : Nat) (samples : List InSample) (lh ll re ro : Bool) (half : Side),
    let nothing := fun (i : Instr) => Answers i s (fun t => t = s)
    let x := s.ins
    (gondolaRuns s = true → g < 12 → k < 16 → n = 16 * g + k → Answers (.inputWindowEnd g samples lh ll) s (fun t =>
      let q := samples.getD k sampleOff
      let c := inCell x n
      let e := inCell t.ins n
      (e.h.cnt, e.h.filt) = filterStep (cfgFilterN (inCfg x n)) q.rawH c.h.cnt c.h.filt ∧
      (e.l.cnt, e.l.filt) = filterStep (cfgFilterN (inCfg x n)) q.rawL c.l.cnt c.l.filt ∧
      e.h.read = readingOf t.ins n .h ∧ e.l.read = readingOf t.ins n .l ∧
      (lh = false ∨ ll = false ∨ s.outs.stoppedH = true ∨ s.outs.stoppedL = true → e.fault = true) ∧
      (∀ p, p / 16 ≠ g → inCell t.ins p = inCell x p) ∧ t.outs = s.outs ∧ t.mode = s.mode ∧
      ∀ e, (dieOf t e).cells = (dieOf s e).cells ∧ (dieOf t e).regions = (dieOf s e).regions)) ∧
    (gondolaRuns s = false ∨ 12 ≤ g → nothing (.inputWindowEnd g samples lh ll)) ∧
    (gondolaRuns s = true → j < 96 → checkerOf (pairSt x j) half = .timing m → pairCond x half j = true →
      discWindows x j ≤ m + 1 → Answers (.discrepancyLatched half j) s (fun t =>
        checkerOf (pairSt t.ins j) half = .latched 0 ∧ (inCell t.ins (2 * j)).h.read = false ∧ (inCell t.ins (2 * j)).l.read = false ∧
        (cfgPair (inCfg x (2 * j + 1)) ≠ 0 → (inCell t.ins (2 * j + 1)).h.read = false ∧ (inCell t.ins (2 * j + 1)).l.read = false) ∧
        (∀ i, i ≠ j → pairSt t.ins i = pairSt x i) ∧ t.outs = s.outs ∧ t.mode = s.mode)) ∧
    (gondolaRuns s = false ∨ (∀ v, checkerOf (pairSt x j) half ≠ .timing v) ∨ pairCond x half j = false →
      nothing (.discrepancyLatched half j)) ∧
    (gondolaRuns s = true → j < 96 → checkerOf (pairSt x j) half = .latched m → cfgPair (inCfg x (2 * j)) ≠ 0 →
      safeSamples (cfgPair (inCfg x (2 * j))) (cfgAntiSafe (inCfg x (2 * j))) re ro = true → clearWindows x j ≤ m + 1 →
      Answers (.discrepancyCleared half j re ro) s (fun t =>
        checkerOf (pairSt t.ins j) half = .quiet ∧ (∀ i, i ≠ j → pairSt t.ins i = pairSt x i) ∧ t.outs = s.outs ∧ t.mode = s.mode)) ∧
    (gondolaRuns s = false ∨ isLatched (checkerOf (pairSt x j) half) = false → nothing (.discrepancyCleared half j re ro)) ∧
    (gondolaRuns s = true → n < 192 → (inCell x n).fault = true → 15 ≤ (inCell x n).clean →
      inCause x n (lh && !s.outs.stoppedH) (ll && !s.outs.stoppedL) (pairApart x n) = none → Answers (.inputFaultClear n lh ll) s (fun t =>
        (inCell t.ins n).fault = false ∧ (inCell t.ins n).h.read = readingOf t.ins n .h ∧
        (∀ p, p / 2 ≠ n / 2 → inCell t.ins p = inCell x p) ∧ t.outs = s.outs ∧ t.mode = s.mode)) ∧
    (gondolaRuns s = false ∨ (inCell x n).fault = false ∨ (inCell x n).clean < 15 → nothing (.inputFaultClear n lh ll)) ∧
    (bridleRuns s = true → s.coresOff = false → ∀ w l, (dieOf s d).evSpool.items.drop (dieOf s d).evSpool.readPos = w :: l →
      inputRegion (dieOf s d) (w.extractLsb' 0 8).toNat = some r → (w.extractLsb' 0 8).toNat < 192 → r < 16 →
      Answers (.inputEvent d) s (fun t =>
        (dieOf t d).evSpool.readPos = (dieOf s d).evSpool.readPos + 1 ∧ bitOf (reg (dieOf t d) r).pend (w.extractLsb' 0 8).toNat = true ∧
        (entryPoint (dieOf s d) r tkREVERT ≠ 0 → (reg (dieOf s d) r).halted = false → (reg (dieOf s d) r).haltCycle = false →
          (reg (dieOf t d) r).revert = true) ∧
        (∀ p, p ≠ r → reg (dieOf t d) p = reg (dieOf s d) p) ∧ (dieOf t d).cells = (dieOf s d).cells ∧ t = { s with dies := t.dies })) ∧
    (bridleRuns s = true → s.coresOff = false →
      spIsEmpty (dieOf s d).evSpool = true ∨
        (∃ w l, (dieOf s d).evSpool.items.drop (dieOf s d).evSpool.readPos = w :: l ∧ inputRegion (dieOf s d) (w.extractLsb' 0 8).toNat = none) →
      Answers (.inputEvent d) s (fun t => (dieOf t d).regions = (dieOf s d).regions ∧ (dieOf t d).cells = (dieOf s d).cells ∧
        t = { s with dies := t.dies })) ∧
    (bridleRuns s = false ∨ s.coresOff = true → nothing (.inputEvent d))

/-! ## Field outputs (08) -/

/-- 08 R261, R266, R269, R271 to R274: a high-side dark step that reads OFF in both halves leads to the low-side step, which completes the test
when it reads ON in both; a light step completes it when every sample reads as it should. A step that fails locks the output once its
kind has failed often enough, 2 or for the light step's rest 3 times; a light step that finds drive is refused, and a step that an
action of a higher rank meets is neither passed nor failed. A step that is not due tests nothing. -/
def Obligations.TestStepsPassOrLock : Prop :=
  ∀ (s : State) (o : Nat) (v : LightSample) (level : Level) (met : Bool),
    let c := outCell s.outs o
    let g := groupSt s.outs (outGroup o)
    let untouched := fun (i : Instr) => Answers i s (fun t => outCell t.outs o = c ∧ OtherLocks o s t)
    let locks := fun (i : Instr) (k : BitVec 4) (limit : Nat) => Answers i s (fun t => (outCell t.outs o).age = c.age ∧
      (outCell t.outs o).kind = (if c.kind = fkNONE ∧ limit ≤ failsNow k c then k else c.kind) ∧ OtherLocks o s t)
    (TestDue s o → c.e = true → c.lsNext = false →
      (bothOff g level = true → Answers (.hsDarkStep o level false) s (fun t =>
        (outCell t.outs o).lsNext = true ∧ (outCell t.outs o).age = c.age ∧ (outCell t.outs o).kind = c.kind ∧ OtherLocks o s t)) ∧
      (bothOff g level = false → locks (.hsDarkStep o level false) fkHSSTUCK 2) ∧ untouched (.hsDarkStep o level true)) ∧
    (TestDue s o → c.e = true → c.lsNext = true →
      (bothOn g level = true → Answers (.lsDarkStep o level false) s (fun t =>
        (outCell t.outs o).age = some 0 ∧ (outCell t.outs o).toDue = cfgTestMs (outCfg s.outs o) ∧
        (outCell t.outs o).kind = c.kind ∧ OtherLocks o s t)) ∧
      (bothOn g level = false → locks (.lsDarkStep o level false) fkBYPASS 2) ∧ untouched (.lsDarkStep o level true)) ∧
    (TestDue s o → c.e = false →
      (met = true ∨ v.drive = true ∨ c.latchH = true ∨ c.latchL = true → untouched (.lightStep o v met)) ∧
      (v.drive = false → c.latchH = false → c.latchL = false →
        (bothOn g v.plusHs = true → bothOn g v.minusHs = true → bothOn g v.plusPre = true → bothOn g v.minusPre = true →
          bothOff g v.minusLs = true → Answers (.lightStep o v false) s (fun t => (outCell t.outs o).age = some 0 ∧
            (outCell t.outs o).cls = 2 ∧
            (outCell t.outs o).kind = (if clearedByLight c.kind && commandedOff s.outs o then fkNONE else c.kind) ∧ OtherLocks o s t)) ∧
        (bothOn g v.plusHs = false → locks (.lightStep o v false) fkHSTEST 2) ∧
        (bothOn g v.plusHs = true → bothOn g v.minusHs = false ∨ bothOn g v.plusPre = false ∨ bothOn g v.minusPre = false ∨
          bothOff g v.minusLs = false → locks (.lightStep o v false) fkLSUNPROVEN 3))) ∧
    (gondolaRuns s = true → c.e = expectOf (outCxOf s) s.outs o →
      (stepDue (outCxOf s) s.outs o = false ∨ c.e = false ∨ c.lsNext = true → untouched (.hsDarkStep o level met)) ∧
      (stepDue (outCxOf s) s.outs o = false ∨ c.e = false ∨ c.lsNext = false → untouched (.lsDarkStep o level met)) ∧
      (stepDue (outCxOf s) s.outs o = false ∨ c.e = true → untouched (.lightStep o v met))) ∧
    (gondolaRuns s = false → ∀ i, i = .hsDarkStep o level met ∨ i = .lsDarkStep o level met ∨ i = .lightStep o v met →
      Answers i s (fun t => t = s))

/-- 08 R262, R263, R267, R278, R281, R282: an overload of 25 ms locks an output that is not locked and clears its latches; a lock whose
clearing condition has stood for 16 windows clears, to HL_APART while a half stands stopped, and the output is due for a test; a stopped
half clears every latch and locks every output as HL_APART; a readback window takes the supply's measurements, steps the counters of both
terminals in both halves at the thresholds of the group, and takes the current. -/
def Obligations.LocksAndReadback : Prop :=
  ∀ (s : State) (o us : Nat) (half : Side) (samples : List RbSample) (fs : List (Nat × Nat)),
    o < 96 →
    let c := outCell s.outs o
    let nothing := fun (i : Instr) => Answers i s (fun t => t = s)
    (gondolaRuns s = true → 25000 ≤ us → c.kind = fkNONE → Answers (.overload o us) s (fun t =>
      (outCell t.outs o).kind = fkOVERLOAD ∧ (outCell t.outs o).latchH = false ∧ (outCell t.outs o).latchL = false ∧
      (outCell t.outs o).e = false ∧ OtherLocks o s t)) ∧
    (gondolaRuns s = true → c.kind ≠ fkNONE → Answers (.overload o us) s (fun t => (outCell t.outs o).kind = c.kind ∧ OtherLocks o s t)) ∧
    (us < 25000 ∨ gondolaRuns s = false → nothing (.overload o us)) ∧
    (gondolaRuns s = true → clearCond s.outs o = true → 15 ≤ c.clearRun → Answers (.lockClear o) s (fun t =>
      (outCell t.outs o).kind = (if s.outs.stoppedH || s.outs.stoppedL then fkHLAPART else fkNONE) ∧ (outCell t.outs o).toDue = 0 ∧
      OtherLocks o s t)) ∧
    (gondolaRuns s = false ∨ clearCond s.outs o = false ∨ c.clearRun < 15 → nothing (.lockClear o)) ∧
    (gondolaRuns s = true → Answers (.gondolaHalfStopped half) s (fun t =>
      (∀ p, (outCell t.outs p).latchH = false ∧ (outCell t.outs p).latchL = false) ∧
      (outCell t.outs o).kind = (if c.kind = fkNONE then fkHLAPART else c.kind) ∧
      (t.outs.stoppedH = (s.outs.stoppedH || decide (half = .h))) ∧ (t.outs.stoppedL = (s.outs.stoppedL || decide (half = .l))) ∧
      t.mode = s.mode)) ∧
    (gondolaRuns s = true → Answers (.readbackWindowEnd samples fs) s (fun t =>
      let q := samples.getD o rbSampleOff
      let e := outCell t.outs o
      let m := fs.getD (outGroup o) (0, 0)
      let g := { groupSt s.outs (outGroup o) with mvH := m.1, mvL := m.2 }
      e.h.plus = rbFilter (readsOn g .h q.plus) c.h.plus ∧ e.h.minus = rbFilter (readsOn g .h q.minus) c.h.minus ∧
      e.l.plus = rbFilter (readsOn g .l q.plus) c.l.plus ∧ e.l.minus = rbFilter (readsOn g .l q.minus) c.l.minus ∧ e.cur = min q.cur 1023 ∧
      (groupSt t.outs (outGroup o)).mvH = m.1 ∧ (groupSt t.outs (outGroup o)).mvL = m.2 ∧
      (groupSt t.outs (outGroup o)).sag = (decide (m.1 < 17400) || decide (m.2 < 17400)) ∧
      (groupSt t.outs (outGroup o)).cut = (groupSt s.outs (outGroup o)).cut ∧ t.mode = s.mode)) ∧
    (gondolaRuns s = false → nothing (.gondolaHalfStopped half) ∧ nothing (.readbackWindowEnd samples fs))

/-- 08 R265, R277 to R280 (Table 8.7): LOW of a group is noted after 1 ms below 19.2 V in a half and cleared after 100 ms at 19.6 V or above in
both; a half that sees less than 17.0 V for 5 ms or more than 32 V for 1 ms cuts the group and clears the latches of its outputs and of no
other; both halves restore one that they have seen between 20.4 and 30.0 V for 500 ms, and it stays clear up to a RELEASE; a sag
below 17.4 V suspends comparison from its measurement on. A command whose condition does not hold, or of a gondola that does not run,
changes nothing. The model's readings in it: log entry 33. -/
def Obligations.GroupsCutAndRestore : Prop :=
  ∀ (s : State) (g : Nat) (q : SupplyIn),
    let p := groupSt s.outs g
    let sag := decide (q.mvH < 17400) || decide (q.mvL < 17400)
    let m : GroupSt := { p with mvH := q.mvH, mvL := q.mvL, sag := sag, suspend := if p.sag && !sag then 8 else p.suspend }
    let others := fun (t : State) => (∀ k, k ≠ g → groupSt t.outs k = groupSt s.outs k) ∧ t.mode = s.mode ∧ t.ins = s.ins ∧ t.ao = s.ao
    let nothing := fun (i : Instr) => Answers i s (fun t => t = s)
    let low := fun (mv us : Nat) => mv < 19200 ∧ 1000 ≤ us
    let bad := fun (mv us : Nat) => (mv < 17000 ∧ 5000 ≤ us) ∨ (32000 < mv ∧ 1000 ≤ us)
    let good := fun (mv us : Nat) => 20400 ≤ mv ∧ mv ≤ 30000 ∧ 500000 ≤ us
    let high := fun (mv us : Nat) => 19600 ≤ mv ∧ 100000 ≤ us
    (gondolaRuns s = true → g < 8 →
      (low q.mvH q.usH ∨ low q.mvL q.usL → Answers (.groupLow g q) s (fun t =>
        groupSt t.outs g = { m with low := true, lowAt := s.ao.ms } ∧ bitOf t.tether.lowSeen g = true ∧ others t ∧
        t.outs.outs = s.outs.outs)) ∧
      (high q.mvH q.usH → high q.mvL q.usL → p.lowAt + 100 ≤ s.ao.ms → Answers (.lowCleared g q) s (fun t =>
        groupSt t.outs g = { m with low := false } ∧ t.tether = s.tether ∧ others t ∧ t.outs.outs = s.outs.outs)) ∧
      (sag = true → Answers (.supplySag g q) s (fun t => groupSt t.outs g = m ∧ others t ∧ t.outs.outs = s.outs.outs)) ∧
      (bad q.mvH q.usH ∨ bad q.mvL q.usL → Answers (.groupCut g q) s (fun t =>
        groupSt t.outs g = { m with cut := true, cutAt := s.ao.ms, held := false, shownAt := none } ∧ others t ∧
        (∀ o, outGroup o = g → (outCell t.outs o).latchH = false ∧ (outCell t.outs o).latchL = false) ∧
        (∀ o, outGroup o ≠ g → (outCell t.outs o).latchH = (outCell s.outs o).latchH ∧ (outCell t.outs o).latchL = (outCell s.outs o).latchL) ∧
        (p.cut = false → ∀ d r, r < 16 → bitOf (reg (dieOf t d) r).posted 0xC7 = true) ∧ (p.cut = true → t.dies = s.dies))) ∧
      (good q.mvH q.usH → good q.mvL q.usL → p.cut = true → p.cutAt + 500 ≤ s.ao.ms → Answers (.groupRestored g q) s (fun t =>
        groupSt t.outs g = { m with cut := false, held := true, shownAt := none, suspend := 8 } ∧ others t ∧
        (∀ o, (outCell t.outs o).latchH = (outCell s.outs o).latchH ∧ (outCell t.outs o).latchL = (outCell s.outs o).latchL) ∧
        ∀ d r, r < 16 → bitOf (reg (dieOf t d) r).posted 0xC7 = true))) ∧
    (¬ low q.mvH q.usH → ¬ low q.mvL q.usL → nothing (.groupLow g q)) ∧
    (¬ high q.mvH q.usH ∨ ¬ high q.mvL q.usL ∨ s.ao.ms < p.lowAt + 100 → nothing (.lowCleared g q)) ∧
    (sag = false → nothing (.supplySag g q)) ∧
    (¬ bad q.mvH q.usH → ¬ bad q.mvL q.usL → nothing (.groupCut g q)) ∧
    (¬ good q.mvH q.usH ∨ ¬ good q.mvL q.usL ∨ p.cut = false ∨ s.ao.ms < p.cutAt + 500 → nothing (.groupRestored g q)) ∧
    (gondolaRuns s = false ∨ 8 ≤ g → ∀ i, i = .groupLow g q ∨ i = .lowCleared g q ∨ i = .supplySag g q ∨ i = .groupCut g q ∨
      i = .groupRestored g q → nothing i)

/-! ## Links (09, 12) -/

/-- 09 R294, R301, R303, R305, 10 R319, 12 R359, R362, 18 R488, 19 R501: a class S telegram that passes every test moves its link on, enters the RX spool
of its port and stays there up to SAMPLE; one that finds the spool full is lost and counts as not received. An IDLE and a HEART of the
partner are noted at once. TIME with VALID steps or slews the time base, a counter setup waits for the next cycle start or is counted
as refused, a TRANSFER of an undefined kind is counted and ends its pass. A telegram that fails a test is counted with its cause, on its
link where that is known and else on its port, and has no other effect; a port that is not up takes nothing.
The model's readings in it: log entries 30 and 31. -/
def Obligations.TelegramsAreTakenOrDiscarded : Prop :=
  ∀ (s : State) (p : Port) (t : Tel) (n : Nat) (cause : BitVec 4) (echoed : Bool),
    let rx := spoolRxS s.links p
    let same := fun (u : State) => u.mode = s.mode ∧ u.dies = s.dies ∧ u.outs = s.outs ∧ u.ins = s.ins ∧ u.cycle = s.cycle
    (TelAccepted s p t n → isClassS (telType t) = true → spFull rxSDepth rx = false → Answers (telCommand p t) s (fun u =>
      let l := linkSt s.links n
      let k := linkSt u.links n
      k.lastSeqS = t.h3 ∧ k.acceptS = s.ao.ms ∧ k.accepted = l.accepted + 1 ∧ k.creditIn = telCredit t ∧ k.echo = some t.h4 ∧
      k.peerSafe = telSafe t ∧ k.state = l.state ∧ (∀ m, m ≠ n → linkSt u.links m = linkSt s.links m) ∧
      (rx.openPkt = none → ∃ x : LinkTel, (spoolRxS u.links p).items = rx.items ++ [x] ∧ x.link = n ∧ x.tel = t) ∧
      (telType t = tyIDLE → partnerLink s = some n → u.tether.idleSeen = true) ∧
      (partnerLink s = some n → u.tether.partnerSafe = some (telSafe t)) ∧
      (telType t = tyHEART → partnerLink s = some n → t.payload.length = 37 →
        (∀ h, s.tether.heart = some h → serialAfter t.h6 h.cycle = true) →
        u.tether.heart = some (heartOf t.h6 t.payload) ∧ u.tether.heartNew = true) ∧ same u)) ∧
    (TelAccepted s p t n → isClassS (telType t) = true → spFull rxSDepth rx = true → Answers (telCommand p t) s (fun u =>
      (spoolRxS u.links p).overflow = true ∧ (spoolRxS u.links p).items = rx.items ∧
      (linkSt u.links n).accepted = (linkSt s.links n).accepted ∧ (linkSt u.links n).lastSeqS = (linkSt s.links n).lastSeqS ∧
      u = { s with links := u.links })) ∧
    (TelAccepted s p t n → telType t = tyTIME → Answers (.timeTelegram p t) s (fun u =>
      let utc : BitVec 48 := (t.payload.getD 0 0).extractLsb' 0 16 ++ t.payload.getD 1 0
      let target := utc + BitVec.ofNat 48 (500 * (telAge s.ao.ms t).getD 0)
      let far := 10000000 < ((target.toNat : Int) - s.tail.utc.toNat).natAbs
      let valid := t.payload.length = 4 ∧ bitOf (t.payload.getD 2 0) 1 = true
      (valid → u.links.utcNew = utc.setWidth 64) ∧
      (valid → s.tail.timeValid = false ∨ far → u.tail.utc = target ∧ u.tail.timeValid = true ∧ u.tail.target = none) ∧
      (valid → s.tail.timeValid = true → ¬ far → u.tail.utc = s.tail.utc ∧ u.tail.target = some target) ∧
      (¬ valid → u.tail = s.tail) ∧ same u)) ∧
    (TelAccepted s p t n → telType t = tyDIAG → diagFunc t = 0x40 → ∀ i, i = .diagTelegram p t ∨ i = .pmcSetup p t → Answers i s (fun u =>
      u.pmcSetup = (if pmcSetupOk t.payload then some t.payload else s.pmcSetup) ∧
      getA 0 u.faultCounts bfPmcSetup = getA 0 s.faultCounts bfPmcSetup + (if pmcSetupOk t.payload then 0 else 1) ∧ same u)) ∧
    (TelAccepted s p t n → telType t = tyDIAG → diagFunc t ≠ 0x40 → Answers (.diagTelegram p t) s (fun u => u = { s with links := u.links }) ∧
      Answers (.pmcSetup p t) s (fun u => u = s)) ∧
    (TelAccepted s p t n → telType t = tyTRANSFER → [xkBLOCK, xkROUTES, xkMODULE, xkEND].contains (xferKind t) = false →
      Answers (.transferKindInvalid p t) s (fun u => getA 0 u.faultCounts bfTransfer = getA 0 s.faultCounts bfTransfer + 1 ∧
        u.tether.gotEnd = false ∧ u.tether.gotRoutes = false ∧ u.tether.gotModule = none ∧ same u)) ∧
    (portIsUp s p = true → rxTest (linkCxOf s) p t s.links = .discard (some n) cause echoed → Answers (telCommand p t) s (fun u =>
      let l := linkSt s.links n
      let k := linkSt u.links n
      getA 0 k.discards cause.toNat = getA 0 l.discards cause.toNat + 1 ∧
      (∀ q, q ≠ cause.toNat → getA 0 k.discards q = getA 0 l.discards q) ∧ k.lastCause = cause ∧ k.accepted = l.accepted ∧
      (∀ m, m ≠ n → linkSt u.links m = linkSt s.links m) ∧ u.links.rxS = s.links.rxS ∧ u = { s with links := u.links, tail := u.tail })) ∧
    (portIsUp s p = true → rxTest (linkCxOf s) p t s.links = .discard none cause echoed → Answers (telCommand p t) s (fun u =>
      getA 0 u.links.portDiscards (16 * portIndex p + cause.toNat) = getA 0 s.links.portDiscards (16 * portIndex p + cause.toNat) + 1 ∧
      u = { s with links := { s.links with portDiscards := u.links.portDiscards } })) ∧
    (portIsUp s p = false → Answers (telCommand p t) s (fun u => u = s) ∧ Answers (.pmcSetup p t) s (fun u => u = s))

/-- 12 R366, R367: a TRANSFER telegram of the partner that a receiver takes. The first of a transfer halts every region; a block enters the region memory
or the cell records of all three dies; ROUTES, MODULE and END are noted. From another module, in another mode than STANDBY, and before a
transfer is asked for, none has an effect on the dies. The model's readings in it: log entry 21. -/
def Obligations.TransferTelegramsEnterTheReceiver : Prop :=
  ∀ (s : State) (p : Port) (t : Tel) (n : Nat),
    TelAccepted s p t n → telType t = tyTRANSFER →
    let r := xferRegion t
    let k := xferBlock t
    let off := if xferHalfBit t then 1 else 0
    (∀ c, partnerLink s = some n → s.mode = .standby → s.tether.recv = .receiving c →
      (xferKind t = xkBLOCK → k < memBlocks → t.payload.length = 132 → Answers (.transferBlock p t) s (fun u =>
        (∀ d, (reg (dieOf u d) r).mem = memPutWords (reg (dieOf s d) r).mem (memDATA + 1024 * k + 512 * off) ((t.payload.drop 4).take 128)) ∧
        (∀ d q, q ≠ r → reg (dieOf u d) q = reg (dieOf s d) q) ∧ (∀ d, (dieOf u d).cells = (dieOf s d).cells) ∧ u.mode = .standby)) ∧
      (xferKind t = xkBLOCK → memBlocks ≤ k → k < regionBlocks → t.payload.length = 132 → Answers (.transferBlock p t) s (fun u =>
        let base := 256 * r + 16 * (k - memBlocks) + 8 * off
        (∀ d j, j < 8 → getCell (dieOf u d) (base + j) = cellOfWords (((t.payload.drop 4).drop (16 * j)).take 15)) ∧
        (∀ d m, m < base ∨ base + 8 ≤ m → getCell (dieOf u d) m = getCell (dieOf s d) m) ∧
        (∀ d, (dieOf u d).regions = (dieOf s d).regions) ∧ u.mode = .standby)) ∧
      (xferKind t = xkBLOCK → regionBlocks ≤ k ∨ t.payload.length ≠ 132 → Answers (.transferBlock p t) s (fun u => u.dies = s.dies)) ∧
      (xferKind t = xkROUTES → Answers (.transferRoutes p t) s (fun u => u.tether.gotRoutes = true ∧
        (∀ d, (dieOf u d).regions = (dieOf s d).regions ∧ (dieOf u d).cells = (dieOf s d).cells) ∧
        (k = 0 → t.payload.drop 4 = [] → ∀ d, (dieOf u d).routes = []) ∧ u.mode = .standby)) ∧
      (xferKind t = xkMODULE → Answers (.transferModule p t) s (fun u => u.tether.gotModule = some (xferModuleOf (t.payload.drop 4)) ∧
        u.dies = s.dies ∧ u.mode = .standby)) ∧
      (xferKind t = xkEND → Answers (.transferEnd p t) s (fun u => u.tether.gotEnd = true ∧ u.dies = s.dies ∧ u.mode = .standby))) ∧
    (partnerLink s = some n → s.mode = .standby → s.tether.recv = .asked → [xkBLOCK, xkROUTES, xkMODULE, xkEND].contains (xferKind t) = true →
      Answers (telCommand p t) s (fun u =>
        u.tether.recv = .receiving 0 ∧ u.ao.wdArmed = false ∧ (∀ d q, q < 16 → (reg (dieOf u d) q).halted = true) ∧
        u.mode = .standby ∧ u.outs = s.outs)) ∧
    (partnerLink s ≠ some n ∨ s.mode ≠ .standby ∨ s.tether.recv = .none → Answers (telCommand p t) s (fun u => u.dies = s.dies ∧ u.mode = s.mode))

/-- 09 R287, R288, R302 to R304, 10 R313, R314, R318: a configured port comes up at 1000 Mb/s full duplex alone and resolves its peers; it goes
down. A frame that it does not support is counted under FRAME; requests for its own address are answered, replies resolve the peers
whose next hop they name, and after 60 s each is asked for again. The head of the class S spool leaves where it holds credit, before any
of class D, whose head leaves while no telegram of class S has credit; a stalled write takes the stage that it frees.
The model's readings in it: log entries 30, 43 and 64. -/
def Obligations.PortsResolveAndSend : Prop :=
  ∀ (s : State) (p : Port) (phy : PhyMode) (ip : Word) (x : LinkTel) (f : Frame),
    let up := portIsUp s p = true
    let own := portUsed s p = true ∧ ip = (partPort s.part p).ip
    let nothing := fun (i : Instr) => Answers i s (fun t => t = s)
    let k := 16 * portIndex p + dcFRAME.toNat
    (portsPowered s = true → s.loaded = false ∨ portUsed s p = true → Answers (.portUp p phy) s (fun t =>
      getA false t.links.up (portIndex p) = phy.gigabitFull ∧ (phy.gigabitFull = true → (portUsed s p = true → t.links.clock = true) ∧
        ∀ n, n ∈ linksOn s p → getA false t.links.asked (4 * n + portIndex p) = true) ∧ t = { s with links := t.links })) ∧
    (portsPowered s = false ∨ (s.loaded = true ∧ portUsed s p = false) → nothing (.portUp p phy)) ∧
    Answers (.portDown p) s (fun t => getA false t.links.up (portIndex p) = false ∧
      (∀ k, k ≠ portIndex p → getA false t.links.up k = getA false s.links.up k) ∧ t = { s with links := t.links }) ∧
    (up → frameOk s.part p f = false → Answers (.frameNotAfno p f) s (fun t =>
      getA 0 t.links.portDiscards k = getA 0 s.links.portDiscards k + 1 ∧
      t = { s with links := { s.links with portDiscards := t.links.portDiscards } })) ∧
    (frameOk s.part p f = true ∨ ¬ up → nothing (.frameNotAfno p f)) ∧
    (up → own → Answers (.arpRequest p ip) s (fun t => t = { s with links := { s.links with answered := s.links.answered + 1 } })) ∧
    (¬ up ∨ ¬ own → nothing (.arpRequest p ip)) ∧
    (up → Answers (.arpReply p ip) s (fun t => (∀ n, n ∈ linksOn s p → nextHop s p n = some ip →
      getA false t.links.resolved (4 * n + portIndex p) = true ∧ getA false t.links.asked (4 * n + portIndex p) = false) ∧
      t = { s with links := { s.links with resolved := t.links.resolved, asked := t.links.asked } })) ∧
    (up → getA 0 s.links.arpAt (portIndex p) + 60000 ≤ s.ao.ms + 1 → Answers (.arpRefresh p) s (fun t =>
      (∀ n, n ∈ linksOn s p → getA false t.links.asked (4 * n + portIndex p) = true) ∧ t = { s with links := t.links })) ∧
    (s.ao.ms + 1 < getA 0 s.links.arpAt (portIndex p) + 60000 → nothing (.arpRefresh p)) ∧
    (up → ∀ l, (spoolTxS s.links p).items = x :: l → (spoolTxS s.links p).readPos = 0 → hasCredit s.links x = true →
      Answers (.frameTransmitted p) s (fun t => (spoolTxS t.links p).items = l ∧ (spoolTxS t.links p).last = x ∧
        t.links.txD = s.links.txD ∧ t = { s with links := t.links })) ∧
    (up → ∀ l, (∀ y, y ∈ (spoolTxS s.links p).items → hasCredit s.links y = false) → (spoolTxD s.links p).items = x :: l →
      (spoolTxD s.links p).readPos = 0 → Answers (.frameTransmitted p) s (fun t =>
        (spoolTxD t.links p).last = x ∧ t.links.txS = s.links.txS ∧ t = { s with links := t.links } ∧
        ((spoolTxD s.links p).stalled = [] → (spoolTxD t.links p).items = l) ∧
        (∀ y z, (spoolTxD s.links p).stalled = y :: z → (spoolTxD s.links p).openPkt = none → l.length < 16 →
          (spoolTxD t.links p).stalled = z ∧ ∃ w : LinkTel, (spoolTxD t.links p).items = l ++ [w] ∧ w.tel = y.tel ∧ w.link = y.link))) ∧
    (up → (spoolTxS s.links p).items = [] → (spoolTxD s.links p).items = [] → nothing (.frameTransmitted p)) ∧
    (¬ up → nothing (.arpReply p ip) ∧ nothing (.arpRefresh p) ∧ nothing (.frameTransmitted p))

/-- 09 R307, 11 R333: a link without an acceptance for T_loss, or that has not come up by then, is LOST and posts 0xC2; one with acceptances in 4
consecutive cycles is UP again; a network of a link on A and B that has gone silent while the other delivers is shown; modules that lie
too far apart are recorded once an hour. Before its condition holds no command acts. The model's readings in it: log entry 30. -/
def Obligations.LinksAreLostAndReturn : Prop :=
  ∀ (s : State) (n : Nat),
    let l := linkSt s.links n
    let loss := effTLoss s.part (linkOf s.part n)
    let runs := linksRun s = true ∧ (linkOf s.part n).valid = true
    let nothing := fun (i : Instr) => Answers i s (fun t => t = s)
    let silent := fun (a b : Nat) => (linkOf s.part n).ports = 1 ∧ a + loss < s.ao.ms ∧ s.ao.ms ≤ b + loss
    (runs → (l.state = .up ∧ l.acceptS + loss < s.ao.ms) ∨ (l.state = .down ∧ loss < sinceFirst s) → Answers (.linkLost n) s (fun t =>
      linkSt t.links n = { l with state := .lost, echo := none, accRun := 0 } ∧ (∀ m, m ≠ n → linkSt t.links m = linkSt s.links m) ∧
      (∀ d r, r < 16 → bitOf (reg (dieOf t d) r).posted 0xC2 = true) ∧ t.mode = s.mode ∧ t.outs = s.outs)) ∧
    (l.state = .lost ∨ (l.state = .up ∧ s.ao.ms ≤ l.acceptS + loss) ∨ (l.state = .down ∧ sinceFirst s ≤ loss) → nothing (.linkLost n)) ∧
    (runs → l.state = .lost → 4 ≤ l.accRun + (if l.accNow then 1 else 0) → Answers (.linkUp n) s (fun t =>
      linkSt t.links n = { l with state := .up } ∧ (∀ m, m ≠ n → linkSt t.links m = linkSt s.links m) ∧ t = { s with links := t.links })) ∧
    (l.state ≠ .lost ∨ l.accRun + (if l.accNow then 1 else 0) < 4 → nothing (.linkUp n)) ∧
    (runs → silent l.lastA l.lastB → l.netDownA = false → Answers (.netDown n) s (fun t =>
      (linkSt t.links n).netDownA = true ∧ (linkSt t.links n).netDownB = false ∧ (linkSt t.links n).state = l.state ∧
      t = { s with links := t.links, tail := t.tail })) ∧
    (runs → silent l.lastB l.lastA → l.netDownB = false → Answers (.netDown n) s (fun t =>
      (linkSt t.links n).netDownB = true ∧ (linkSt t.links n).netDownA = false ∧ (linkSt t.links n).state = l.state ∧
      t = { s with links := t.links, tail := t.tail })) ∧
    (¬ silent l.lastA l.lastB → ¬ silent l.lastB l.lastA → nothing (.netDown n)) ∧
    (linksRun s = true → (∀ m, s.apartAt = some m → m + 3600000 ≤ s.ao.ms) → s.apart ≠ [] → Answers .cycleApartRecord s (fun t =>
      t.apartAt = some s.ao.ms ∧ t = { s with apartAt := some s.ao.ms, tail := t.tail })) ∧
    (s.apart = [] ∨ (∃ m, s.apartAt = some m ∧ s.ao.ms < m + 3600000) → nothing .cycleApartRecord) ∧
    (¬ runs → nothing (.linkLost n) ∧ nothing (.linkUp n) ∧ nothing (.netDown n))

/-! ## Requests and TERR entries at a die (02, 03, 11, 15, 17) -/

/-- 11 R341, R342, R344, Tables 11.6, 11.7, 11.8: what one TERR entry does. PROBE enters a proxy, COMMIT grants a probed one, ENTERED, RELEASE and CANCEL
move it on, and RELEASED answers a key that no proxy holds; at the requester PROBED grants the waiting route, NACK ends its attempt, HELD with FAILED and
RELEASED fail a set one. An undefined OP is counted. A module in FIELD role and a halted region take an entry without effect. No entry
changes a lock, and only the named route moves. -/
def Obligations.TerrEntriesMoveTheirRoute : Prop :=
  ∀ (s : State) (d : Die) (e : TerrEntry) (rest : List Todo) (i : Nat),
    HeadTerr s d e rest →
    let x := dieOf s d
    let cx := ctxOf s
    let p := getRoute x i
    let w := getWork x i
    let home := terrRegion cx x e
    let taken := fun (t : State) => (dieOf t d).todo = rest ∧ OtherRoutes i d s t ∧ (∀ n, (getCell (dieOf t d) n).lock = (getCell x n).lock) ∧
      (∀ o, o ≠ d → dieOf t o = dieOf s o) ∧ t.mode = s.mode ∧ t.outs = s.outs
    let route := fun (t : State) => getRoute (dieOf t d) i
    (cx.fieldRole = true → Answers (terrCommand d e) s (fun t => taken t ∧ (dieOf t d).routes = x.routes ∧ (dieOf t d).work = x.work ∧
      (dieOf t d).dieFaults = x.dieFaults)) ∧
    (cx.fieldRole = false →
      (terrOpKnown e.op = false → Answers (.terrOpUndefined d) s (fun t => taken t ∧ (dieOf t d).routes = x.routes ∧
        (dieOf t d).work = x.work ∧ (dieOf t d).dieFaults = x.dieFaults + 1)) ∧
      (terrOpKnown e.op = true → regHalted x home = true → Answers (terrCommand d e) s (fun t => taken t ∧ (dieOf t d).routes = x.routes ∧
        (dieOf t d).work = x.work ∧ (dieOf t d).terrOut = x.terrOut)) ∧
      (regHalted x home = false →
        (proxyEntry x e = some i → p.key = e.key →
          (e.op = 1 → Answers (.terrProbe d) s (fun t => taken t ∧ route t = p)) ∧
          (e.op = 2 → p.state = rsPROBED → Answers (.terrCommit d) s (fun t => taken t ∧ route t = p ∧ (getWork (dieOf t d) i).granted = true)) ∧
          (e.op = 3 → p.state = rsCALLING ∨ p.state = rsLOCKED ∨ p.state = rsPROVEN → Answers (.terrEntered d) s (fun t =>
            taken t ∧ route t = { p with state := rsENTERED })) ∧
          (e.op = 4 → isCommitted p = true → Answers (.terrRelease d) s (fun t => taken t ∧ route t = { p with state := rsRELEASING })) ∧
          (e.op = 5 → isCommitted p = false → Answers (.terrCancel d) s (fun t => taken t ∧ route t = { p with state := rsIDLE, reason := rnNONE }))) ∧
        (proxyEntry x e = none → e.op = 2 ∨ e.op = 3 ∨ e.op = 4 → Answers (terrCommand d e) s (fun t => taken t ∧ route t = p ∧
          (dieOf t d).terrOut = x.terrOut ++
            [{ region := home, terr := e.terr, op := 0xB, reason := 0, route := e.route, key := e.key }])) ∧
        (∀ n, e.op = 1 → proxyEntry x e = none → proxyOf x e.terr e.route = some n → cx.running = true → (readDesc cx x true n).2 = true →
          x.accepted < 64 → lowestFree x = some i → proxyCount cx x (regionOf (readDesc cx x true n).1.entrance) e.terr < 84 →
          Answers (.terrProbe d) s (fun t => taken t ∧
            route t = { routeIdle with state := rsPROBING, origin := 1, routeId := BitVec.ofNat 13 n, key := e.key })) ∧
        (crossingEntry x e = some i → isProxy p = false →
          (e.op = 8 → p.state = rsPROBING → w.waiting = true → Answers (.terrProbed d) s (fun t =>
            taken t ∧ route t = { p with state := rsPROBED } ∧ (getWork (dieOf t d) i).granted = true)) ∧
          (e.op = 9 → p.state = rsPROBING → w.waiting = true → Answers (.terrNack d) s (fun t => taken t ∧
            route t = (if retryable e.reason then
                         (if p.retry = 20 then { p with state := rsIDLE, reason := rnREFUSED }
                          else { p with altValid := false, retry := p.retry + 1, reason := e.reason })
                       else { p with state := rsIDLE, reason := e.reason }))) ∧
          (e.op = 0xA → e.failed = true → failsByProxy p.state = true → Answers (.terrHeld d) s (fun t =>
            taken t ∧ route t = { p with state := rsFAILED, reason := rnLOCKLOST })) ∧
          (e.op = 0xB → failsByProxy p.state = true → Answers (.terrReleased d) s (fun t =>
            taken t ∧ route t = { p with state := rsFAILED, reason := rnLOCKLOST } ∧ (getWork (dieOf t d) i).proxyHeld = false)))))

/-- 02 R93, 17 R475: cell commands at step 5. BLOCK changes FREE to BLOCKED and UNBLOCK changes it back, any other lock value is refused with STATE and a wrong
class with TARGET; POINT_CALL writes the call where its conditions hold; a SECTION_RESTORE waits for its confirm, which replaces DISTURBED
within its time; an early, late or missing one is refused and the pending entry goes. A halted region answers nothing. No other cell changes. -/
def Obligations.CellCommandsChangeTheirCell : Prop :=
  ∀ (s : State) (d : Die) (n : Nat) (rest : List Todo),
    let x := dieOf s d
    let cx := ctxOf s
    let a := (reqWords s.win n).getD 4 0
    let cell := (a.extractLsb' 0 12).toNat
    let r := regionOf cell
    let old := getCell x cell
    let c := fabricRead old
    let confirm := bitOf ((reqWords s.win n).getD 5 0) 0
    let frame := fun (t : State) => (dieOf t d).todo = rest ∧ OtherCells cell d s t ∧ (dieOf t d).routes = x.routes ∧
      (∀ o, o ≠ d → dieOf t o = dieOf s o) ∧ t.mode = s.mode ∧ t.outs = s.outs
    let gives := fun (cmd : Instr) (e : CellRec) (result reason : BitVec 8) =>
      Answers cmd s (fun t => frame t ∧ getCell (dieOf t d) cell = e ∧ Reports d r n result reason s t)
    ((reg x r).halted = true → ∀ (cmd : Instr) (q : WinCmd), HeadRequest s d n q rest →
      (cmd, q) ∈ [(.block d, .block), (.unblock d, .unblock), (.pointCall d, .pointCall),
        (if confirm then .sectionRestoreConfirm d else .sectionRestore d, .sectionRestore)] →
      Answers cmd s (fun t => frame t ∧ getCell (dieOf t d) cell = old ∧ NoReport d r s t)) ∧
    ((reg x r).halted = false →
      (HeadRequest s d n .block rest →
        (blockable c = true → c.lock = lockFREE → gives (.block d) { c with lock := lockBLOCKED, checkErr := 0 } rsDONE 0) ∧
        (blockable c = true → c.lock ≠ lockFREE → gives (.block d) c rsREFUSED wrSTATE) ∧
        (blockable c = false → gives (.block d) old rsREFUSED wrTARGET)) ∧
      (HeadRequest s d n .unblock rest →
        (blockable c = true → c.lock = lockBLOCKED → gives (.unblock d) { c with lock := lockFREE, checkErr := 0 } rsDONE 0) ∧
        (blockable c = true → c.lock ≠ lockBLOCKED → gives (.unblock d) c rsREFUSED wrSTATE) ∧
        (blockable c = false → gives (.unblock d) old rsREFUSED wrTARGET)) ∧
      (HeadRequest s d n .pointCall rest →
        let v := if a.extractLsb' 12 2 = 1 then cmdNORMAL else cmdREVERSE
        let q := appWrite .cmd (v.setWidth 32) (cellProf cx x c) false false c
        (isPointLike c = true → q.1 = stSTORED → q.2.cmd = v ∧ gives (.pointCall d) q.2 rsDONE 0) ∧
        (isPointLike c = true → q.1 ≠ stSTORED → gives (.pointCall d) q.2 rsREFUSED wrSTATE) ∧
        (isPointLike c = false → gives (.pointCall d) old rsREFUSED wrTARGET)) ∧
      (HeadRequest s d n .sectionRestore rest → confirm = false →
        (restorable c = true → c.occ = occDISTURBED → pendingFor x r 8 a = none → (allPendings x).length < 16 →
          Answers (.sectionRestore d) s (fun t => frame t ∧ getCell (dieOf t d) cell = old ∧ Reports d r n rsPENDING 0 s t ∧
            (reg (dieOf t d) r).sup.pendings = (reg x r).sup.pendings ++
              [{ cmd := 8, target := a, taken := x.cycleNo, slot := n, ticket := (reqWords s.win n).getD 1 0 }])) ∧
        (restorable c = true → c.occ = occDISTURBED → (pendingFor x r 8 a).isSome = true → gives (.sectionRestore d) old rsREFUSED wrPENDING) ∧
        (restorable c = true → c.occ = occDISTURBED → pendingFor x r 8 a = none → 16 ≤ (allPendings x).length →
          gives (.sectionRestore d) old rsREFUSED wrFULL) ∧
        (restorable c = true → c.occ ≠ occDISTURBED → gives (.sectionRestore d) old rsREFUSED wrSTATE) ∧
        (restorable c = false → gives (.sectionRestore d) old rsREFUSED wrTARGET)) ∧
      (HeadRequest s d n .sectionRestore rest → confirm = true →
        (pendingFor x r 8 a = none → gives (.sectionRestoreConfirm d) old rsREFUSED wrNOPENDING) ∧
        (∀ p, pendingFor x r 8 a = some p →
          let ms := (x.cycleNo - p.taken).toNat * periodOf s
          let ends := fun (e : CellRec) (result reason : BitVec 8) => Answers (.sectionRestoreConfirm d) s (fun t =>
            frame t ∧ getCell (dieOf t d) cell = e ∧ Reports d r n result reason s t ∧ pendingFor (dieOf t d) r 8 a = none)
          (ms < 5000 → ends old rsREFUSED wrEARLY) ∧
          (60000 < ms → ends old rsREFUSED wrNOPENDING) ∧
          (5000 ≤ ms → ms ≤ 60000 → restorable c = true → c.occ = occDISTURBED → ends (restoreCell cx x c) rsDONE 0))))

/-- 03 R113, R134, 17 R472, R475: route requests at step 5. ROUTE_SET enters a PROBING entry under a new key, sets again a replaced route's signal, and is refused outside
ACTIVE and STANDBY, in FIELD role (log entry 57), for a live route, a bad descriptor or without a place; ROUTE_CANCEL, SIGNAL_REPLACE and a confirmed
EMERG_RELEASE are kept for EVALUATE, and refused without a live entry or beside another command of the cycle; the first step of EMERG_RELEASE is kept
as pending. The model's readings in it: log entry 16. -/
def Obligations.RouteCommandsAreEntered : Prop :=
  ∀ (s : State) (d : Die) (n i : Nat) (rest : List Todo),
    let x := dieOf s d
    let cx := ctxOf s
    let ws := reqWords s.win n
    let a := ws.getD 4 0
    let id := a.extractLsb' 0 13
    let own := readDesc cx x false id.toNat
    let r := regionOf own.1.entrance
    let rp := regionOf (readDesc cx x (bitOf a 13) id.toNat).1.entrance
    let confirm := bitOf (ws.getD 5 0) 0
    let frame := fun (t : State) => (dieOf t d).todo = rest ∧ (dieOf t d).cells = x.cells ∧ OtherRoutes i d s t ∧
      (∀ o, o ≠ d → dieOf t o = dieOf s o) ∧ t.mode = s.mode ∧ t.outs = s.outs
    let keeps := fun (cmd : Instr) (q : RouteCmd) => Answers cmd s (fun t =>
      frame t ∧ (dieOf t d).routes = x.routes ∧ (getWork (dieOf t d) i).cmd = some q)
    let refuses := fun (cmd : Instr) (place : Nat) (reason : BitVec 8) => Answers cmd s (fun t =>
      frame t ∧ (dieOf t d).routes = x.routes ∧ (dieOf t d).work = x.work ∧ Reports d place n rsREFROUTE reason s t)
    ((reg x r).halted = false → HeadRequest s d n .routeSet rest →
      (cx.running = false → refuses (.routeSet d) r rnMODE) ∧
      (cx.running = true → cx.fieldRole = true → refuses (.routeSet d) r rnNOTALLOWED) ∧
      (cx.running = true → cx.fieldRole = false → findRoute x false id = none → x.accepted < 64 → lowestFree x = some i →
        (own.1.valid = true → own.2 = true →
          Answers (.routeSet d) s (fun t => frame t ∧ Reports d r n rsDONE 0 s t ∧ (dieOf t d).accepted = x.accepted + 1 ∧
            getRoute (dieOf t d) i = { routeIdle with state := rsPROBING, routeId := id, key := mkKey x.cycleNo cx.keyPos x.rank })) ∧
        (own.1.valid = false ∨ own.2 = false → refuses (.routeSet d) r rnDESCRIPTOR)) ∧
      (cx.running = true → cx.fieldRole = false → findRoute x false id = none → 64 ≤ x.accepted ∨ lowestFree x = none →
        refuses (.routeSet d) r rnCAPACITY) ∧
      (cx.running = true → cx.fieldRole = false → findRoute x false id = some i →
        ((getRoute x i).replaced = false → refuses (.routeSet d) r rnDUPLICATE) ∧
        ((getRoute x i).replaced = true → Answers (.routeSet d) s (fun t => frame t ∧ Reports d r n rsDONE 0 s t ∧
          getRoute (dieOf t d) i = { getRoute x i with replaced := false })))) ∧
    (∀ (cmd : Instr) (w : WinCmd) (q : RouteCmd),
      (cmd, w, q) ∈ [(.routeCancel d, .routeCancel, .cancel n), (.signalReplace d, .signalReplace, .replace n)] →
      (reg x r).halted = false → HeadRequest s d n w rest →
      (findRoute x false id = some i → (getWork x i).cmd = none → keeps cmd q) ∧
      (findRoute x false id = some i → (getWork x i).cmd ≠ none → refuses cmd r rnNOTALLOWED) ∧
      (findRoute x false id = none → refuses cmd r rnNOTALLOWED)) ∧
    ((reg x rp).halted = false → HeadRequest s d n .emergRelease rest →
      (confirm = false → findRoute x (bitOf a 13) id = none → refuses (.emergRelease d) rp rnNOTALLOWED) ∧
      (confirm = false → findRoute x (bitOf a 13) id = some i →
        (emergStates.contains (getRoute x i).state = false → refuses (.emergRelease d) rp rnNOTALLOWED) ∧
        (emergStates.contains (getRoute x i).state = true → pendingFor x rp 7 a = none → (allPendings x).length < 16 →
          Answers (.emergRelease d) s (fun t => frame t ∧ (dieOf t d).routes = x.routes ∧ (dieOf t d).work = x.work ∧
            Reports d rp n rsPENDING 0 s t ∧ (reg (dieOf t d) rp).sup.pendings = (reg x rp).sup.pendings ++
              [{ cmd := 7, target := a, taken := x.cycleNo, slot := n, ticket := ws.getD 1 0 }]))) ∧
      (confirm = true → findRoute x (bitOf a 13) id = some i → (getWork x i).cmd = none → ∀ p, pendingFor x rp 7 a = some p →
        5000 ≤ (x.cycleNo - p.taken).toNat * periodOf s → (x.cycleNo - p.taken).toNat * periodOf s ≤ 60000 →
        keeps (.emergReleaseConfirm d) (.emergency n)))

/-- 15 R440 to R442, R446, R447, 12 R379, 17 R471: the requests of region 0 are answered by their tests, and change nothing before two copies agree on the answer; a load that is complete in every die with
equal banks sets the cycle of the switch, a failed bank check and banks that differ abort the change; an undefined command is a BAD_RECORD.
The model's readings in it: log entries 24 and 25. -/
def Obligations.ModuleRequestsAreTested : Prop :=
  ∀ (s : State) (d : Die) (n : Nat) (rest : List Todo) (code : BitVec 8),
    let x := dieOf s d
    let ws := reqWords s.win n
    let runs := s.mode = .active ∨ s.mode = .standby
    let frame := fun (t : State) => (dieOf t d).todo = rest ∧ (dieOf t d).cells = x.cells ∧ (dieOf t d).routes = x.routes ∧
      (∀ o, o ≠ d → dieOf t o = dieOf s o) ∧ t = { s with dies := t.dies, tail := t.tail }
    let gives := fun (cmd : Instr) (result reason : BitVec 8) => Answers cmd s (fun t => frame t ∧ Reports d 0 n result reason s t)
    let force := forceRefusal s.part (decide (s.mode = .active) || decide (s.mode = .standby)) s.overlays.change (permitOn s swFORCE) (forceOf ws)
      (reg x 0).sup.forces ((reg x 0).results.filter (fun q => decide (q.info = 1))).length
    let aborts := fun (bankOk : Bool) (why : BitVec 8) => Answers (.loadComplete bankOk) s (fun t => t.change.phase = .none ∧ t.change.code = why ∧
      t.overlays.change = false ∧ t.part = s.part ∧ t.dies = s.dies ∧ t.mode = s.mode ∧ t.outs = s.outs)
    ((reg x 0).halted = false →
      (HeadRequest s d n .forceSet rest → (force = none → gives (.forceSet d) rsDONE 0) ∧ (force = some code → gives (.forceSet d) rsREFUSED code)) ∧
      (HeadRequest s d n .forceClear rest →
        (runs → s.overlays.change = false → (reg x 0).sup.forces.any (sameForce (forceOf ws)) = true → gives (.forceClear d) rsDONE 0) ∧
        (runs → s.overlays.change = false → (reg x 0).sup.forces.any (sameForce (forceOf ws)) = false → gives (.forceClear d) rsREFUSED wrSTATE) ∧
        (¬ runs ∨ s.overlays.change = true → gives (.forceClear d) rsREFUSED wrMODE)) ∧
      (HeadRequest s d n .onlineChange rest →
        (changeTest s (bitOf (ws.getD 4 0) 0) = chNONE → gives (.onlineChange d) rsDONE 0) ∧
        (changeTest s (bitOf (ws.getD 4 0) 0) ≠ chNONE → gives (.onlineChange d) rsREFCHANGE (changeTest s (bitOf (ws.getD 4 0) 0)))) ∧
      (HeadRequest s d n .handover rest →
        (s.mode = .active → s.overlays.change = false → partnerReady s = true → gives (.handover d) rsDONE 0) ∧
        (s.mode = .active → s.overlays.change = false → partnerReady s = false → gives (.handover d) rsREFUSED wrPARTNER) ∧
        (s.mode ≠ .active ∨ s.overlays.change = true → gives (.handover d) rsREFUSED wrMODE))) ∧
    (s.change.phase = .loading → s.change.loaded = triAll true →
      (inactiveBanks s.dies.b = inactiveBanks s.dies.a → inactiveBanks s.dies.c = inactiveBanks s.dies.a → Answers (.loadComplete true) s (fun t =>
        t = { s with change := { s.change with phase := .loaded 0, at_ := if serialAfter s.change.earliest (s.cycle + 3) then s.change.earliest else s.cycle + 3 } })) ∧
      (inactiveBanks s.dies.b ≠ inactiveBanks s.dies.a ∨ inactiveBanks s.dies.c ≠ inactiveBanks s.dies.a → aborts true chLOADDISAGREE) ∧
      aborts false chCHECK) ∧
    (s.change.phase ≠ .loading ∨ s.change.loaded ≠ triAll true → ∀ bankOk, Answers (.loadComplete bankOk) s (fun t => t = s)) ∧
    (s.win.alive = true → n = s.win.take → n < 64 → winFlag s.win n = ownDEVICE → reqCmd ws = none → Answers (.requestCmdUndefined n) s (fun t =>
      SlotAnswered n rsBADRECORD 0 s.cycle s t ∧ t.win.take = (n + 1) % 64 ∧ t.win.recBad = satInc s.win.recBad ∧ t.dies = s.dies ∧ t.mode = s.mode)) ∧
    (s.win.alive = false ∨ n ≠ s.win.take ∨ winFlag s.win n ≠ ownDEVICE ∨ reqCmd ws ≠ none → Answers (.requestCmdUndefined n) s (fun t => t = s))
/-! ## Claims and roles (12) -/

/-- 12 R355 to R360, R367, R372, R374, R376: CLAIM_IN that leaves STATIC, and a CLAIM_OUT readback that does not match, close the claim gate, so that every gate clamp acts; silence for 3P or 6P ends
negotiation in ACTIVE; a takeover claims at a boundary under every condition of Table 12.5 alone; records are written when their conditions hold; a transfer that is not complete in 40 cycles waits
100 before it is asked for again. What comes without its conditions changes nothing. The model's readings in it: log entries 21 and 23. -/
def Obligations.ClaimsFollowTheLines : Prop :=
  ∀ (s : State) (invalid : Bool) (c m : Nat) (h : Heart),
    let nothing := fun (i : Instr) => Answers i s (fun t => t = s)
    (s.ao.claimIn ≠ .static → Answers .claimInStatic s (fun t => t.ao = { s.ao with claimIn := .static, staticSince := s.ao.ms } ∧
      t.mode = s.mode ∧ t.dies = s.dies ∧ t.tether = s.tether)) ∧
    (s.ao.claimIn = .static → nothing .claimInStatic) ∧
    Answers (.claimInLive invalid) s (fun t => t.ao = { s.ao with claimIn := if invalid then .invalid else .live } ∧ claimGate t = false ∧
      (∀ k, getA false t.clampOpen k = false) ∧ (s.ao.claimEn = true → (partnerPos s).isSome = true → t.tether.dualClaim = true) ∧
      t.mode = s.mode ∧ t.dies = s.dies) ∧
    (s.ao.claimEn = true → s.ao.claimOutOk = true → Answers .claimOutFault s (fun t => t.ao = { s.ao with claimOutOk := false } ∧
      claimGate t = false ∧ (∀ k, getA false t.clampOpen k = false) ∧ t.tether = { s.tether with claimOutFault := true } ∧ t.mode = s.mode)) ∧
    (s.ao.claimEn = false ∨ s.ao.claimOutOk = false → nothing .claimOutFault) ∧
    (s.mode = .wake → s.start = .cycles → atBoundary s = true → negotiationSilent s = true →
      s.tether.negSince + (if isPreferred s then 3 else 6) * periodOf s ≤ s.ao.ms → Answers .negotiationTimeout s (fun t =>
        t.mode = .active ∧ t.ao.claimEn = true ∧ t.start = .idle ∧ t.cycle = s.cycle ∧ t.vote = s.vote ∧ t.ins = s.ins)) ∧
    (s.mode ≠ .wake ∨ s.start ≠ .cycles ∨ atBoundary s = false ∨ negotiationSilent s = false ∨
      s.ao.ms < s.tether.negSince + (if isPreferred s then 3 else 6) * periodOf s → nothing .negotiationTimeout) ∧
    (atBoundary s = true → takeoverDue s = true → Answers .takeover s (fun t =>
      t.mode = .active ∧ t.ao.claimEn = true ∧ t.cycle = s.cycle ∧ t.vote = s.vote ∧ t.ins = s.ins)) ∧
    (atBoundary s = false ∨ takeoverDue s = false → nothing .takeover) ∧
    (s.tether.yieldReq = some c → 4 ≤ c → s.tether.heart = some h → h.claiming = true → Answers .yieldRefused s (fun t =>
      t = { s with tether := { s.tether with yieldReq := none }, tail := t.tail })) ∧
    (s.tether.yieldReq = none ∨ (s.tether.yieldReq = some c ∧ c < 4) ∨ s.tether.heart = none ∨ (s.tether.heart = some h ∧ h.claiming = false) →
      nothing .yieldRefused) ∧
    (s.tether.lineSince = some m → s.mode = .standby → s.tether.claimLine = false → s.ao.claimIn = .static →
      max m s.ao.staticSince + 3 * periodOf s ≤ s.ao.ms →
      Answers .claimLine s (fun t => t = { s with tether := { s.tether with claimLine := true }, tail := t.tail })) ∧
    (s.tether.lineSince = none ∨ s.mode ≠ .standby ∨ s.tether.claimLine = true ∨ s.ao.claimIn ≠ .static ∨
      (s.tether.lineSince = some m ∧ s.ao.ms < max m s.ao.staticSince + 3 * periodOf s) → nothing .claimLine) ∧
    (s.tether.recv = .receiving c → 40 ≤ c → Answers .transferLimit s (fun t =>
      t = { s with tail := t.tail, tether := { s.tether with recv := .retry 0, gotRoutes := false, gotModule := none, gotEnd := false } })) ∧
    (s.tether.recv = .none ∨ s.tether.recv = .asked ∨ s.tether.recv = .retry c ∨ (s.tether.recv = .receiving c ∧ c < 40) → nothing .transferLimit) ∧
    (s.tether.recv = .retry c → 100 ≤ c → Answers .transferRetry s (fun t => t = { s with tether := { s.tether with recv := .asked } })) ∧
    (s.tether.recv = .none ∨ s.tether.recv = .asked ∨ s.tether.recv = .receiving c ∨ (s.tether.recv = .retry c ∧ c < 100) → nothing .transferRetry) ∧
    (bridleRuns s = true → s.tether.heart = some h → h.preferred = preferredSw s → (∀ k, s.tether.prefAt = some k → k + 3600000 ≤ s.ao.ms) →
      Answers .prefConflictRecord s (fun t => t = { s with tether := { s.tether with prefAt := some s.ao.ms }, tail := t.tail })) ∧
    (bridleRuns s = false ∨ s.tether.heart = none ∨ (s.tether.heart = some h ∧ h.preferred ≠ preferredSw s) ∨
      (s.tether.prefAt = some m ∧ s.ao.ms < m + 3600000) → nothing .prefConflictRecord)

/-! ## The window (17) and its pages (18) -/

/-- 17 R463 to R467: bytes written to a slot that the gateway owns take effect in order, and no other byte does; bytes for a place that the
gateway may not write, or beyond the window, are discarded and the transfer is counted; a flag the gateway owns takes any value, and one that
is neither owner value is counted. A read gives the window's bytes, 0xFF beyond its end, and clears WIN.IRQ where it passes 0x024. A transfer whose last
byte is cut short sets ERR. STATUS and IDENT give their bytes; ERR is set by an undefined command and by a transfer that lasts too long.
The model's readings in it: log entry 40. -/
def Obligations.PortReadsAndWrites : Prop :=
  ∀ (s : State) (addr : BitVec 24) (bytes : List Byte) (v : Byte) (k n : Nat) (cut : Bool),
    let w := s.win
    let a := addr.toNat
    let ended := fun (u : State) => { u with win := { u.win with err := u.win.err || cut } }
    let writes := fun (bs : List Byte) (P : State → Prop) =>
      Answers (.write addr bs cut) s (fun t => ∃ u, P u ∧ t = ended u) ∧ Answers (.qwrite addr bs cut) s (fun t => ∃ u, P u ∧ t = ended u)
    let reads := fun (P : State → Prop) =>
      Answers (.read addr n cut) s (fun t => ∃ u, P u ∧ t = ended u) ∧ Answers (.qread addr n cut) s (fun t => ∃ u, P u ∧ t = ended u)
    let silent := fun (i : Instr) (count : Nat) => Answers i s (fun t => t = { s with win := { w with out := List.replicate count 0xFF } })
    (w.alive = true →
      (InOwnSlot s a bytes.length k → writes bytes (fun t =>
        t = { s with win := t.win } ∧ t.win = { w with mem := t.win.mem, out := [] } ∧
        ∀ j, memByte t.win.mem j = if a ≤ j ∧ j < a + bytes.length then bytes.getD (j - a) 0 else memByte w.mem j)) ∧
      (bytes ≠ [] →
        (∀ j, j < bytes.length → a + j < 0x80000 → winPlace (a + j) = .device ∨
          ∃ m, (winPlace (a + j) = .slot m ∨ winPlace (a + j) = .flag m) ∧ winFlag w m ≠ ownGATEWAY) →
        writes bytes (fun t => t = { s with win := t.win, tail := t.tail } ∧
          t.win = { w with err := w.err || decide (0x80000 < a + bytes.length), out := [], discards := satInc w.discards })) ∧
      (winPlace a = .flag k → winFlag w k = ownGATEWAY → writes [v] (fun t =>
        t = { s with win := t.win, tail := t.tail } ∧ winFlag t.win k = v ∧ (∀ j, j ≠ k → winFlag t.win j = winFlag w j) ∧
        t.win.mem = w.mem ∧ t.win.discards = w.discards ∧
        t.win.flagBad = if v = ownGATEWAY ∨ v = ownDEVICE then w.flagBad else satInc w.flagBad)) ∧
      (a < 0x80000 → reads (fun t => t = { s with win := { w with
        out := (numsFrom 0 n).map (fun j => if a + j < 0x80000 then byteOf (winWord s w ((a + j) / 4 * 4)) (a + j) else 0xFF),
        err := w.err || decide (0x80000 < a + n), irq := if a ≤ 0x24 ∧ 0x24 < a + n then 0 else w.irq } })) ∧
      (0x80000 ≤ a → reads (fun t => t = { s with win := { w with out := List.replicate n 0xFF, err := true } })) ∧
      Answers .winIrqRead s (fun t => t = { s with win := { w with out := [w.irq.setWidth 8], irq := 0 } })) ∧
    (w.alive = false → Answers (.write addr bytes cut) s (fun t => t = s) ∧ Answers (.qwrite addr bytes cut) s (fun t => t = s) ∧
      silent (.read addr n cut) n ∧ silent (.qread addr n cut) n ∧ silent .winIrqRead 1) ∧
    (bridleRuns s = true →
      Answers .status s (fun t => t = { s with win := { w with
        out := [(0#5 ++ b2v w.err ++ b2v (decide (w.irq ≠ 0)) ++ b2v w.alive : BitVec 8)], err := false } }) ∧
      Answers .ident s (fun t => t = { s with win := { w with out := [0xD2, 0x40, 0x96, 0x01] } }) ∧
      (portCode v = false → Answers (.portCommandInvalid v) s (fun t => t = { s with win := { w with err := true, out := [] } })) ∧
      Answers .portTransferTimeout s (fun t => t = { s with win := { w with err := true } })) ∧
    (bridleRuns s = false → silent .status 1 ∧ silent .ident 4 ∧ Answers .portTransferTimeout s (fun t => t = s)) ∧
    (bridleRuns s = false ∨ portCode v = true → Answers (.portCommandInvalid v) s (fun t => t = s))

/-- 17 R470 to R474, R479, 18 R489 to R491: without cycles the ring is polled, and an unsigned command of the dies is refused for the mode; the
outcome of a signature check is kept, and an accepted one uses up the key's counter; a staging page that no WRITE names within 10 s goes back
unchanged; a recorder page is filled and goes back; CLEAR_RECORDER hands the CLEAR record of its request to the recorder. What comes without its
conditions changes nothing. The model's readings in it: log entry 24. -/
def Obligations.SlotsAndPagesAreServed : Prop :=
  ∀ (s : State) (n m page : Nat) (c : WinCmd),
    let w := s.win
    let ws := reqWords w n
    let k := authCheck s.part.operators (moduleAddr s) (lastCounter s) ws
    let nothing := fun (i : Instr) => Answers i s (fun t => t = s)
    (cyclesRun s = true ∨ w.alive = false ∨ winFlag w w.take = ownGATEWAY ∨ w.delivered.contains w.take = true ∨ w.bridle.contains w.take = true →
      nothing .requestPoll) ∧
    (w.alive = true → cyclesRun s = false → w.take = n → n < 64 → winFlag w n = ownDEVICE → winFlag w ((n + 1) % 64) = ownGATEWAY →
      w.delivered.contains n = false → w.bridle.contains n = false → reqCmd ws = some c → recordOk (reqAddr n) ws c = true → cmdRole c = none →
      Answers .requestPoll s (fun t =>
        t = { s with win := t.win } ∧ t.win.take = (n + 1) % 64 ∧ SlotAnswered n (modeRefusal c).1 (modeRefusal c).2 s.cycle s t)) ∧
    (w.alive = true → n < 64 → winFlag w n = ownDEVICE → reqCmd ws = some c → (cmdRole c).isSome = true → slotChecked w n = none →
      w.bridle.contains n = false → w.delivered.contains n = false → Answers (.signatureCheckDone n) s (fun t =>
        t = { s with win := t.win, carrier := t.carrier, tail := t.tail } ∧ t.win = { w with checked := w.checked ++ [(n, k)] } ∧
        t.carrier = if k = 0 ∧ recordOk (reqAddr n) ws c = true then
            s.carrier.map (useCounter ((ws.getD 40 0).extractLsb' 0 3).toNat (ws.getD 41 0)) else s.carrier)) ∧
    (w.alive = false ∨ 64 ≤ n ∨ winFlag w n ≠ ownDEVICE ∨ slotSigned ws = false ∨ slotChecked w n ≠ none ∨ w.bridle.contains n = true ∨
      w.delivered.contains n = true → nothing (.signatureCheckDone n)) ∧
    (w.alive = true → page < 32 → winFlag w (flSTG + page) = ownDEVICE → getA 0 w.stgSince page = m + 1 → m + 10000 ≤ s.ao.ms →
      pageNamed page s = false → Answers (.stagingPageTimeout page) s (fun t =>
        t = { s with win := t.win } ∧ winFlag t.win (flSTG + page) = ownGATEWAY ∧ bitOf t.win.irq 2 = true ∧ t.win.mem = w.mem ∧
        ∀ j, j ≠ flSTG + page → winFlag t.win j = winFlag w j)) ∧
    (w.alive = false ∨ 32 ≤ page ∨ winFlag w (flSTG + page) ≠ ownDEVICE ∨ getA 0 w.stgSince page = 0 ∨
      (getA 0 w.stgSince page = m + 1 ∧ s.ao.ms < m + 10000) ∨ pageNamed page s = true → nothing (.stagingPageTimeout page)) ∧
    (w.alive = true → page < 16 → winFlag w (flREC + page) = ownDEVICE → Answers (.recorderPageRequest page) s (fun t =>
      let a := recAddr page
      let q := pageWords s.tail (memWord w.mem a) (memWord w.mem (a + 4))
      t = { s with win := t.win } ∧ winFlag t.win (flREC + page) = ownGATEWAY ∧ bitOf t.win.irq 1 = true ∧
      (∀ j, j < 7 → memWord t.win.mem (a + 4 * j) = q.1.getD j 0) ∧ memWord t.win.mem (a + 28) = slotCheck a (q.1 ++ q.2) ∧
      (∀ j, j < 1016 → memWord t.win.mem (a + 32 + 4 * j) = q.2.getD j 0) ∧
      ∀ j, j < a ∨ a + 4096 ≤ j → memByte t.win.mem j = memByte w.mem j)) ∧
    (w.alive = false ∨ 16 ≤ page ∨ winFlag w (flREC + page) ≠ ownDEVICE → nothing (.recorderPageRequest page)) ∧
    (bridleSlot .clearRecorder n s = true → clearStaged ws s.tail = false → s.tail.running = true → spFull stagingDepth s.tail.staging = false →
      s.tail.staging.stalled = [] → Answers (.clearRecorder n) s (fun t => t = { s with tail := t.tail } ∧
        ∃ r, t.tail.staging.items = s.tail.staging.items ++ [r] ∧ r.req = clearRecord ws ∧ r.utc = s.tail.utc)) ∧
    (bridleSlot .clearRecorder n s = false ∨ clearStaged ws s.tail = true → nothing (.clearRecorder n))

/-! ## Updates and the tail (16, 18) -/

/-- 16 R455, R461: STAGE_UPDATE OPEN erases the target slot and leaves the active one, and cancels an entry that is pending; WRITE and CLOSE begin
their operation where staging is open; each is refused where the permit, the mode, the slot or the carrier forbids it, and its slot is answered
when the carrier is done. An accepted CONFIRM writes a CONFIRMED entry for the trial slot. The model's readings in it: log entry 39. -/
def Obligations.UpdatesAreStagedAndConfirmed : Prop :=
  ∀ (s : State) (n : Nat) (c : Carrier) (ok : Bool) (img : SlotImg) (activate : Bool) (h : BitVec 16),
    n < 64 →
    let ws := reqWords s.win n
    let newest := newestEntry c
    let answered := fun (result reason : BitVec 8) (t : State) => SlotAnswered n result reason (takenOf s.win n) s t
    let refused := fun (i : Instr) (code : BitVec 8) => Answers i s (fun t =>
      answered rsREFUPDATE code t ∧ t.carrier = s.carrier ∧ t.versions = s.versions ∧ t.update.op = .none ∧ t.mode = s.mode ∧ t.dies = s.dies)
    let ended := fun (P : State → Prop) => s.carrier = some c → Answers (.carrierWriteComplete { ok := ok, image := img }) s (fun t =>
      t.update.op = (if s.update.switchDue then .switched else .none) ∧ t.mode = s.mode ∧ t.dies = s.dies ∧ P t)
    (∀ q, q ∈ [(1, Instr.stageUpdateOpen n), (2, .stageUpdateWrite n), (3, .stageUpdateClose n)] →
      (stageReady q.1 n s = false → Answers q.2 s (fun t => t = s)) ∧
      (stageReady q.1 n s = true → stageBarred s = true → refused q.2 upMODE) ∧
      (stageReady q.1 n s = true → stageBarred s = false → s.carrier = none → refused q.2 upCARRIER)) ∧
    (stageReady 1 n s = true → stageBarred s = false → s.carrier = some c →
      (permitOn s swUPDATE = false → refused (.stageUpdateOpen n) upPERMIT) ∧
      (permitOn s swUPDATE = true → Answers (.stageUpdateOpen n) s (fun t =>
        t.update.op = .open_ n ∧ t.update.staging = false ∧ t.win = s.win ∧ t.versions = s.versions ∧ ∃ e, t.carrier = some e ∧
        slotOf e (targetSlotB c) = slotEmpty ∧ slotOf e (activeSlotB c) = slotOf c (activeSlotB c) ∧ e.newArea = false ∧
        (newest.state = csPENDING → EntryWritten (confirmEntry c (!newest.slotB) 4 newest.windowH) c e) ∧
        (newest.state ≠ csPENDING → e.commit = c.commit)))) ∧
    (stageReady 2 n s = true → stageBarred s = false → s.carrier = some c →
      (stageWriteOk ws s = true → Answers (.stageUpdateWrite n) s (fun t =>
        t = { s with update := { s.update with op := .write n, pages := stagePages ws } })) ∧
      (stageWriteOk ws s = false → refused (.stageUpdateWrite n) upSLOT)) ∧
    (stageReady 3 n s = true → stageBarred s = false → s.carrier = some c →
      (s.update.staging = true → Answers (.stageUpdateClose n) s (fun t =>
        t = { s with update := { s.update with op := .close n (bitOf (ws.getD 4 0) 8) (stageWindow ws), pages := [] } })) ∧
      (s.update.staging = false → refused (.stageUpdateClose n) upSLOT)) ∧
    (bridleSlot .confirmUpdate n s = false ∨ s.update.op ≠ .none → Answers (.confirmUpdate n) s (fun t => t = s)) ∧
    (bridleSlot .confirmUpdate n s = true → s.update.op = .none →
      (confirmTest s ≠ 0 → refused (.confirmUpdate n) (confirmTest s)) ∧
      (confirmTest s = 0 → s.carrier = some c → Answers (.confirmUpdate n) s (fun t =>
        t.update.op = .confirm n ∧ t.update.cleared = true ∧ t.win = s.win ∧ t.mode = s.mode ∧
        t.versions = raiseVersions recordKey (slotOf c newest.slotB) s.versions ∧ ∃ e, t.carrier = some e ∧
        EntryWritten (confirmEntry c newest.slotB 2 newest.windowH) c e))) ∧
    (s.update.op = .open_ n → ended (fun t =>
      if ok then answered rsDONE 0 t ∧ t.update.staging = true else answered rsREFUPDATE upWRITE t)) ∧
    (s.update.op = .write n → ended (fun t =>
      (∀ k, s.update.pages.contains k = true → winFlag t.win (flSTG + k) = ownGATEWAY) ∧ t.carrier = s.carrier ∧
      if ok then answered rsDONE 0 t else answered rsREFUPDATE upWRITE t)) ∧
    (s.update.op = .close n activate h → ended (fun t =>
      let code := closeTest img activate (permitOn s swUPDATE) s c
      t.update.staging = false ∧
      if ok then
        (if code = 0 then answered rsDONE 0 t else answered rsREFUPDATE code t) ∧
        ∃ e, t.carrier = some e ∧ slotOf e (targetSlotB c) = img ∧ slotOf e (activeSlotB c) = slotOf c (activeSlotB c) ∧
          (if code = 0 ∧ activate = true then
            EntryWritten { seq := 0, state := csPENDING, reason := 1, slotB := targetSlotB c, starts := 0, trialSec := 0, windowH := h,
                           manDigest := manDigest img } c e
           else e.commit = c.commit)
      else answered rsREFUPDATE upCARRIER t ∧ t.carrier = s.carrier)) ∧
    (s.update.op = .confirm n → ended (fun t => t.carrier = s.carrier ∧
      if ok then answered rsDONE 0 t else answered rsREFUPDATE upWRITE t)) ∧
    (s.update.op = .switched → ended (fun t => t.win = s.win ∧
      t.versions = raiseVersions recordKey (slotOf c s.partSlotB) s.versions ∧ ∃ e, t.carrier = some e ∧
      EntryWritten (confirmEntry c s.partSlotB 3 newest.windowH) c e)) ∧
    (s.update.op = .none ∨ s.carrier = none → Answers (.carrierWriteComplete { ok := ok, image := img }) s (fun t => t = s))

/-- 18 R483, R485, R487, R488, R491: the oldest record of the staging spool takes the next slot and SEQ and leaves the spool, and a CLEAR record
returns its slot; it waits for the erase of the block it would enter; a completed erase removes its block's records and no other; a suppressed
count that has stood for 60 s becomes a SUPPRESSED record and returns to 0; the time base is written back to the RTC 60 s after the last time.
The model's readings in it: log entry 39. -/
def Obligations.TailRecordsAreWritten : Prop :=
  ∀ (s : State) (r : StageRec) (rest : List StageRec) (n k : Nat) (code : BitVec 16),
    let p := nextSlot s.tail
    let sp := s.tail.staging
    (s.tail.running = true → sp.items = r :: rest → sp.readPos = 0 → sp.openPkt = none → rest.length < stagingDepth →
      s.tail.eraseDue ≠ some (p.1 / blockSlots) →
      (r.req.code ≠ cdCLEAR → Answers .tailRecordWritten s (fun t =>
        t = { s with tail := t.tail } ∧ t.tail.newest = some p ∧ t.tail.staging.items = rest ++ sp.stalled.take 1 ∧
        t.tail.clearSeq = s.tail.clearSeq ∧
        getA slotErased t.tail.log p.1 = { rec_ := r, seq := p.2, complete := true } ∧
        ∀ j, j ≠ p.1 → getA slotErased t.tail.log j = getA slotErased s.tail.log j)) ∧
      (r.req = clearRecord (reqWords s.win n) → n < 64 → s.win.bridle = [n] → reqCmd (reqWords s.win n) = some .clearRecorder →
        Answers .tailRecordWritten s (fun t => t = { s with win := t.win, tail := t.tail } ∧
          t.tail.clearSeq = some p.2 ∧ SlotAnswered n rsDONE 0 (takenOf s.win n) s t))) ∧
    (s.tail.running = false ∨ sp.items.length ≤ sp.readPos ∨ s.tail.eraseDue = some (p.1 / blockSlots) →
      Answers .tailRecordWritten s (fun t => t = s)) ∧
    (s.tail.running = true → s.tail.eraseDue = some k → Answers .tailBlockErased s (fun t =>
      t = { s with tail := t.tail } ∧ t.tail.eraseDue = none ∧
      ∀ j, getA slotErased t.tail.log j = if j / blockSlots = k then slotErased else getA slotErased s.tail.log j)) ∧
    (s.tail.running = false ∨ s.tail.eraseDue = none → Answers .tailBlockErased s (fun t => t = s)) ∧
    (s.tail.running = true → getA 0 s.tail.suppressed code.toNat = n + 1 → getA 0 s.tail.supSince code.toNat = k + 1 →
      k + 60000 ≤ s.ao.ms → spFull stagingDepth sp = false → Answers (.suppressedSummary code) s (fun t =>
        t = { s with tail := t.tail } ∧ getA 0 t.tail.suppressed code.toNat = 0 ∧
        ∃ q, t.tail.staging.items = sp.items ++ [q] ∧ q.req.code = cdSUPPRESSED ∧
          q.req.data = (0#16 ++ BitVec.ofNat 16 (min (n + 1) 65535) ++ 0#16 ++ code : BitVec 64))) ∧
    (s.tail.running = false ∨ getA 0 s.tail.supSince code.toNat = 0 ∨ (getA 0 s.tail.supSince code.toNat = k + 1 ∧ s.ao.ms < k + 60000) →
      Answers (.suppressedSummary code) s (fun t => t = s)) ∧
    (s.tail.running = true → s.tail.rtcAt + 60000 ≤ s.ao.ms → Answers .rtcWriteback s (fun t =>
      t = { s with tail := { s.tail with rtcAt := s.ao.ms }, ao := { s.ao with rtcSec := s.tail.utc.toNat / 1000000, rtcSub := s.tail.utc.toNat % 1000000 * 32768 / 1000000 } })) ∧
    (s.tail.running = false ∨ s.ao.ms < s.tail.rtcAt + 60000 → Answers .rtcWriteback s (fun t => t = s))
/-! ## Spools, check units and counters (09, 10, 19) -/

/-- 10 R316, R318, R321, R322: on the spool that marks, MARK sets the mark at the read position, REWIND sets the read position back to a mark and has no effect
without one, RELEASE frees every item before the mark and nothing else; every other spool discards the three and counts them. An open packet is aborted, and a
stalled write enters once a stage is free. Core pair 1 acknowledges, and PEAK then takes LEVEL; nobody else does. Core pair 0 opens, fills and closes the packets
of class D, and a close without bytes or over 1,088 bytes aborts. No command touches another spool. -/
def Obligations.SpoolsMarkRewindAndRelease : Prop :=
  ∀ (s : State) (sp : SpoolId) (d : Die) (m : Nat) (writer : CorePair) (w : Word) (p : Port) (n : Nat) (len : BitVec 16) (link : Nat) (tel : Tel),
    let q := (dieOf s d).evSpool
    let v := viewOf s sp
    let frame := fun (t : State) => t = { s with dies := t.dies, links := t.links, tail := t.tail } ∧
      ∀ o, ¬ SameSpool s o sp → viewOf t o = viewOf s o
    let becomes := fun (i : Instr) (u : SpView) => Answers i s (fun t =>
      frame t ∧ viewOf t sp = if isPacketSpool sp then accepted (depthOf sp) u else u)
    let marked := fun (i : Instr) (z : Spool EventItem) => Answers i s (fun t => t = { s with dies := t.dies } ∧
      (∀ e, e ≠ d → dieOf t e = dieOf s e) ∧ dieOf t d = { dieOf s d with evSpool := z })
    let nothing := fun (i : Instr) => Answers i s (fun t => t = s)
    (spoolRuns (.event d) s = true →
      marked (.spoolMark (.event d)) { q with mark := some q.readPos } ∧
      (q.mark = some m → marked (.spoolRewind (.event d)) { q with readPos := m } ∧
        marked (.spoolRelease (.event d)) { q with items := q.items.drop m, readPos := q.readPos - m, mark := some 0 }) ∧
      (q.mark = none → nothing (.spoolRewind (.event d)) ∧ nothing (.spoolRelease (.event d)))) ∧
    (spoolRuns sp s = true →
      ((∀ e, sp ≠ .event e) → ∀ i, i ∈ [Instr.spoolMark sp, .spoolRewind sp, .spoolRelease sp] → becomes i { v with faults := v.faults + 1 }) ∧
      becomes (.spoolAbort sp) { v with openPkt := false } ∧
      Answers (.stalledWriteAccepted sp) s (fun t => frame t ∧ viewOf t sp = accepted (depthOf sp) v) ∧
      Answers (.registerWrite (.spoolAck sp .p1 w)) s (fun t => frame t ∧ viewOf t sp = v ∧
        (bitOf w 5 = true → bitOf (spoolStatus sp t) 5 = false) ∧ (bitOf w 3 = true → bitOf (spoolStatus sp t) 3 = false) ∧
        (bitOf w 2 = true → bitOf (spoolStatus sp t) 2 = false) ∧
        (bitOf w 5 = true → bitOf w 3 = true → bitOf w 2 = true →
          (spoolStatus sp t).extractLsb' 24 8 = (spoolStatus sp t).extractLsb' 16 8)) ∧
      nothing (.registerWrite (.spoolAck sp .p0 w))) ∧
    (exec (.registerWrite (.spoolCtrl sp 1)) s = exec (.spoolMark sp) s ∧ exec (.registerWrite (.spoolCtrl sp 2)) s = exec (.spoolRewind sp) s ∧
      exec (.registerWrite (.spoolCtrl sp 4)) s = exec (.spoolRelease sp) s ∧ exec (.registerWrite (.spoolCtrl sp 8)) s = exec (.spoolAbort sp) s) ∧
    (spoolRuns sp s = false → ∀ i, i ∈ [Instr.spoolMark sp, .spoolRewind sp, .spoolRelease sp, .spoolAbort sp, .stalledWriteAccepted sp,
      .registerWrite (.spoolAck sp writer w), .registerWrite (.spoolCtrl sp w)] → nothing i) ∧
    (linksRun s = true → sp = .txD p → v.stalled = 0 →
      (v.openPkt = false → v.items < txDDepth → becomes (.registerWrite (.packetOpen p .p0)) { v with openPkt := true }) ∧
      (v.openPkt = true → becomes (.registerWrite (.packetData p .p0 n)) v ∧
        (∀ o, (spoolTxD s.links p).openPkt = some o → 0 < len.toNat → len.toNat ≤ 1088 → o.bytes ≤ 1088 →
          becomes (.registerWrite (.packetClose p .p0 len link tel)) { v with openPkt := false, items := v.items + 1 }) ∧
        (len.toNat = 0 ∨ 1088 < len.toNat →
          becomes (.registerWrite (.packetClose p .p0 len link tel)) { v with openPkt := false, faults := v.faults + 1 }))) ∧
    (∀ i, i ∈ [Instr.registerWrite (.packetOpen p .p1), .registerWrite (.packetData p .p1 n), .registerWrite (.packetClose p .p1 len link tel)] →
      nothing i)

/-- 09 R311, R312: a RESTART sets SET, the initial value and the bytes of the fold, or is refused with ERR; words and bytes feed the unit in its set's
order and count; EXPECT compares; a status bit is cleared by writing 1; another writer's write is discarded and counted. 19 R496 to R498: a counter that
wraps sets OVF and posts its source, a sample enters the ring or is lost, and the read of CYC_LO latches CYC_HI.
The model's readings in it: log entries 32 and 43. -/
def Obligations.CheckUnitsAndCounters : Prop :=
  ∀ (s : State) (u : CuId) (writer : CorePair) (set_ : BitVec 2) (foldLen : BitVec 4) (w : Word) (v : Byte)
    (d : Die) (r n : Nat) (pc : BitVec 17) (ended : Bool),
    let q := unitOf u s
    let own := fun (i : Instr) (P : CheckUnit → Prop) => Answers i s (fun t => UnitStep u s t ∧ P (unitOf u t))
    let writes : List Instr := [.checkRestart u writer set_ foldLen, .checkData u writer w, .checkData8 u writer v, .checkExpect u writer w,
      .checkExpectHi u writer w] ++ ([.ctrl u writer w, .foldA u writer w, .foldB u writer w, .runHi u writer w, .runLo u writer w,
      .count u writer w, .status u writer w] : List RegWrite).map Instr.registerWrite
    (bridleRuns s = true → unitOwner u = some writer →
      own (.checkRestart u writer set_ foldLen) (fun c => c.set_ = set_ ∧ c.foldLen = foldLen ∧
        if set_ = 3 ∨ (foldLen ≠ 0 ∧ foldLen ≠ 4 ∧ foldLen ≠ 8) then c.err = true ∧ c.run = q.run ∧ c.count = q.count
        else c.err = q.err ∧ c.count = foldLen.setWidth 32 ∧ (foldLen = 0 → c.run = cuInit set_)) ∧
      own (.checkData u writer w) (fun c => c.count = q.count + 4 ∧
        c = ((if q.set_ = 1 then beBytes w else leBytes w).foldl (fun x y => cuByte y x) q)) ∧
      own (.checkData8 u writer v) (fun c => c.count = q.count + 1 ∧ c = cuByte v q) ∧
      own (.checkExpectHi u writer w) (fun c => c = { q with expectHi := some w }) ∧
      own (.checkExpect u writer w) (fun c =>
        let equal := if q.set_ = 2 ∧ q.expectHi ≠ none then cuResult q = q.expectHi.getD 0 ++ w else (cuResult q).extractLsb' 0 32 = w
        (equal → c = { q with matched := true, expectHi := none }) ∧
        (¬ equal → c = { q with matched := false, mismatch := true, expectHi := none })) ∧
      own (.registerWrite (.status u writer w)) (fun c =>
        c = { q with err := q.err && !bitOf w 2, mismatch := q.mismatch && !bitOf w 1 }) ∧
      own (.registerWrite (.count u writer w)) (fun c => c = { q with count := w }) ∧
      own (.registerWrite (.foldA u writer w)) (fun c => c = { q with foldA := w }) ∧
      own (.registerWrite (.foldB u writer w)) (fun c => c = { q with foldB := w }) ∧
      own (.registerWrite (.runLo u writer w)) (fun c => c.run.extractLsb' 0 32 = w ∧ c.run.extractLsb' 32 32 = q.run.extractLsb' 32 32) ∧
      own (.registerWrite (.runHi u writer w)) (fun c => c.run.extractLsb' 0 32 = q.run.extractLsb' 0 32 ∧
        c.run.extractLsb' 32 32 = if q.set_ = 2 then w else 0) ∧
      own (.registerWrite (.ctrl u writer w)) (fun c => c.set_ = w.extractLsb' 2 2 ∧ c.foldLen = w.extractLsb' 8 4 ∧
        (bitOf w 0 = false → c.run = q.run ∧ c.count = q.count ∧ c.err = q.err))) ∧
    (bridleRuns s = true → unitOwner u ≠ some writer → ∀ i, i ∈ writes → Answers i s (fun t =>
      t = { s with faultCounts := t.faultCounts } ∧ getA 0 t.faultCounts bfCheckUnit = getA 0 s.faultCounts bfCheckUnit + 1)) ∧
    (bridleRuns s = false → ∀ i, i ∈ writes → Answers i s (fun t => t = s)) ∧
    (r < 16 → n < 8 → (reg (dieOf s d) r).halted = false →
      let p := (reg (dieOf s d) r).pmc
      let cyc := (pmcNow (dieOf s d) r).cyc
      let sampled := bitOf p.stat (16 + n) = true ∧ s.pmcActive ≠ [] ∧ pmcPair s.pmcActive = 16 * dieIndex d + r
      let record : List Word := [(runningTask (dieOf s d) r ++ BitVec.ofNat 3 n ++ b2v ended ++ 0#7 ++ pc : BitVec 32), cyc.extractLsb' 0 32]
      (pmcSel p n ≠ 0 → pmcCounted (pmcSel p n) = false →
        Answers (.pmcOverflow d r n (some pc) ended) s (fun t =>
          bitOf (reg (dieOf t d) r).pmc.stat n = true ∧
          getA 0 (reg (dieOf t d) r).pmc.cnt n = (if bitOf p.stat (16 + n) then getA 0 p.reload n else 0) ∧
          bitOf (reg (dieOf t d) r).posted (0xC8 + n) = true ∧
          (sampled → p.ring.length < 32 → (reg (dieOf t d) r).pmc.ring = p.ring ++ record) ∧
          (¬ sampled ∨ 32 ≤ p.ring.length → (reg (dieOf t d) r).pmc.ring = p.ring) ∧
          (∀ k, k ≠ n → getA 0 (reg (dieOf t d) r).pmc.cnt k = getA 0 p.cnt k) ∧
          (∀ e, e ≠ r → reg (dieOf t d) e = reg (dieOf s d) e) ∧ DieStep d s t)) ∧
      (pmcSel p n ≠ 0 → pmcCounted (pmcSel p n) = true → bitOf p.stat n = true → sampled →
        Answers (.pmcOverflow d r n (some pc) ended) s (fun t =>
          (p.ring.length < 32 → (reg (dieOf t d) r).pmc = { p with ring := p.ring ++ record }) ∧
          (32 ≤ p.ring.length → (reg (dieOf t d) r).pmc = { p with lost := p.lost + 1 }) ∧ DieStep d s t) ∧
        Answers (.pmcOverflow d r n none ended) s (fun t => p.ring.length < 32 → ∃ a, (reg (dieOf t d) r).pmc = { p with ring := p.ring ++
          [a, cyc.extractLsb' 0 32] } ∧ a.extractLsb' 28 4 = 0 ∧ a.extractLsb' 25 3 = BitVec.ofNat 3 n))) ∧
    (8 ≤ n ∨ 16 ≤ r ∨ (reg (dieOf s d) r).halted = true → ∀ skid, Answers (.pmcOverflow d r n skid ended) s (fun t => t = s)) ∧
    (r < 16 → Answers (.pmcCycLoRead d r) s (fun t => DieStep d s t ∧ (∀ e, e ≠ r → reg (dieOf t d) e = reg (dieOf s d) e) ∧
      (reg (dieOf t d) r).pmc = { (reg (dieOf s d) r).pmc with cycHi := (pmcNow (dieOf s d) r).cyc.extractLsb' 32 32 })) ∧
    (16 ≤ r → Answers (.pmcCycLoRead d r) s (fun t => t = s))

/-! ## The block as a whole -/

/-- The queue: a step takes the command at its front and runs it with the rest, and every command completes in every state. Where none waits
time passes; that is the model's choice, log entry 20. -/
def Obligations.StepRunsTheFrontCommand : Prop :=
  ∀ (s : State) (c : Instr) (rest : List Instr),
    step { s with pending := c :: rest } = exec c { s with pending := rest } ∧ (∃ t, exec c s = .next t) ∧
    (s.pending = [] → step s = .next (tick s))

/-- Reset values that the spec gives: the header and the flags of the window (17 R466), the straps of the dies (01 Table 1.3), empty spools (10 R315), every
cell UNUSED and the phase IDLE (04 Table 4.2), the check units (09 Table 9.12), an empty queue, and a module without power in DORMANT (13 Table 13.1; that it
begins there is the model's choice, log entry 1). What every step keeps holds there. -/
def Obligations.ResetValues : Prop :=
  let s := State.reset
  s.pending = [] ∧ s.mode = .dormant ∧ s.ao.claimEn = false ∧ s.clampOpen = [] ∧
  (dieOf s .a).strap = 1 ∧ (dieOf s .b).strap = 2 ∧ (dieOf s .c).strap = 3 ∧
  (∀ d n, isCls .unused (getCell (dieOf s d) n) = true) ∧ (∀ d, (dieOf s d).phase = phIDLE ∧ (dieOf s d).routes = []) ∧
  (∀ sp, viewOf s sp = { items := 0, readPos := 0, mark := none, openPkt := false, faults := 0, stalled := 0 }) ∧
  winWord s s.win 0 = 0x44570001 ∧ winWord s s.win 4 = 0x00010000 ∧ winWord s s.win 8 = 0 ∧ winWord s s.win 0x10 = 6 ∧
  winWord s s.win 0x14 = 0 ∧ winWord s s.win 0x18 = 0 ∧ winWord s s.win 0x20 = 0 ∧ winWord s s.win 0x24 = 0 ∧ winWord s s.win 0x28 = 0 ∧
  (∀ k, winFlag s.win k = 0xA5) ∧ (∀ u, (∀ d r, u ≠ .dacc d r) → unitOf u s = checkUnitReset) ∧
  checkUnitReset.run = 0 ∧ checkUnitReset.count = 0 ∧ (∀ o, cuRead checkUnitReset o = 0) ∧
  ClaimDiscipline s ∧ MemoryCanonical s

/-- 05 R199: no instruction of rule code sets a command latch or raises a dropped output again, and none alters the lock or the owner of a cell whose record
reads as it stands (one that does not is read as UNKNOWN, 02 R77); a share enters the COMMIT block only through an open gate of a cell that binds its output. -/
def Obligations.RuleCodeActsOnlyRestrictively : Prop :=
  (∀ (i : Instr) (s t : State), isRuleCode i = true → exec i s = .next t →
    (∀ o, ((outCell t.outs o).latchH = true → (outCell s.outs o).latchH = true) ∧
      ((outCell t.outs o).latchL = true → (outCell s.outs o).latchL = true) ∧ (isDropped s.vote o = true → isDropped t.vote o = true)) ∧
    t.vote.imgH = s.vote.imgH ∧
    ∀ d n, CheckedCell (getCell (dieOf s d) n) → (∀ f, (readCoded f (getCell (dieOf s d) n)).2 = getCell (dieOf s d) n) →
      (getCell (dieOf t d) n).lock = (getCell (dieOf s d) n).lock ∧
      (getCell (dieOf t d) n).owned = (getCell (dieOf s d) n).owned ∧ (getCell (dieOf t d) n).ownerRoute = (getCell (dieOf s d) n).ownerRoute) ∧
  ∀ (x : DieSt) (r o : Nat), bitOf (gatedShares x r) o = true → bitOf (reg x r).sup.shares o = true ∧
    ∃ q ∈ x.cells, ∃ k, regionOf q.1 = r ∧ outBase q.2 + k = o ∧ k < outCount q.2 ∧ gate q.2 k = true

/-- 12 R355, 06 R229, 13 Table 13.1: every step keeps the claim discipline: CLAIM_EN is set in ACTIVE alone, and cycles run, or are about to, only with
the trip latch clear. -/
def Obligations.StepKeepsClaimDiscipline : Prop :=
  ∀ (s t : State), ClaimDiscipline s → step s = .next t → ClaimDiscipline t

/-- Every step keeps the addressed memories in their canonical form: region memory of every copy (05 Table 5.2), the window's memory (17 Table 17.2)
and the staged bytes of an update (16 R455). -/
def Obligations.StepKeepsMemoryCanonical : Prop :=
  ∀ (s t : State), MemoryCanonical s → step s = .next t → MemoryCanonical t

/-- 06 R229: once set, the trip latch stays set at every step but the one in which the start sequence is ready for the first boundary, and then every retained
record has been handed to the tail. -/
def Obligations.TripLatchClearedOnlyByStart : Prop :=
  ∀ (s t : State), s.ao.tripLatch = true → step s = .next t →
    (t.ao.tripLatch = true ∨ (t.start = .ready ∧ t.ao.uncopied = []))
end

