-- ==== Sys2Proof/Laws/Assoc.lean ====
section
/-!
SUPPORT. Laws of the sparse stores and of the containers: what is read after a write, the canonical form, and region memory as an
instance of both.
-/

namespace Sys2Proof.Machine

/-! ## The three dies and the two halves -/

@[simp] theorem triGet_triMod_self {α : Type} (t : Tri α) (d : Die) (f : α → α) : triGet (triMod t d f) d = f (triGet t d) := by
  cases d <;> rfl

theorem triGet_triMod_other {α : Type} (t : Tri α) {d e : Die} (f : α → α) (h : e ≠ d) : triGet (triMod t d f) e = triGet t e := by
  cases d <;> cases e <;> first | rfl | exact absurd rfl h

@[simp] theorem triGet_triMap {α β : Type} (t : Tri α) (f : Die → α → β) (d : Die) : triGet (triMap t f) d = f d (triGet t d) := by
  cases d <;> rfl

@[simp] theorem triGet_triAll {α : Type} (x : α) (d : Die) : triGet (triAll x) d = x := by cases d <;> rfl

@[simp] theorem duoGet_duoMod_self {α : Type} (t : Duo α) (d : Side) (f : α → α) : duoGet (duoMod t d f) d = f (duoGet t d) := by
  cases d <;> rfl

@[simp] theorem duoGet_duoAll {α : Type} (x : α) (d : Side) : duoGet (duoAll x) d = x := by cases d <;> rfl

/-! ## Sparse stores -/

theorem getA_append {V : Type} (d : V) (n : Nat) (b : Assoc V) :
    ∀ (a : Assoc V), (∀ p ∈ a, p.1 ≠ n) → getA d (a ++ b) n = getA d b n
  | [], _ => rfl
  | (k, v) :: t, h => by
    have hk : k ≠ n := h (k, v) (by simp)
    simp only [List.cons_append, getA, if_neg hk]
    exact getA_append d n b t (fun p hp => h p (by simp [hp]))

theorem getA_filter {V : Type} (d : V) (n : Nat) (q : Nat × V → Bool) (hq : ∀ v, q (n, v) = true) (b : Assoc V)
    (hb : getA d b n = d) : ∀ (m : Assoc V), getA d (m.filter q ++ b) n = getA d m n
  | [] => hb
  | (k, v) :: t => by
    have ih := getA_filter d n q hq b hb t
    by_cases hk : k = n
    · subst hk
      simp [hq, getA]
    · by_cases hp : q (k, v) = true
      · simp [hp, getA, hk, ih]
      · simp [hp, getA, hk, ih]

theorem getA_none {V : Type} (d : V) (n : Nat) : ∀ (m : Assoc V), (∀ p ∈ m, p.1 ≠ n) → getA d m n = d
  | [], _ => rfl
  | (k, v) :: t, h => by
    have hk : k ≠ n := h (k, v) (by simp)
    simp only [getA, if_neg hk]
    exact getA_none d n t (fun p hp => h p (by simp [hp]))

/-- A read at the key of a write gives the value written. -/
@[simp] theorem getA_putA_self {V : Type} [DecidableEq V] (d v : V) (n : Nat) (m : Assoc V) : getA d (putA d n v m) n = v := by
  unfold putA
  rw [List.append_assoc, getA_append _ _ _ _ (by intro p hp; simp at hp; omega)]
  by_cases hv : v = d
  · simp only [hv, if_true, List.nil_append]
    exact getA_none d n _ (by intro p hp; simp at hp; omega)
  · simp [hv, getA]

/-- A read at another key gives the old value. -/
theorem getA_putA_other {V : Type} [DecidableEq V] (d v : V) {n a : Nat} (m : Assoc V) (h : a ≠ n) :
    getA d (putA d n v m) a = getA d m a := by
  have hm : ∀ p ∈ (if v = d then [] else [(n, v)] : Assoc V), p.1 ≠ a := by
    intro p hp
    by_cases hv : v = d
    · simp [hv] at hp
    · simp only [hv, if_false, List.mem_singleton] at hp
      subst hp
      exact fun e => h e.symm
  unfold putA
  rw [List.append_assoc]
  by_cases hl : a < n
  · refine getA_filter d a _ (by simp [hl]) _ (getA_none d a _ ?_) m
    intro p hp
    rw [List.mem_append] at hp
    rcases hp with hp | hp
    · exact hm p hp
    · simp at hp; omega
  · rw [getA_append _ _ _ _ (by intro p hp; simp at hp; omega), getA_append _ _ _ _ hm]
    have hg := getA_filter d a (fun p : Nat × V => decide (n < p.1)) (by intro v; simp; omega) [] rfl m
    simpa using hg

theorem getA_putA {V : Type} [DecidableEq V] (d v : V) (n a : Nat) (m : Assoc V) :
    getA d (putA d n v m) a = if n = a then v else getA d m a := by
  by_cases h : n = a
  · subst h; simp
  · simp [h, getA_putA_other d v m (fun e => h e.symm)]

@[simp] theorem getA_modA_self {V : Type} [DecidableEq V] (d : V) (n : Nat) (f : V → V) (m : Assoc V) :
    getA d (modA d n f m) n = f (getA d m n) := getA_putA_self d _ n m

theorem getA_modA_other {V : Type} [DecidableEq V] (d : V) {n a : Nat} (f : V → V) (m : Assoc V) (h : a ≠ n) :
    getA d (modA d n f m) a = getA d m a := getA_putA_other d _ m h

/-! ## The canonical form -/

/-- In canonical form the keys rise strictly and no value is the default. -/
theorem canonAbove_iff {V : Type} [DecidableEq V] (d : V) :
    ∀ (m : Assoc V) (lo : Nat), canonAbove d lo m = true ↔
      (∀ p ∈ m, lo < p.1 ∧ p.2 ≠ d) ∧ m.Pairwise (fun p q => p.1 < q.1)
  | [], _ => by simp [canonAbove]
  | (k, v) :: t, lo => by
    have ih := canonAbove_iff d t k
    simp only [canonAbove, Bool.and_eq_true, decide_eq_true_eq, Bool.not_eq_true', decide_eq_false_iff_not, ih,
      List.mem_cons, forall_eq_or_imp, List.pairwise_cons]
    constructor
    · rintro ⟨⟨h1, h2⟩, h3, h4⟩
      exact ⟨⟨⟨h1, h2⟩, fun p hp => ⟨by have := (h3 p hp).1; omega, (h3 p hp).2⟩⟩, fun p hp => (h3 p hp).1, h4⟩
    · rintro ⟨⟨⟨h1, h2⟩, h3⟩, h4, h5⟩
      exact ⟨⟨h1, h2⟩, fun p hp => ⟨h4 p hp, (h3 p hp).2⟩, h5⟩

theorem canonA_iff {V : Type} [DecidableEq V] (d : V) (m : Assoc V) :
    canonA d m = true ↔ (∀ p ∈ m, p.2 ≠ d) ∧ m.Pairwise (fun p q => p.1 < q.1) := by
  cases m with
  | nil => simp [canonA]
  | cons p t =>
    obtain ⟨k, v⟩ := p
    simp only [canonA, Bool.and_eq_true, Bool.not_eq_true', decide_eq_false_iff_not, canonAbove_iff, List.mem_cons, forall_eq_or_imp,
      List.pairwise_cons]
    constructor
    · rintro ⟨h2, h3, h4⟩
      exact ⟨⟨h2, fun p hp => (h3 p hp).2⟩, fun p hp => (h3 p hp).1, h4⟩
    · rintro ⟨⟨h2, h3⟩, h4, h5⟩
      exact ⟨h2, fun p hp => ⟨h4 p hp, h3 p hp⟩, h5⟩

/-- Dropping entries keeps the canonical form. -/
theorem canonA_filter {V : Type} [DecidableEq V] (d : V) (q : Nat × V → Bool) (m : Assoc V) (h : canonA d m = true) :
    canonA d (m.filter q) = true := by
  rw [canonA_iff] at h ⊢
  exact ⟨fun p hp => h.1 p (List.mem_of_mem_filter hp), h.2.sublist List.filter_sublist⟩

/-- A write keeps the canonical form. -/
theorem canonA_putA {V : Type} [DecidableEq V] (d v : V) (n : Nat) (m : Assoc V) (h : canonA d m = true) :
    canonA d (putA d n v m) = true := by
  rw [canonA_iff] at h ⊢
  unfold putA
  refine ⟨fun p hp => ?_, ?_⟩
  · simp only [List.mem_append, List.mem_filter] at hp
    rcases hp with (hp | hp) | hp
    · exact h.1 p hp.1
    · by_cases hv : v = d
      · simp [hv] at hp
      · simp only [hv, if_false, List.mem_singleton] at hp
        subst hp
        exact hv
    · exact h.1 p hp.1
  · rw [List.append_assoc, List.pairwise_append, List.pairwise_append]
    refine ⟨h.2.sublist List.filter_sublist, ⟨?_, h.2.sublist List.filter_sublist, ?_⟩, ?_⟩
    · by_cases hv : v = d <;> simp [hv]
    · intro p hp q hq
      by_cases hv : v = d
      · simp [hv] at hp
      · simp only [hv, if_false, List.mem_singleton] at hp
        simp only [List.mem_filter, decide_eq_true_eq] at hq
        subst hp
        exact hq.2
    · intro p hp q hq
      simp only [List.mem_filter, decide_eq_true_eq] at hp
      rcases List.mem_append.1 hq with hq | hq
      · by_cases hv : v = d
        · simp [hv] at hq
        · simp only [hv, if_false, List.mem_singleton] at hq
          subst hq
          exact hp.2
      · simp only [List.mem_filter, decide_eq_true_eq] at hq
        omega

theorem canonA_modA {V : Type} [DecidableEq V] (d : V) (n : Nat) (f : V → V) (m : Assoc V) (h : canonA d m = true) :
    canonA d (modA d n f m) = true := canonA_putA d _ n m h

/-- A read after a change of every listed value, where the change leaves the default alone. -/
theorem getA_mapA {V : Type} [DecidableEq V] (d : V) (f : Nat → V → V) (n : Nat) (hf : f n d = d) :
    ∀ (m : Assoc V), getA d (mapA d f m) n = f n (getA d m n)
  | [] => hf.symm
  | (k, v) :: t => by
    have ih := getA_mapA d f n hf t
    unfold mapA
    split
    · rename_i h
      by_cases hk : k = n
      · subst hk
        rw [getA_none d k _ (by simp)]
        simp [getA, h]
      · have := getA_filter d n (fun p => decide (p.1 ≠ k)) (by intro v; simp; exact fun e => hk e.symm) [] rfl (mapA d f t)
        rw [List.append_nil] at this
        rw [this, ih]
        simp [getA, hk]
    · by_cases hk : k = n
      · subst hk
        simp [getA]
      · simp [getA, hk, ih]

theorem mem_mapA {V : Type} [DecidableEq V] (d : V) (f : Nat → V → V) :
    ∀ (m : Assoc V) (p : Nat × V), p ∈ mapA d f m → p.2 ≠ d ∧ ∃ q ∈ m, q.1 = p.1
  | [], _, h => by simp [mapA] at h
  | (k, v) :: t, p, h => by
    unfold mapA at h
    split at h
    · obtain ⟨h1, q, hq, e⟩ := mem_mapA d f t p (List.mem_of_mem_filter h)
      exact ⟨h1, q, by simp [hq], e⟩
    · rename_i hv
      rcases List.mem_cons.mp h with rfl | h
      · exact ⟨hv, (k, v), by simp, rfl⟩
      · obtain ⟨h1, q, hq, e⟩ := mem_mapA d f t p h
        exact ⟨h1, q, by simp [hq], e⟩

theorem canonA_mapA {V : Type} [DecidableEq V] (d : V) (f : Nat → V → V) (m : Assoc V) (h : canonA d m = true) :
    canonA d (mapA d f m) = true := by
  rw [canonA_iff] at h ⊢
  refine ⟨fun p hp => (mem_mapA d f m p hp).1, ?_⟩
  have hs := h.2
  clear h
  induction m with
  | nil => simp [mapA]
  | cons q t ih =>
    obtain ⟨k, v⟩ := q
    rw [List.pairwise_cons] at hs
    unfold mapA
    split
    · exact (ih hs.2).sublist List.filter_sublist
    · rw [List.pairwise_cons]
      refine ⟨fun p hp => ?_, ih hs.2⟩
      obtain ⟨_, r, hr, e⟩ := mem_mapA d f t p hp
      have := hs.1 r hr
      simp only at this ⊢
      omega

/-! ## Region memory (05 Table 5.2) -/

/-- A byte read after a write of one byte. -/
theorem memByte_memPut (m : List Host.Cell) (a b : Nat) (v : Byte) :
    memByte (memPut m a v) b = if a = b then v else memByte m b := getA_putA 0 v a b m

theorem memWf_memPut (m : List Host.Cell) (a : Nat) (v : Byte) (h : Memory.wf m = true) : Memory.wf (memPut m a v) = true :=
  canonA_putA 0 v a m h

theorem memWf_memPutWord (m : List Host.Cell) (a : Nat) (w : Word) (h : Memory.wf m = true) : Memory.wf (memPutWord m a w) = true :=
  memWf_memPut _ _ _ (memWf_memPut _ _ _ (memWf_memPut _ _ _ (memWf_memPut _ _ _ h)))

theorem memWf_memPutWords : ∀ (ws : List Word) (m : List Host.Cell) (a : Nat), Memory.wf m = true → Memory.wf (memPutWords m a ws) = true
  | [], _, _, h => h
  | w :: ws, m, a, h => memWf_memPutWords ws _ _ (memWf_memPutWord m a w h)

theorem memWf_memClear (m : List Host.Cell) (lo hi : Nat) (h : Memory.wf m = true) : Memory.wf (memClear m lo hi) = true :=
  canonA_filter 0 _ m h

theorem memWf_storeMem (m : List Host.Cell) (a n : Nat) (w : Word) (h : Memory.wf m = true) : Memory.wf (storeMem m a n w) = true := by
  unfold storeMem
  generalize numsFrom 0 n = ks
  induction ks generalizing m with
  | nil => exact h
  | cons k ks ih => exact ih _ (memWf_memPut m _ _ h)

theorem memWf_storeSaved (k : BitVec 2) (m : List Host.Cell) (t : BitVec 4) (g : List (Nat × Word)) (st : Word) (h : Memory.wf m = true) :
    Memory.wf (storeSaved k m t g st) = true := by
  unfold storeSaved
  refine memWf_memPutWord _ _ _ ?_
  generalize numsFrom 1 15 = ks
  induction ks generalizing m with
  | nil => exact h
  | cons k ks ih => exact ih _ (memWf_memPutWord m _ _ h)

theorem leWord_extract (w : Word) : leWord (w.extractLsb' 0 8) (w.extractLsb' 8 8) (w.extractLsb' 16 8) (w.extractLsb' 24 8) = w := by
  apply BitVec.eq_of_getLsbD_eq
  intro i hi
  show (w.extractLsb' 24 8 ++ w.extractLsb' 16 8 ++ w.extractLsb' 8 8 ++ w.extractLsb' 0 8).getLsbD i = w.getLsbD i
  simp only [BitVec.getLsbD_append, BitVec.getLsbD_extractLsb']
  rcases Nat.lt_or_ge i 8 with h | h
  · simp [h]
  rcases Nat.lt_or_ge i 16 with h1 | h1
  · simp [show ¬ i < 8 by omega, show i - 8 < 8 by omega, show 8 + (i - 8) = i by omega]
  rcases Nat.lt_or_ge i 24 with h2 | h2
  · simp [show ¬ i < 8 by omega, show ¬ i - 8 < 8 by omega, show i - 8 - 8 < 8 by omega, show 16 + (i - 8 - 8) = i by omega]
  · simp [show ¬ i < 8 by omega, show ¬ i - 8 < 8 by omega, show ¬ i - 8 - 8 < 8 by omega, show i - 8 - 8 - 8 < 8 by omega,
      show 24 + (i - 8 - 8 - 8) = i by omega]

/-- A word that is read after a write of one word at its place. -/
theorem memWord_memPutWord_same (m : List Host.Cell) (a : Nat) (w : Word) : memWord (memPutWord m a w) a = w := by
  unfold memWord memPutWord
  simp only [memByte_memPut, if_true, Nat.add_right_cancel_iff, Nat.reduceEqDiff, Nat.add_eq_left, OfNat.ofNat_ne_zero, Nat.succ_ne_self, if_false]
  exact leWord_extract w

/-- A word that is read after a write of one word apart from it. -/
theorem memWord_memPutWord_apart (m : List Host.Cell) (a b : Nat) (w : Word) (h : a + 4 ≤ b ∨ b + 4 ≤ a) :
    memWord (memPutWord m a w) b = memWord m b := by
  have h0 : ∀ i, i < 4 → memByte (memPutWord m a w) (b + i) = memByte m (b + i) := by
    intro i hi
    unfold memPutWord
    simp only [memByte_memPut]
    rw [if_neg (by omega), if_neg (by omega), if_neg (by omega), if_neg (by omega)]
  unfold memWord
  rw [h0 1 (by decide), h0 2 (by decide), h0 3 (by decide)]
  rw [show memByte (memPutWord m a w) b = memByte m b from h0 0 (by decide)]

end Sys2Proof.Machine
end

