-- ==== Sys2Proof/Laws/Links.lean ====
section
/-!
SUPPORT. Laws of the links (09).
-/

namespace Sys2Proof.Machine

/-- A telegram without MAC that passes every test of 09 R305 on an UP link whose credit rule has not begun. -/
theorem rxTest_accepts (cx : LinkCx) (q : Port) (t : Tel) (x : LinksSt) (n : Nat)
    (frame : frameOk cx.part q t.frame = true) (format : telFormatOk t = true) (link : telLink cx.part q t = some n) (dest : telDest t = cx.addr)
    (mac : telHasMac t = false ∧ (linkOf cx.part n).protect = false)
    (code : t.code = safetyCode (telV cx.addr (linkOf cx.part n).peer t.h3) t)
    (type : (isClassS (telType t) || isClassD (telType t)) = true ∧ (telType t = tyTIME → (linkOf cx.part n).timeSrc = true))
    (seq : let d := t.h3 - (if isClassS (telType t) then (linkSt x n).lastSeqS else (linkSt x n).lastSeqD); d ≠ 0 ∧ d.toNat < 2 ^ 31)
    (age : ageWithin cx.ms (effTMax cx.part (linkOf cx.part n)) t = true) (fresh : (linkSt x n).takenAny = false) :
    rxTest cx q t x = .accept n := by
  have hs := seq.1
  have hd : ¬ 2 ^ 31 ≤ (t.h3 - (if isClassS (telType t) then (linkSt x n).lastSeqS else (linkSt x n).lastSeqD)).toNat := by
    have := seq.2; omega
  have ht : ((!isClassS (telType t) && !isClassD (telType t)) || (decide (telType t = tyTIME) && !(linkOf cx.part n).timeSrc)) = false := by
    obtain ⟨h1, h2⟩ := type
    cases hS : isClassS (telType t) <;> cases hD : isClassD (telType t) <;> by_cases hk : telType t = tyTIME <;> simp_all
  unfold rxTest
  simp only [frame, format, link, dest, mac.1, mac.2, ← code, age, fresh, ht, Bool.not_true, Bool.false_eq_true, if_false, ne_eq, not_true_eq_false,
    bne_self_eq_false, Bool.false_and, Bool.and_false, hs, hd, decide_false]

end Sys2Proof.Machine
end

