-- ==== Sys2Proof/Laws/State.lean ====
section
/-!
SUPPORT. Laws of State: what each update of a part of the state reads as, one equation a field. Every conjunct is a simp rule of its
own.
-/

namespace Sys2Proof.Machine

@[simp] theorem onDie_fields (d : Die) (f : DieSt → DieSt) (s : State) :
    (onDie d f s).pending = s.pending ∧ (onDie d f s).mode = s.mode ∧ (onDie d f s).overlays = s.overlays ∧ (onDie d f s).heldForm =
    s.heldForm ∧ (onDie d f s).refused = s.refused ∧ (onDie d f s).coresOff = s.coresOff ∧ (onDie d f s).tripAt = s.tripAt ∧ (onDie d f
    s).start = s.start ∧ (onDie d f s).startIn = s.startIn ∧ (onDie d f s).fullBist = s.fullBist ∧ (onDie d f s).shut = s.shut ∧ (onDie d f
    s).ao = s.ao ∧ (onDie d f s).cycle = s.cycle ∧ (onDie d f s).boundaries = s.boundaries ∧ (onDie d f s).slkAdjust = s.slkAdjust ∧ (onDie
    d f s).firstBoundaryMs = s.firstBoundaryMs ∧ (onDie d f s).part = s.part ∧ (onDie d f s).partSlotB = s.partSlotB ∧ (onDie d f
    s).fwDigest = s.fwDigest ∧ (onDie d f s).loaded = s.loaded ∧ (onDie d f s).carrier = s.carrier ∧ (onDie d f s).versions = s.versions ∧
    (onDie d f s).bist = s.bist ∧ (onDie d f s).recordKey = s.recordKey ∧ (onDie d f s).dies = triMod s.dies d f ∧ (onDie d f s).vote =
    s.vote ∧ (onDie d f s).ins = s.ins ∧ (onDie d f s).outs = s.outs ∧ (onDie d f s).frozen = s.frozen ∧ (onDie d f s).clampOpen =
    s.clampOpen ∧ (onDie d f s).edgeLost = s.edgeLost ∧ (onDie d f s).links = s.links ∧ (onDie d f s).unitWin = s.unitWin ∧ (onDie d f
    s).unitCar = s.unitCar ∧ (onDie d f s).alignTo = s.alignTo ∧ (onDie d f s).lostTerr = s.lostTerr ∧ (onDie d f s).lostOwners =
    s.lostOwners ∧ (onDie d f s).lostFields = s.lostFields ∧ (onDie d f s).apart = s.apart ∧ (onDie d f s).apartAt = s.apartAt ∧ (onDie d f
    s).tether = s.tether ∧ (onDie d f s).forces = s.forces ∧ (onDie d f s).change = s.change ∧ (onDie d f s).update = s.update ∧ (onDie d f
    s).win = s.win ∧ (onDie d f s).tail = s.tail ∧ (onDie d f s).faultCounts = s.faultCounts ∧ (onDie d f s).pmcSetup = s.pmcSetup ∧ (onDie
    d f s).pmcWith = s.pmcWith ∧ (onDie d f s).pmcActive = s.pmcActive ∧ (onDie d f s).pmcSamples = s.pmcSamples ∧ (onDie d f s).pmcRead =
    s.pmcRead ∧ (onDie d f s).pmcLost = s.pmcLost ∧ (onDie d f s).rotations = s.rotations :=
  ⟨rfl, rfl, rfl, rfl, rfl, rfl, rfl, rfl, rfl, rfl, rfl, rfl, rfl, rfl, rfl, rfl, rfl, rfl, rfl, rfl, rfl, rfl, rfl, rfl, rfl, rfl, rfl,
    rfl, rfl, rfl, rfl, rfl, rfl, rfl, rfl, rfl, rfl, rfl, rfl, rfl, rfl, rfl, rfl, rfl, rfl, rfl, rfl, rfl, rfl, rfl, rfl, rfl, rfl, rfl⟩

@[simp] theorem onDies_fields (f : Die → DieSt → DieSt) (s : State) :
    (onDies f s).pending = s.pending ∧ (onDies f s).mode = s.mode ∧ (onDies f s).overlays = s.overlays ∧ (onDies f s).heldForm = s.heldForm
    ∧ (onDies f s).refused = s.refused ∧ (onDies f s).coresOff = s.coresOff ∧ (onDies f s).tripAt = s.tripAt ∧ (onDies f s).start = s.start
    ∧ (onDies f s).startIn = s.startIn ∧ (onDies f s).fullBist = s.fullBist ∧ (onDies f s).shut = s.shut ∧ (onDies f s).ao = s.ao ∧ (onDies
    f s).cycle = s.cycle ∧ (onDies f s).boundaries = s.boundaries ∧ (onDies f s).slkAdjust = s.slkAdjust ∧ (onDies f s).firstBoundaryMs =
    s.firstBoundaryMs ∧ (onDies f s).part = s.part ∧ (onDies f s).partSlotB = s.partSlotB ∧ (onDies f s).fwDigest = s.fwDigest ∧ (onDies f
    s).loaded = s.loaded ∧ (onDies f s).carrier = s.carrier ∧ (onDies f s).versions = s.versions ∧ (onDies f s).bist = s.bist ∧ (onDies f
    s).recordKey = s.recordKey ∧ (onDies f s).dies = triMap s.dies f ∧ (onDies f s).vote = s.vote ∧ (onDies f s).ins = s.ins ∧ (onDies f
    s).outs = s.outs ∧ (onDies f s).frozen = s.frozen ∧ (onDies f s).clampOpen = s.clampOpen ∧ (onDies f s).edgeLost = s.edgeLost ∧ (onDies
    f s).links = s.links ∧ (onDies f s).unitWin = s.unitWin ∧ (onDies f s).unitCar = s.unitCar ∧ (onDies f s).alignTo = s.alignTo ∧ (onDies
    f s).lostTerr = s.lostTerr ∧ (onDies f s).lostOwners = s.lostOwners ∧ (onDies f s).lostFields = s.lostFields ∧ (onDies f s).apart =
    s.apart ∧ (onDies f s).apartAt = s.apartAt ∧ (onDies f s).tether = s.tether ∧ (onDies f s).forces = s.forces ∧ (onDies f s).change =
    s.change ∧ (onDies f s).update = s.update ∧ (onDies f s).win = s.win ∧ (onDies f s).tail = s.tail ∧ (onDies f s).faultCounts =
    s.faultCounts ∧ (onDies f s).pmcSetup = s.pmcSetup ∧ (onDies f s).pmcWith = s.pmcWith ∧ (onDies f s).pmcActive = s.pmcActive ∧ (onDies f
    s).pmcSamples = s.pmcSamples ∧ (onDies f s).pmcRead = s.pmcRead ∧ (onDies f s).pmcLost = s.pmcLost ∧ (onDies f s).rotations =
    s.rotations :=
  ⟨rfl, rfl, rfl, rfl, rfl, rfl, rfl, rfl, rfl, rfl, rfl, rfl, rfl, rfl, rfl, rfl, rfl, rfl, rfl, rfl, rfl, rfl, rfl, rfl, rfl, rfl, rfl,
    rfl, rfl, rfl, rfl, rfl, rfl, rfl, rfl, rfl, rfl, rfl, rfl, rfl, rfl, rfl, rfl, rfl, rfl, rfl, rfl, rfl, rfl, rfl, rfl, rfl, rfl, rfl⟩

@[simp] theorem onVote_fields (f : VoteSt → VoteSt) (s : State) :
    (onVote f s).pending = s.pending ∧ (onVote f s).mode = s.mode ∧ (onVote f s).overlays = s.overlays ∧ (onVote f s).heldForm = s.heldForm
    ∧ (onVote f s).refused = s.refused ∧ (onVote f s).coresOff = s.coresOff ∧ (onVote f s).tripAt = s.tripAt ∧ (onVote f s).start = s.start
    ∧ (onVote f s).startIn = s.startIn ∧ (onVote f s).fullBist = s.fullBist ∧ (onVote f s).shut = s.shut ∧ (onVote f s).ao = s.ao ∧ (onVote
    f s).cycle = s.cycle ∧ (onVote f s).boundaries = s.boundaries ∧ (onVote f s).slkAdjust = s.slkAdjust ∧ (onVote f s).firstBoundaryMs =
    s.firstBoundaryMs ∧ (onVote f s).part = s.part ∧ (onVote f s).partSlotB = s.partSlotB ∧ (onVote f s).fwDigest = s.fwDigest ∧ (onVote f
    s).loaded = s.loaded ∧ (onVote f s).carrier = s.carrier ∧ (onVote f s).versions = s.versions ∧ (onVote f s).bist = s.bist ∧ (onVote f
    s).recordKey = s.recordKey ∧ (onVote f s).dies = s.dies ∧ (onVote f s).vote = f s.vote ∧ (onVote f s).ins = s.ins ∧ (onVote f s).outs =
    s.outs ∧ (onVote f s).frozen = s.frozen ∧ (onVote f s).clampOpen = s.clampOpen ∧ (onVote f s).edgeLost = s.edgeLost ∧ (onVote f s).links
    = s.links ∧ (onVote f s).unitWin = s.unitWin ∧ (onVote f s).unitCar = s.unitCar ∧ (onVote f s).alignTo = s.alignTo ∧ (onVote f
    s).lostTerr = s.lostTerr ∧ (onVote f s).lostOwners = s.lostOwners ∧ (onVote f s).lostFields = s.lostFields ∧ (onVote f s).apart =
    s.apart ∧ (onVote f s).apartAt = s.apartAt ∧ (onVote f s).tether = s.tether ∧ (onVote f s).forces = s.forces ∧ (onVote f s).change =
    s.change ∧ (onVote f s).update = s.update ∧ (onVote f s).win = s.win ∧ (onVote f s).tail = s.tail ∧ (onVote f s).faultCounts =
    s.faultCounts ∧ (onVote f s).pmcSetup = s.pmcSetup ∧ (onVote f s).pmcWith = s.pmcWith ∧ (onVote f s).pmcActive = s.pmcActive ∧ (onVote f
    s).pmcSamples = s.pmcSamples ∧ (onVote f s).pmcRead = s.pmcRead ∧ (onVote f s).pmcLost = s.pmcLost ∧ (onVote f s).rotations =
    s.rotations :=
  ⟨rfl, rfl, rfl, rfl, rfl, rfl, rfl, rfl, rfl, rfl, rfl, rfl, rfl, rfl, rfl, rfl, rfl, rfl, rfl, rfl, rfl, rfl, rfl, rfl, rfl, rfl, rfl,
    rfl, rfl, rfl, rfl, rfl, rfl, rfl, rfl, rfl, rfl, rfl, rfl, rfl, rfl, rfl, rfl, rfl, rfl, rfl, rfl, rfl, rfl, rfl, rfl, rfl, rfl, rfl⟩

@[simp] theorem onAo_fields (f : AoSt → AoSt) (s : State) :
    (onAo f s).pending = s.pending ∧ (onAo f s).mode = s.mode ∧ (onAo f s).overlays = s.overlays ∧ (onAo f s).heldForm = s.heldForm ∧ (onAo
    f s).refused = s.refused ∧ (onAo f s).coresOff = s.coresOff ∧ (onAo f s).tripAt = s.tripAt ∧ (onAo f s).start = s.start ∧ (onAo f
    s).startIn = s.startIn ∧ (onAo f s).fullBist = s.fullBist ∧ (onAo f s).shut = s.shut ∧ (onAo f s).ao = f s.ao ∧ (onAo f s).cycle =
    s.cycle ∧ (onAo f s).boundaries = s.boundaries ∧ (onAo f s).slkAdjust = s.slkAdjust ∧ (onAo f s).firstBoundaryMs = s.firstBoundaryMs ∧
    (onAo f s).part = s.part ∧ (onAo f s).partSlotB = s.partSlotB ∧ (onAo f s).fwDigest = s.fwDigest ∧ (onAo f s).loaded = s.loaded ∧ (onAo
    f s).carrier = s.carrier ∧ (onAo f s).versions = s.versions ∧ (onAo f s).bist = s.bist ∧ (onAo f s).recordKey = s.recordKey ∧ (onAo f
    s).dies = s.dies ∧ (onAo f s).vote = s.vote ∧ (onAo f s).ins = s.ins ∧ (onAo f s).outs = s.outs ∧ (onAo f s).frozen = s.frozen ∧ (onAo f
    s).clampOpen = s.clampOpen ∧ (onAo f s).edgeLost = s.edgeLost ∧ (onAo f s).links = s.links ∧ (onAo f s).unitWin = s.unitWin ∧ (onAo f
    s).unitCar = s.unitCar ∧ (onAo f s).alignTo = s.alignTo ∧ (onAo f s).lostTerr = s.lostTerr ∧ (onAo f s).lostOwners = s.lostOwners ∧
    (onAo f s).lostFields = s.lostFields ∧ (onAo f s).apart = s.apart ∧ (onAo f s).apartAt = s.apartAt ∧ (onAo f s).tether = s.tether ∧
    (onAo f s).forces = s.forces ∧ (onAo f s).change = s.change ∧ (onAo f s).update = s.update ∧ (onAo f s).win = s.win ∧ (onAo f s).tail =
    s.tail ∧ (onAo f s).faultCounts = s.faultCounts ∧ (onAo f s).pmcSetup = s.pmcSetup ∧ (onAo f s).pmcWith = s.pmcWith ∧ (onAo f
    s).pmcActive = s.pmcActive ∧ (onAo f s).pmcSamples = s.pmcSamples ∧ (onAo f s).pmcRead = s.pmcRead ∧ (onAo f s).pmcLost = s.pmcLost ∧
    (onAo f s).rotations = s.rotations :=
  ⟨rfl, rfl, rfl, rfl, rfl, rfl, rfl, rfl, rfl, rfl, rfl, rfl, rfl, rfl, rfl, rfl, rfl, rfl, rfl, rfl, rfl, rfl, rfl, rfl, rfl, rfl, rfl,
    rfl, rfl, rfl, rfl, rfl, rfl, rfl, rfl, rfl, rfl, rfl, rfl, rfl, rfl, rfl, rfl, rfl, rfl, rfl, rfl, rfl, rfl, rfl, rfl, rfl, rfl, rfl⟩

@[simp] theorem onWin_fields (f : WinSt → WinSt) (s : State) :
    (onWin f s).pending = s.pending ∧ (onWin f s).mode = s.mode ∧ (onWin f s).overlays = s.overlays ∧ (onWin f s).heldForm = s.heldForm ∧
    (onWin f s).refused = s.refused ∧ (onWin f s).coresOff = s.coresOff ∧ (onWin f s).tripAt = s.tripAt ∧ (onWin f s).start = s.start ∧
    (onWin f s).startIn = s.startIn ∧ (onWin f s).fullBist = s.fullBist ∧ (onWin f s).shut = s.shut ∧ (onWin f s).ao = s.ao ∧ (onWin f
    s).cycle = s.cycle ∧ (onWin f s).boundaries = s.boundaries ∧ (onWin f s).slkAdjust = s.slkAdjust ∧ (onWin f s).firstBoundaryMs =
    s.firstBoundaryMs ∧ (onWin f s).part = s.part ∧ (onWin f s).partSlotB = s.partSlotB ∧ (onWin f s).fwDigest = s.fwDigest ∧ (onWin f
    s).loaded = s.loaded ∧ (onWin f s).carrier = s.carrier ∧ (onWin f s).versions = s.versions ∧ (onWin f s).bist = s.bist ∧ (onWin f
    s).recordKey = s.recordKey ∧ (onWin f s).dies = s.dies ∧ (onWin f s).vote = s.vote ∧ (onWin f s).ins = s.ins ∧ (onWin f s).outs = s.outs
    ∧ (onWin f s).frozen = s.frozen ∧ (onWin f s).clampOpen = s.clampOpen ∧ (onWin f s).edgeLost = s.edgeLost ∧ (onWin f s).links = s.links
    ∧ (onWin f s).unitWin = s.unitWin ∧ (onWin f s).unitCar = s.unitCar ∧ (onWin f s).alignTo = s.alignTo ∧ (onWin f s).lostTerr =
    s.lostTerr ∧ (onWin f s).lostOwners = s.lostOwners ∧ (onWin f s).lostFields = s.lostFields ∧ (onWin f s).apart = s.apart ∧ (onWin f
    s).apartAt = s.apartAt ∧ (onWin f s).tether = s.tether ∧ (onWin f s).forces = s.forces ∧ (onWin f s).change = s.change ∧ (onWin f
    s).update = s.update ∧ (onWin f s).win = f s.win ∧ (onWin f s).tail = s.tail ∧ (onWin f s).faultCounts = s.faultCounts ∧ (onWin f
    s).pmcSetup = s.pmcSetup ∧ (onWin f s).pmcWith = s.pmcWith ∧ (onWin f s).pmcActive = s.pmcActive ∧ (onWin f s).pmcSamples = s.pmcSamples
    ∧ (onWin f s).pmcRead = s.pmcRead ∧ (onWin f s).pmcLost = s.pmcLost ∧ (onWin f s).rotations = s.rotations :=
  ⟨rfl, rfl, rfl, rfl, rfl, rfl, rfl, rfl, rfl, rfl, rfl, rfl, rfl, rfl, rfl, rfl, rfl, rfl, rfl, rfl, rfl, rfl, rfl, rfl, rfl, rfl, rfl,
    rfl, rfl, rfl, rfl, rfl, rfl, rfl, rfl, rfl, rfl, rfl, rfl, rfl, rfl, rfl, rfl, rfl, rfl, rfl, rfl, rfl, rfl, rfl, rfl, rfl, rfl, rfl⟩

@[simp] theorem onTail_fields (f : TailSt → TailSt) (s : State) :
    (onTail f s).pending = s.pending ∧ (onTail f s).mode = s.mode ∧ (onTail f s).overlays = s.overlays ∧ (onTail f s).heldForm = s.heldForm
    ∧ (onTail f s).refused = s.refused ∧ (onTail f s).coresOff = s.coresOff ∧ (onTail f s).tripAt = s.tripAt ∧ (onTail f s).start = s.start
    ∧ (onTail f s).startIn = s.startIn ∧ (onTail f s).fullBist = s.fullBist ∧ (onTail f s).shut = s.shut ∧ (onTail f s).ao = s.ao ∧ (onTail
    f s).cycle = s.cycle ∧ (onTail f s).boundaries = s.boundaries ∧ (onTail f s).slkAdjust = s.slkAdjust ∧ (onTail f s).firstBoundaryMs =
    s.firstBoundaryMs ∧ (onTail f s).part = s.part ∧ (onTail f s).partSlotB = s.partSlotB ∧ (onTail f s).fwDigest = s.fwDigest ∧ (onTail f
    s).loaded = s.loaded ∧ (onTail f s).carrier = s.carrier ∧ (onTail f s).versions = s.versions ∧ (onTail f s).bist = s.bist ∧ (onTail f
    s).recordKey = s.recordKey ∧ (onTail f s).dies = s.dies ∧ (onTail f s).vote = s.vote ∧ (onTail f s).ins = s.ins ∧ (onTail f s).outs =
    s.outs ∧ (onTail f s).frozen = s.frozen ∧ (onTail f s).clampOpen = s.clampOpen ∧ (onTail f s).edgeLost = s.edgeLost ∧ (onTail f s).links
    = s.links ∧ (onTail f s).unitWin = s.unitWin ∧ (onTail f s).unitCar = s.unitCar ∧ (onTail f s).alignTo = s.alignTo ∧ (onTail f
    s).lostTerr = s.lostTerr ∧ (onTail f s).lostOwners = s.lostOwners ∧ (onTail f s).lostFields = s.lostFields ∧ (onTail f s).apart =
    s.apart ∧ (onTail f s).apartAt = s.apartAt ∧ (onTail f s).tether = s.tether ∧ (onTail f s).forces = s.forces ∧ (onTail f s).change =
    s.change ∧ (onTail f s).update = s.update ∧ (onTail f s).win = s.win ∧ (onTail f s).tail = f s.tail ∧ (onTail f s).faultCounts =
    s.faultCounts ∧ (onTail f s).pmcSetup = s.pmcSetup ∧ (onTail f s).pmcWith = s.pmcWith ∧ (onTail f s).pmcActive = s.pmcActive ∧ (onTail f
    s).pmcSamples = s.pmcSamples ∧ (onTail f s).pmcRead = s.pmcRead ∧ (onTail f s).pmcLost = s.pmcLost ∧ (onTail f s).rotations =
    s.rotations :=
  ⟨rfl, rfl, rfl, rfl, rfl, rfl, rfl, rfl, rfl, rfl, rfl, rfl, rfl, rfl, rfl, rfl, rfl, rfl, rfl, rfl, rfl, rfl, rfl, rfl, rfl, rfl, rfl,
    rfl, rfl, rfl, rfl, rfl, rfl, rfl, rfl, rfl, rfl, rfl, rfl, rfl, rfl, rfl, rfl, rfl, rfl, rfl, rfl, rfl, rfl, rfl, rfl, rfl, rfl, rfl⟩

@[simp] theorem onLinks_fields (f : LinksSt → LinksSt) (s : State) :
    (onLinks f s).pending = s.pending ∧ (onLinks f s).mode = s.mode ∧ (onLinks f s).overlays = s.overlays ∧ (onLinks f s).heldForm =
    s.heldForm ∧ (onLinks f s).refused = s.refused ∧ (onLinks f s).coresOff = s.coresOff ∧ (onLinks f s).tripAt = s.tripAt ∧ (onLinks f
    s).start = s.start ∧ (onLinks f s).startIn = s.startIn ∧ (onLinks f s).fullBist = s.fullBist ∧ (onLinks f s).shut = s.shut ∧ (onLinks f
    s).ao = s.ao ∧ (onLinks f s).cycle = s.cycle ∧ (onLinks f s).boundaries = s.boundaries ∧ (onLinks f s).slkAdjust = s.slkAdjust ∧
    (onLinks f s).firstBoundaryMs = s.firstBoundaryMs ∧ (onLinks f s).part = s.part ∧ (onLinks f s).partSlotB = s.partSlotB ∧ (onLinks f
    s).fwDigest = s.fwDigest ∧ (onLinks f s).loaded = s.loaded ∧ (onLinks f s).carrier = s.carrier ∧ (onLinks f s).versions = s.versions ∧
    (onLinks f s).bist = s.bist ∧ (onLinks f s).recordKey = s.recordKey ∧ (onLinks f s).dies = s.dies ∧ (onLinks f s).vote = s.vote ∧
    (onLinks f s).ins = s.ins ∧ (onLinks f s).outs = s.outs ∧ (onLinks f s).frozen = s.frozen ∧ (onLinks f s).clampOpen = s.clampOpen ∧
    (onLinks f s).edgeLost = s.edgeLost ∧ (onLinks f s).links = f s.links ∧ (onLinks f s).unitWin = s.unitWin ∧ (onLinks f s).unitCar =
    s.unitCar ∧ (onLinks f s).alignTo = s.alignTo ∧ (onLinks f s).lostTerr = s.lostTerr ∧ (onLinks f s).lostOwners = s.lostOwners ∧ (onLinks
    f s).lostFields = s.lostFields ∧ (onLinks f s).apart = s.apart ∧ (onLinks f s).apartAt = s.apartAt ∧ (onLinks f s).tether = s.tether ∧
    (onLinks f s).forces = s.forces ∧ (onLinks f s).change = s.change ∧ (onLinks f s).update = s.update ∧ (onLinks f s).win = s.win ∧
    (onLinks f s).tail = s.tail ∧ (onLinks f s).faultCounts = s.faultCounts ∧ (onLinks f s).pmcSetup = s.pmcSetup ∧ (onLinks f s).pmcWith =
    s.pmcWith ∧ (onLinks f s).pmcActive = s.pmcActive ∧ (onLinks f s).pmcSamples = s.pmcSamples ∧ (onLinks f s).pmcRead = s.pmcRead ∧
    (onLinks f s).pmcLost = s.pmcLost ∧ (onLinks f s).rotations = s.rotations :=
  ⟨rfl, rfl, rfl, rfl, rfl, rfl, rfl, rfl, rfl, rfl, rfl, rfl, rfl, rfl, rfl, rfl, rfl, rfl, rfl, rfl, rfl, rfl, rfl, rfl, rfl, rfl, rfl,
    rfl, rfl, rfl, rfl, rfl, rfl, rfl, rfl, rfl, rfl, rfl, rfl, rfl, rfl, rfl, rfl, rfl, rfl, rfl, rfl, rfl, rfl, rfl, rfl, rfl, rfl, rfl⟩

@[simp] theorem onTether_fields (f : TetherSt → TetherSt) (s : State) :
    (onTether f s).pending = s.pending ∧ (onTether f s).mode = s.mode ∧ (onTether f s).overlays = s.overlays ∧ (onTether f s).heldForm =
    s.heldForm ∧ (onTether f s).refused = s.refused ∧ (onTether f s).coresOff = s.coresOff ∧ (onTether f s).tripAt = s.tripAt ∧ (onTether f
    s).start = s.start ∧ (onTether f s).startIn = s.startIn ∧ (onTether f s).fullBist = s.fullBist ∧ (onTether f s).shut = s.shut ∧
    (onTether f s).ao = s.ao ∧ (onTether f s).cycle = s.cycle ∧ (onTether f s).boundaries = s.boundaries ∧ (onTether f s).slkAdjust =
    s.slkAdjust ∧ (onTether f s).firstBoundaryMs = s.firstBoundaryMs ∧ (onTether f s).part = s.part ∧ (onTether f s).partSlotB = s.partSlotB
    ∧ (onTether f s).fwDigest = s.fwDigest ∧ (onTether f s).loaded = s.loaded ∧ (onTether f s).carrier = s.carrier ∧ (onTether f s).versions
    = s.versions ∧ (onTether f s).bist = s.bist ∧ (onTether f s).recordKey = s.recordKey ∧ (onTether f s).dies = s.dies ∧ (onTether f
    s).vote = s.vote ∧ (onTether f s).ins = s.ins ∧ (onTether f s).outs = s.outs ∧ (onTether f s).frozen = s.frozen ∧ (onTether f
    s).clampOpen = s.clampOpen ∧ (onTether f s).edgeLost = s.edgeLost ∧ (onTether f s).links = s.links ∧ (onTether f s).unitWin = s.unitWin
    ∧ (onTether f s).unitCar = s.unitCar ∧ (onTether f s).alignTo = s.alignTo ∧ (onTether f s).lostTerr = s.lostTerr ∧ (onTether f
    s).lostOwners = s.lostOwners ∧ (onTether f s).lostFields = s.lostFields ∧ (onTether f s).apart = s.apart ∧ (onTether f s).apartAt =
    s.apartAt ∧ (onTether f s).tether = f s.tether ∧ (onTether f s).forces = s.forces ∧ (onTether f s).change = s.change ∧ (onTether f
    s).update = s.update ∧ (onTether f s).win = s.win ∧ (onTether f s).tail = s.tail ∧ (onTether f s).faultCounts = s.faultCounts ∧
    (onTether f s).pmcSetup = s.pmcSetup ∧ (onTether f s).pmcWith = s.pmcWith ∧ (onTether f s).pmcActive = s.pmcActive ∧ (onTether f
    s).pmcSamples = s.pmcSamples ∧ (onTether f s).pmcRead = s.pmcRead ∧ (onTether f s).pmcLost = s.pmcLost ∧ (onTether f s).rotations =
    s.rotations :=
  ⟨rfl, rfl, rfl, rfl, rfl, rfl, rfl, rfl, rfl, rfl, rfl, rfl, rfl, rfl, rfl, rfl, rfl, rfl, rfl, rfl, rfl, rfl, rfl, rfl, rfl, rfl, rfl,
    rfl, rfl, rfl, rfl, rfl, rfl, rfl, rfl, rfl, rfl, rfl, rfl, rfl, rfl, rfl, rfl, rfl, rfl, rfl, rfl, rfl, rfl, rfl, rfl, rfl, rfl, rfl⟩

@[simp] theorem onOuts_fields (f : OutSt → OutSt) (s : State) :
    (onOuts f s).pending = s.pending ∧ (onOuts f s).mode = s.mode ∧ (onOuts f s).overlays = s.overlays ∧ (onOuts f s).heldForm = s.heldForm
    ∧ (onOuts f s).refused = s.refused ∧ (onOuts f s).coresOff = s.coresOff ∧ (onOuts f s).tripAt = s.tripAt ∧ (onOuts f s).start = s.start
    ∧ (onOuts f s).startIn = s.startIn ∧ (onOuts f s).fullBist = s.fullBist ∧ (onOuts f s).shut = s.shut ∧ (onOuts f s).ao = s.ao ∧ (onOuts
    f s).cycle = s.cycle ∧ (onOuts f s).boundaries = s.boundaries ∧ (onOuts f s).slkAdjust = s.slkAdjust ∧ (onOuts f s).firstBoundaryMs =
    s.firstBoundaryMs ∧ (onOuts f s).part = s.part ∧ (onOuts f s).partSlotB = s.partSlotB ∧ (onOuts f s).fwDigest = s.fwDigest ∧ (onOuts f
    s).loaded = s.loaded ∧ (onOuts f s).carrier = s.carrier ∧ (onOuts f s).versions = s.versions ∧ (onOuts f s).bist = s.bist ∧ (onOuts f
    s).recordKey = s.recordKey ∧ (onOuts f s).dies = s.dies ∧ (onOuts f s).vote = s.vote ∧ (onOuts f s).ins = s.ins ∧ (onOuts f s).outs = f
    s.outs ∧ (onOuts f s).frozen = s.frozen ∧ (onOuts f s).clampOpen = s.clampOpen ∧ (onOuts f s).edgeLost = s.edgeLost ∧ (onOuts f s).links
    = s.links ∧ (onOuts f s).unitWin = s.unitWin ∧ (onOuts f s).unitCar = s.unitCar ∧ (onOuts f s).alignTo = s.alignTo ∧ (onOuts f
    s).lostTerr = s.lostTerr ∧ (onOuts f s).lostOwners = s.lostOwners ∧ (onOuts f s).lostFields = s.lostFields ∧ (onOuts f s).apart =
    s.apart ∧ (onOuts f s).apartAt = s.apartAt ∧ (onOuts f s).tether = s.tether ∧ (onOuts f s).forces = s.forces ∧ (onOuts f s).change =
    s.change ∧ (onOuts f s).update = s.update ∧ (onOuts f s).win = s.win ∧ (onOuts f s).tail = s.tail ∧ (onOuts f s).faultCounts =
    s.faultCounts ∧ (onOuts f s).pmcSetup = s.pmcSetup ∧ (onOuts f s).pmcWith = s.pmcWith ∧ (onOuts f s).pmcActive = s.pmcActive ∧ (onOuts f
    s).pmcSamples = s.pmcSamples ∧ (onOuts f s).pmcRead = s.pmcRead ∧ (onOuts f s).pmcLost = s.pmcLost ∧ (onOuts f s).rotations =
    s.rotations :=
  ⟨rfl, rfl, rfl, rfl, rfl, rfl, rfl, rfl, rfl, rfl, rfl, rfl, rfl, rfl, rfl, rfl, rfl, rfl, rfl, rfl, rfl, rfl, rfl, rfl, rfl, rfl, rfl,
    rfl, rfl, rfl, rfl, rfl, rfl, rfl, rfl, rfl, rfl, rfl, rfl, rfl, rfl, rfl, rfl, rfl, rfl, rfl, rfl, rfl, rfl, rfl, rfl, rfl, rfl, rfl⟩

@[simp] theorem onIns_fields (f : InSt → InSt) (s : State) :
    (onIns f s).pending = s.pending ∧ (onIns f s).mode = s.mode ∧ (onIns f s).overlays = s.overlays ∧ (onIns f s).heldForm = s.heldForm ∧
    (onIns f s).refused = s.refused ∧ (onIns f s).coresOff = s.coresOff ∧ (onIns f s).tripAt = s.tripAt ∧ (onIns f s).start = s.start ∧
    (onIns f s).startIn = s.startIn ∧ (onIns f s).fullBist = s.fullBist ∧ (onIns f s).shut = s.shut ∧ (onIns f s).ao = s.ao ∧ (onIns f
    s).cycle = s.cycle ∧ (onIns f s).boundaries = s.boundaries ∧ (onIns f s).slkAdjust = s.slkAdjust ∧ (onIns f s).firstBoundaryMs =
    s.firstBoundaryMs ∧ (onIns f s).part = s.part ∧ (onIns f s).partSlotB = s.partSlotB ∧ (onIns f s).fwDigest = s.fwDigest ∧ (onIns f
    s).loaded = s.loaded ∧ (onIns f s).carrier = s.carrier ∧ (onIns f s).versions = s.versions ∧ (onIns f s).bist = s.bist ∧ (onIns f
    s).recordKey = s.recordKey ∧ (onIns f s).dies = s.dies ∧ (onIns f s).vote = s.vote ∧ (onIns f s).ins = f s.ins ∧ (onIns f s).outs =
    s.outs ∧ (onIns f s).frozen = s.frozen ∧ (onIns f s).clampOpen = s.clampOpen ∧ (onIns f s).edgeLost = s.edgeLost ∧ (onIns f s).links =
    s.links ∧ (onIns f s).unitWin = s.unitWin ∧ (onIns f s).unitCar = s.unitCar ∧ (onIns f s).alignTo = s.alignTo ∧ (onIns f s).lostTerr =
    s.lostTerr ∧ (onIns f s).lostOwners = s.lostOwners ∧ (onIns f s).lostFields = s.lostFields ∧ (onIns f s).apart = s.apart ∧ (onIns f
    s).apartAt = s.apartAt ∧ (onIns f s).tether = s.tether ∧ (onIns f s).forces = s.forces ∧ (onIns f s).change = s.change ∧ (onIns f
    s).update = s.update ∧ (onIns f s).win = s.win ∧ (onIns f s).tail = s.tail ∧ (onIns f s).faultCounts = s.faultCounts ∧ (onIns f
    s).pmcSetup = s.pmcSetup ∧ (onIns f s).pmcWith = s.pmcWith ∧ (onIns f s).pmcActive = s.pmcActive ∧ (onIns f s).pmcSamples = s.pmcSamples
    ∧ (onIns f s).pmcRead = s.pmcRead ∧ (onIns f s).pmcLost = s.pmcLost ∧ (onIns f s).rotations = s.rotations :=
  ⟨rfl, rfl, rfl, rfl, rfl, rfl, rfl, rfl, rfl, rfl, rfl, rfl, rfl, rfl, rfl, rfl, rfl, rfl, rfl, rfl, rfl, rfl, rfl, rfl, rfl, rfl, rfl,
    rfl, rfl, rfl, rfl, rfl, rfl, rfl, rfl, rfl, rfl, rfl, rfl, rfl, rfl, rfl, rfl, rfl, rfl, rfl, rfl, rfl, rfl, rfl, rfl, rfl, rfl, rfl⟩

/-! ## Records: the tail alone changes -/

theorem logPut_tail (q : LogReq) (s : State) : logPut q s = { s with tail := (logPut q s).tail } := rfl

theorem logCore_tail (q : LogReq) (s : State) : logCore q s = { s with tail := (logCore q s).tail } := rfl

theorem logOpen_tail (c : BitVec 16) (u p i : Nat) (k : BitVec 64) (s : State) : logOpen c u p i k s = { s with tail := (logOpen c u p i k s).tail } := rfl

theorem logData_tail (c : BitVec 16) (u p i : Nat) (k : BitVec 64) (s : State) : logData c u p i k s = { s with tail := (logData c u p i k s).tail } := rfl

theorem logTrip_tail (t : TripRec) (s : State) : logTrip t s = { s with tail := (logTrip t s).tail } := rfl

/-! ## The dies -/

@[simp] theorem dieOf_onDies (f : Die → DieSt → DieSt) (s : State) (d : Die) : dieOf (onDies f s) d = f d (dieOf s d) :=
  triGet_triMap s.dies f d

theorem dieOf_onDie (d e : Die) (f : DieSt → DieSt) (s : State) : dieOf (onDie d f s) e = if e = d then f (dieOf s d) else dieOf s e := by
  by_cases h : e = d
  · subst h
    simp [dieOf, onDie]
  · simp [dieOf, onDie, h, triGet_triMod_other s.dies f h]

end Sys2Proof.Machine
end

