-- ==== Sys2Proof/Laws/Ops.lean ====
section
/-!
SUPPORT. Laws of the operations over the whole module that several commands share: what each of them can change, said once.
-/

namespace Sys2Proof.Machine

/-! ## Overlays, modes, claims -/

/-- Overlays change with an event in every region and a record. -/
theorem setOverlays_eq (o : Overlays) (s : State) :
    setOverlays o s = { s with overlays := (setOverlays o s).overlays, dies := (setOverlays o s).dies, tail := (setOverlays o s).tail } := by
  unfold setOverlays
  dsimp only
  split <;> rfl

/-- A mode change writes a record, posts an event in every region and rewrites the header. -/
theorem setMode_eq (m : Mode) (s : State) :
    setMode m s = { s with mode := m, dies := (setMode m s).dies, tail := (setMode m s).tail, win := (setMode m s).win } := by
  unfold setMode
  split
  · rename_i h
    rw [← h]
  · rfl

@[simp] theorem setMode_mode (m : Mode) (s : State) : (setMode m s).mode = m := by rw [setMode_eq]

@[simp] theorem setMode_ao (m : Mode) (s : State) : (setMode m s).ao = s.ao := by rw [setMode_eq]

@[simp] theorem setMode_start (m : Mode) (s : State) : (setMode m s).start = s.start := by rw [setMode_eq]

@[simp] theorem setOverlays_mode (o : Overlays) (s : State) : (setOverlays o s).mode = s.mode := by rw [setOverlays_eq]

@[simp] theorem setOverlays_ao (o : Overlays) (s : State) : (setOverlays o s).ao = s.ao := by rw [setOverlays_eq]

@[simp] theorem setOverlays_start (o : Overlays) (s : State) : (setOverlays o s).start = s.start := by rw [setOverlays_eq]

/-- An aborted change: its phase and code, the overlay, an event and records. -/
theorem abortChange_eq (k : BitVec 8) (s : State) :
    abortChange k s = { s with overlays := (abortChange k s).overlays, change := (abortChange k s).change,
                               dies := (abortChange k s).dies, tail := (abortChange k s).tail } := by
  unfold abortChange
  split
  · rfl
  · unfold logOpen logPut onTail
    rw [setOverlays_eq]

/-- The stop of the cycles clears the claim, disarms the watchdog, ends the start, and keeps mode and latch. -/
theorem stopCycles_claim (s : State) :
    (stopCycles s).ao.claimEn = false ∧ (stopCycles s).ao.wdArmed = false ∧ (stopCycles s).ao.autoWait = none ∧
      (stopCycles s).ao.tripLatch = s.ao.tripLatch ∧ (stopCycles s).mode = s.mode ∧ (stopCycles s).start = .idle ∧
      (stopCycles s).outs = s.outs ∧ (stopCycles s).vote = s.vote := by
  have h := abortChange_eq chABORTED s
  unfold stopCycles
  rw [h]
  exact ⟨rfl, rfl, rfl, rfl, rfl, rfl, rfl, rfl⟩

/-- Every die stands in IDLE after the stop of the cycles. -/
theorem stopCycles_idle (s : State) (d : Die) : (dieOf (stopCycles s) d).phase = phIDLE := by
  unfold stopCycles
  rw [dieOf_onDies]

/-- SAFE in its tripped form: the mode, no claim, no start, the latch as before. -/
theorem enterSafe_claim (s : State) :
    (enterSafe s).mode = .safe ∧ (enterSafe s).ao.claimEn = false ∧ (enterSafe s).ao.wdArmed = false ∧
      (enterSafe s).ao.tripLatch = s.ao.tripLatch ∧ (enterSafe s).start = .idle := by
  unfold enterSafe
  have h := stopCycles_claim { s with shut := .none }
  refine ⟨by simp, ?_, ?_, ?_, ?_⟩
  · rw [setMode_ao]; exact h.1
  · rw [setMode_ao]; exact h.2.1
  · rw [setMode_ao]; exact h.2.2.2.1
  · rw [setMode_start]; exact h.2.2.2.2.2.1

/-! ## The claim discipline of the shared operations -/

/-- The discipline reads the mode, the start and the always-on domain alone. -/
theorem claimDiscipline_congr {s t : State} (h : ClaimDiscipline s) (hm : t.mode = s.mode) (hs : t.start = s.start)
    (hc : t.ao.claimEn = s.ao.claimEn) (hl : t.ao.tripLatch = s.ao.tripLatch) : ClaimDiscipline t := by
  unfold ClaimDiscipline at *
  rw [hm, hs, hc, hl]
  exact h

/-- A state without claim in which no cycles run or are about to meets it. -/
theorem claimDiscipline_of_safe {t : State} (hm : t.mode = .safe) (hc : t.ao.claimEn = false) : ClaimDiscipline t := by
  refine ⟨fun h => ?_, fun h => ?_⟩
  · rw [hc] at h
    exact absurd h (by decide)
  · rw [hm] at h
    rcases h with h | h | ⟨h, _⟩ <;> exact absurd h (by decide)

theorem enterSafe_discipline (s : State) : ClaimDiscipline (enterSafe s) :=
  claimDiscipline_of_safe (enterSafe_claim s).1 (enterSafe_claim s).2.1

theorem excludeCopy_eq (d : Die) (r : Nat) (c : ExclCause) (s : State) :
    excludeCopy d r c s = { s with
      vote := (excludeCopy d r c s).vote, overlays := (excludeCopy d r c s).overlays, dies := (excludeCopy d r c s).dies,
      change := (excludeCopy d r c s).change, tail := (excludeCopy d r c s).tail } := by
  unfold excludeCopy
  split
  · rfl
  · simp only [logOpen, logPut, onTail]
    rw [abortChange_eq, setOverlays_eq]
    rfl

theorem excludeCopy_discipline {s : State} (h : ClaimDiscipline s) (d : Die) (r : Nat) (c : ExclCause) :
    ClaimDiscipline (excludeCopy d r c s) := by
  rw [excludeCopy_eq]
  exact claimDiscipline_congr h rfl rfl rfl rfl

/-- What stands on top of SAFE: a trip record in the tail, and an always-on domain whose claim and latch stay. -/
theorem tripOver_discipline {u : State} (h : ClaimDiscipline u) (r : TripRec) {f : AoSt → AoSt} (hc : ∀ a, (f a).claimEn = a.claimEn)
    (hl : ∀ a, (f a).tripLatch = a.tripLatch) : ClaimDiscipline (onAo f (logTrip r u)) :=
  claimDiscipline_congr h rfl rfl (hc _) (hl _)

/-- A trip, in whatever state it finds the module, keeps the discipline. -/
theorem tripBy_discipline {s : State} (h : ClaimDiscipline s) (q : CauseIn) (c : Cause) (region : Nat) (detail : BitVec 8) (avail : BitVec 4) :
    ClaimDiscipline (tripBy q c region detail avail s) := by
  unfold tripBy
  dsimp only
  split
  · exact h
  split
  · exact claimDiscipline_congr h rfl rfl (by simp [onAo, fireLine]) (by simp [onAo, fireLine])
  split
  · exact claimDiscipline_congr h rfl rfl rfl rfl
  split
  · exact claimDiscipline_congr h rfl rfl rfl rfl
  · exact tripOver_discipline (enterSafe_discipline _) _ (fun _ => rfl) (fun _ => rfl)

end Sys2Proof.Machine
end

