-- ==== Sys2Proof/Laws/Regions.lean ====
section
/-!
SUPPORT. Laws of region pairs: what an update of a region changes, registers and PC of the running set, counters, and what an
instruction that runs does (`runRule_ok`, `runRule_jump`).
-/

namespace Sys2Proof.Machine

/-! ## Regions -/

theorem reg_modReg_self (x : DieSt) {r : Nat} (hr : r < 16) (f : RegionSt → RegionSt) : reg (modReg x r f) r = f (reg x r) := by
  simp [reg, modReg, setReg, hr]

theorem reg_modReg_other (x : DieSt) {r q : Nat} (h : q ≠ r) (f : RegionSt → RegionSt) : reg (modReg x r f) q = reg x q := by
  have h' : r ≠ q := fun e => h e.symm
  simp [reg, modReg, setReg, h']

theorem SameButRegion.refl (r : Nat) (x : DieSt) : SameButRegion r x x := ⟨rfl, fun _ _ => rfl⟩

theorem SameButRegion.trans {r : Nat} {x y z : DieSt} (h : SameButRegion r x y) (k : SameButRegion r y z) : SameButRegion r x z := by
  refine ⟨?_, fun q hq => (k.2 q hq).trans (h.2 q hq)⟩
  rw [k.1, h.1]

theorem sameButRegion_modReg (r : Nat) (x : DieSt) (f : RegionSt → RegionSt) : SameButRegion r x (modReg x r f) :=
  ⟨rfl, fun _ hq => reg_modReg_other x hq f⟩

theorem sameButRegion_foldl {α : Type} (r : Nat) (f : DieSt → α → DieSt) (h : ∀ y a, SameButRegion r y (f y a)) :
    ∀ (l : List α) (x : DieSt), SameButRegion r x (l.foldl f x)
  | [], x => SameButRegion.refl r x
  | a :: l, x => (h x a).trans (sameButRegion_foldl r f h l (f x a))

/-! ## Performance counters -/

/-- What counting changes in a region: counters, and the sources of those that wrap. -/
def CountsOnly (a b : RegionSt) : Prop :=
  b = { a with pmc := b.pmc, posted := b.posted } ∧ ∀ src, src < 200 ∨ 208 ≤ src → bitOf b.posted src = bitOf a.posted src

theorem CountsOnly.refl (a : RegionSt) : CountsOnly a a := ⟨rfl, fun _ _ => rfl⟩

theorem CountsOnly.trans {a b c : RegionSt} (h : CountsOnly a b) (k : CountsOnly b c) : CountsOnly a c := by
  refine ⟨?_, fun q hq => (k.2 q hq).trans (h.2 q hq)⟩
  rw [k.1, h.1]

theorem bitOf_setBitOf_other {w : Nat} (x : BitVec w) {n k : Nat} (b : Bool) (h : k ≠ n) : bitOf (setBitOf x n b) k = bitOf x k := by
  unfold bitOf setBitOf
  have hk : k < n ∨ ¬ k - n = 0 := by omega
  cases b
  · by_cases hw : k < w
    · simp [hw, hk]
    · simp [BitVec.getLsbD_of_ge _ _ (Nat.le_of_not_lt hw)]
  · simp only [if_true, BitVec.getLsbD_or, BitVec.getLsbD_shiftLeft, BitVec.getLsbD_one]
    rcases hk with hk | hk <;> simp [hk]

/-- Counting an event changes nothing but the region's counters. -/
theorem pmcCount_only {r : Nat} (hr : r < 16) (code : Nat) (x : DieSt) :
    SameButRegion r x (pmcCount r code x) ∧ CountsOnly (reg x r) (reg (pmcCount r code x) r) := by
  unfold pmcCount
  split
  · exact ⟨SameButRegion.refl r x, CountsOnly.refl _⟩
  · have key : ∀ (l : List Nat), (∀ n ∈ l, n < 8) → ∀ (y : DieSt),
        SameButRegion r y (l.foldl (fun y n =>
          let p := (reg y r).pmc
          if pmcSel p n ≠ code then y
          else if getA 0 p.cnt n = 0xFFFFFFFF then
            postEvent r (0xC8 + n) (modReg y r (fun g => { g with pmc := pmcWrap n p }))
          else modReg y r (fun g => { g with pmc := { p with cnt := putA 0 n (getA 0 p.cnt n + 1) p.cnt } })) y) ∧
        CountsOnly (reg y r) (reg (l.foldl (fun y n =>
          let p := (reg y r).pmc
          if pmcSel p n ≠ code then y
          else if getA 0 p.cnt n = 0xFFFFFFFF then
            postEvent r (0xC8 + n) (modReg y r (fun g => { g with pmc := pmcWrap n p }))
          else modReg y r (fun g => { g with pmc := { p with cnt := putA 0 n (getA 0 p.cnt n + 1) p.cnt } })) y) r) := by
      intro l
      induction l with
      | nil => exact fun _ y => ⟨SameButRegion.refl r y, CountsOnly.refl _⟩
      | cons n l ih =>
        intro hl y
        have hn : n < 8 := hl n (by simp)
        have hl' : ∀ m ∈ l, m < 8 := fun m hm => hl m (by simp [hm])
        rw [List.foldl_cons]
        refine ⟨SameButRegion.trans ?_ (ih hl' _).1, CountsOnly.trans ?_ (ih hl' _).2⟩
        · dsimp only
          split
          · exact SameButRegion.refl r y
          · split
            · exact (sameButRegion_modReg r y _).trans (sameButRegion_modReg r _ _)
            · exact sameButRegion_modReg r y _
        · dsimp only
          split
          · exact CountsOnly.refl _
          · split
            · refine ⟨by simp [postEvent, reg_modReg_self _ hr], fun src hs => ?_⟩
              have : src ≠ 0xC8 + n := by omega
              simp [postEvent, reg_modReg_self _ hr, bitOf_setBitOf_other _ _ this]
            · exact ⟨by simp [reg_modReg_self _ hr], fun src _ => by simp [reg_modReg_self _ hr]⟩
    exact key (numsFrom 0 8) (by decide) x

/-- Two dies differ at most in their regions. -/
def RegionsOnly (x y : DieSt) : Prop := y = { x with regions := y.regions }

theorem RegionsOnly.refl (x : DieSt) : RegionsOnly x x := rfl

theorem RegionsOnly.trans {x y z : DieSt} (h : RegionsOnly x y) (k : RegionsOnly y z) : RegionsOnly x z := by
  unfold RegionsOnly at *
  rw [k, h]

theorem regionsOnly_foldl {α : Type} (f : DieSt → α → DieSt) (h : ∀ y a, RegionsOnly y (f y a)) :
    ∀ (l : List α) (x : DieSt), RegionsOnly x (l.foldl f x)
  | [], x => RegionsOnly.refl x
  | a :: l, x => (h x a).trans (regionsOnly_foldl f h l (f x a))

theorem pmcCount_regions (r code : Nat) (x : DieSt) : RegionsOnly x (pmcCount r code x) := by
  unfold pmcCount
  split
  · exact RegionsOnly.refl x
  · refine regionsOnly_foldl _ (fun y n => ?_) _ x
    dsimp only
    split
    · exact RegionsOnly.refl y
    · split <;> rfl

theorem pmcCounts_regions (r code : Nat) : ∀ (k : Nat) (x : DieSt), RegionsOnly x (pmcCounts r code k x)
  | 0, x => RegionsOnly.refl x
  | k + 1, x => (pmcCount_regions r code x).trans (pmcCounts_regions r code k _)

/-- Counting the tokens that leave the outboxes changes nothing but regions: no cell, no token, no route. -/
theorem countOut_only (t : Token) (x y : DieSt) : RegionsOnly y (countOut t x y) :=
  regionsOnly_foldl _ (fun z r => pmcCounts_regions r 0x11 _ z) _ y

/-! ## Registers, PC and charge of the running set -/

theorem inRevert_of_countsOnly {x y : DieSt} {r : Nat} (h : CountsOnly (reg x r) (reg y r)) : inRevert y r = inRevert x r := by
  unfold inRevert
  rw [h.1]

/-- Everything an instruction reads of the running set stays as counting leaves it. -/
theorem countsOnly_reads {x y : DieSt} {r : Nat} (hs : y.strap = x.strap) (h : CountsOnly (reg x r) (reg y r)) :
    (∀ n, rget y r n = rget x r n) ∧ curPc y r = curPc x r ∧ curCharge y r = curCharge x r ∧ (reg y r).mem = (reg x r).mem := by
  refine ⟨fun n => ?_, ?_, ?_, ?_⟩
  · unfold rget; rw [inRevert_of_countsOnly h, h.1, hs]
  · unfold curPc; rw [inRevert_of_countsOnly h, h.1]
  · unfold curCharge; rw [inRevert_of_countsOnly h, h.1]
  · rw [h.1]

theorem RegistersOnly.refl (a : RegionSt) : RegistersOnly a a := by
  refine ⟨rfl, ?_, fun _ _ => rfl⟩
  cases a.revert <;> simp

theorem RegistersOnly.revert_eq {a b : RegionSt} (h : RegistersOnly a b) : b.revert = a.revert := by rw [h.1]

theorem RegistersOnly.trans {a b c : RegionSt} (h : RegistersOnly a b) (k : RegistersOnly b c) : RegistersOnly a c := by
  have hr := h.revert_eq
  refine ⟨by rw [k.1, h.1], ?_, fun q hq => (k.2.2 q hq).trans (h.2.2 q hq)⟩
  have h2 := h.2.1
  have k2 := k.2.1
  rw [hr] at k2
  cases hv : a.revert <;> simp only [hv, Bool.false_eq_true, if_false, if_true] at h2 k2 ⊢
  · exact ⟨k2.1.trans h2.1, k2.2.1.trans h2.2.1, k2.2.2.trans h2.2.2⟩
  · exact ⟨k2.1.trans h2.1, k2.2.1.trans h2.2.1, k2.2.2.trans h2.2.2⟩

theorem CountsOnly.registersOnly {a b : RegionSt} (h : CountsOnly a b) : RegistersOnly a b := by
  refine ⟨by rw [h.1], ?_, h.2⟩
  rw [h.1]
  cases a.revert <;> simp

/-- Storing a register: the running set alone changes, and the register reads the value; a write to g0 is discarded. -/
theorem rset_only {r : Nat} (hr : r < 16) (n : Nat) (v : Word) (x : DieSt) :
    SameButRegion r x (rset r n v x) ∧ RegistersOnly (reg x r) (reg (rset r n v x) r) ∧ curPc (rset r n v x) r = curPc x r ∧
      curCharge (rset r n v x) r = curCharge x r ∧ inRevert (rset r n v x) r = inRevert x r := by
  unfold rset
  split
  · exact ⟨SameButRegion.refl r x, RegistersOnly.refl _, rfl, rfl, rfl⟩
  · cases hv : inRevert x r
    all_goals
      unfold inRevert at hv
      simp only [Bool.false_eq_true, if_false, if_true]
      refine ⟨sameButRegion_modReg r x _, ?_, ?_, ?_, ?_⟩
      · simp [RegistersOnly, reg_modReg_self x hr, hv]
      · simp [curPc, inRevert, reg_modReg_self x hr, hv]
      · simp [curCharge, inRevert, reg_modReg_self x hr, hv]
      · simp [inRevert, reg_modReg_self x hr, hv]

/-- A register of a set reads what was put there, in true form (01 R20, 05 R172). -/
theorem getG_putG (k : BitVec 2) (n m : Nat) (v : Word) (g : List (Nat × Word)) :
    getG k (putG k n v g) m = if n = m then v else getG k g m := by
  unfold getG putG
  rw [getA_putA]
  split <;> simp

@[simp] theorem strap_modReg (x : DieSt) (r : Nat) (f : RegionSt → RegionSt) : (modReg x r f).strap = x.strap := rfl

/-- A register reads what was stored; g0 reads 0. -/
theorem rget_rset {r : Nat} (hr : r < 16) (n k : Nat) (v : Word) (x : DieSt) :
    rget (rset r n v x) r k = if k = n then (if n = 0 then 0 else v) else rget x r k := by
  unfold rget rset
  by_cases hk : k = 0
  · subst hk
    by_cases hn : n = 0
    · simp [hn]
    · have : (0 : Nat) ≠ n := fun e => hn e.symm
      simp [this]
  · by_cases hn : n = 0
    · subst hn
      simp [hk]
    · cases hv : inRevert x r
      all_goals
        unfold inRevert at hv
        simp only [hk, hn, Bool.false_eq_true, if_false, if_true]
        by_cases he : k = n
        · subst he
          simp [inRevert, reg_modReg_self x hr, hv, getG_putG]
        · have he' : ¬ n = k := fun e => he e.symm
          simp [inRevert, reg_modReg_self x hr, hv, he, he', getG_putG]

/-- Adding charge changes the running set's charge alone. -/
theorem addCharge_only {r : Nat} (hr : r < 16) (n : Nat) (x : DieSt) :
    SameButRegion r x (addCharge r n x) ∧ RegistersOnly (reg x r) (reg (addCharge r n x) r) ∧
      (∀ k, rget (addCharge r n x) r k = rget x r k) ∧ curPc (addCharge r n x) r = curPc x r ∧
      curCharge (addCharge r n x) r = curCharge x r + n ∧ inRevert (addCharge r n x) r = inRevert x r := by
  unfold addCharge
  cases hv : inRevert x r
  all_goals
    unfold inRevert at hv
    simp only [Bool.false_eq_true, if_false, if_true]
    refine ⟨sameButRegion_modReg r x _, ?_, fun k => ?_, ?_, ?_, ?_⟩
    · simp [RegistersOnly, reg_modReg_self x hr, hv]
    · simp [rget, inRevert, reg_modReg_self x hr, hv]
    · simp [curPc, inRevert, reg_modReg_self x hr, hv]
    · simp [curCharge, inRevert, reg_modReg_self x hr, hv]
    · simp [inRevert, reg_modReg_self x hr, hv]

/-- Setting PC changes the running set's PC alone. -/
theorem setPc_only {r : Nat} (hr : r < 16) (n : Nat) (x : DieSt) :
    SameButRegion r x (setPc r n x) ∧ RegistersOnly (reg x r) (reg (setPc r n x) r) ∧
      (∀ k, rget (setPc r n x) r k = rget x r k) ∧ curPc (setPc r n x) r = n % 2 ^ 17 ∧
      curCharge (setPc r n x) r = curCharge x r ∧ inRevert (setPc r n x) r = inRevert x r := by
  unfold setPc
  cases hv : inRevert x r
  all_goals
    unfold inRevert at hv
    simp only [Bool.false_eq_true, if_false, if_true]
    refine ⟨sameButRegion_modReg r x _, ?_, fun k => ?_, ?_, ?_, ?_⟩
    · simp [RegistersOnly, reg_modReg_self x hr, hv]
    · simp [rget, inRevert, reg_modReg_self x hr, hv]
    · simp [curPc, inRevert, reg_modReg_self x hr, hv]
    · simp [curCharge, inRevert, reg_modReg_self x hr, hv]
    · simp [inRevert, reg_modReg_self x hr, hv]

/-- The code length is read from the code bank of region memory. -/
theorem codeLen_congr {x y : DieSt} {r : Nat} (ha : y.active = x.active) (hr : inRevert y r = inRevert x r)
    (hb : (reg y r).revertBank = (reg x r).revertBank) (hm : (reg y r).mem = (reg x r).mem) : codeLen y r = codeLen x r := by
  unfold codeLen runBase codeBase
  rw [ha, hr, hb, hm]

theorem RegistersOnly.mem_eq {a b : RegionSt} (h : RegistersOnly a b) : b.mem = a.mem := by rw [h.1]

theorem SameButRegion.active_eq {r : Nat} {x y : DieSt} (h : SameButRegion r x y) : y.active = x.active := by rw [h.1]

/-! ## One instruction -/

theorem insGoes_lt {s : State} {d : Die} {r c : Nat} (h : insGoes s d r c = true) : r < 16 := by
  simp only [insGoes, canRun, Bool.and_eq_true, decide_eq_true_eq] at h
  exact h.1.1.1.1

/-- An instruction that runs on a die and falls through: its effect between charge and the next PC. -/
theorem runIns_ok {cx : Ctx} {r c k : Nat} {f : DieSt → InsRes} {x z : DieSt} (hr : canRun x r = true)
    (hb : curCharge x r + c ≤ curBudget cx x r) (hf : f (addCharge r c x) = .ok z)
    (hp : 0x20 ≤ curPc (pmcCount r k (pmcCount r 0x01 z)) r + 4)
    (hl : curPc (pmcCount r k (pmcCount r 0x01 z)) r + 8 ≤ codeLen (pmcCount r k (pmcCount r 0x01 z)) r) :
    runIns cx r c k f x = setPc r (curPc (pmcCount r k (pmcCount r 0x01 z)) r + 4) (pmcCount r k (pmcCount r 0x01 z)) := by
  unfold runIns
  have h1 : ¬ curBudget cx x r < curCharge x r + c := by omega
  have h2 : ¬ codeLen (pmcCount r k (pmcCount r 0x01 z)) r < curPc (pmcCount r k (pmcCount r 0x01 z)) r + 8 := by omega
  have h3 : ¬ curPc (pmcCount r k (pmcCount r 0x01 z)) r + 4 < 0x20 := by omega
  simp only [hr, h1, hf, h2, h3, Bool.not_true, Bool.false_eq_true, if_false, decide_false, Bool.or_self]

theorem runIns_jump {cx : Ctx} {r c k : Nat} {f : DieSt → InsRes} {x z : DieSt} (hr : canRun x r = true)
    (hb : curCharge x r + c ≤ curBudget cx x r) (hf : f (addCharge r c x) = .jump z) :
    runIns cx r c k f x = pmcCount r k (pmcCount r 0x01 z) := by
  unfold runIns
  have h1 : ¬ curBudget cx x r < curCharge x r + c := by omega
  simp [hr, h1, hf]

theorem runIns_trap {cx : Ctx} {r c k : Nat} {f : DieSt → InsRes} {x : DieSt} {cause : BitVec 8} (hr : canRun x r = true)
    (hb : curCharge x r + c ≤ curBudget cx x r) (hf : f (addCharge r c x) = .trap cause) :
    runIns cx r c k f x = doTrap r cause (addCharge r c x) := by
  unfold runIns
  have h1 : ¬ curBudget cx x r < curCharge x r + c := by omega
  simp [hr, h1, hf]

/-- An instruction whose charge would pass the budget stops the task or the run. -/
theorem runIns_over {cx : Ctx} {r c k : Nat} {f : DieSt → InsRes} {x : DieSt} (hr : canRun x r = true)
    (hb : curBudget cx x r < curCharge x r + c) :
    runIns cx r c k f x = if inRevert x r then doRevertOverrun r x else doOverrun r x := by
  unfold runIns
  simp [hr, hb]

theorem runIns_idle {cx : Ctx} {r c k : Nat} {f : DieSt → InsRes} {x : DieSt} (hr : canRun x r = false) :
    runIns cx r c k f x = x := by
  unfold runIns
  simp [hr]

/-! ## Records of a die -/

theorem dieOf_onDie_self (s : State) (d : Die) (f : DieSt → DieSt) : dieOf (onDie d f s) d = f (dieOf s d) := by
  simp [dieOf, onDie]

theorem dieOf_onDie_other (s : State) {d e : Die} (f : DieSt → DieSt) (h : e ≠ d) : dieOf (onDie d f s) e = dieOf s e := by
  simp [dieOf, onDie, triGet_triMod_other _ _ h]

/-- Records reach the tail and nothing else. -/
theorem logAll_tail : ∀ (qs : List LogReq) (s : State), logAll qs s = { s with tail := (logAll qs s).tail }
  | [], _ => rfl
  | q :: qs, s => by
    have h := logAll_tail qs (logPut q s)
    show logAll qs (logPut q s) = _
    rw [h]
    rfl

/-- Running rule code on a region changes that die, and the tail by the records that the die has raised. -/
theorem takeDieLogs_eq (d : Die) (s : State) :
    takeDieLogs d s = { s with dies := triMod s.dies d (fun x => { x with logOut := [] }), tail := (takeDieLogs d s).tail } := by
  unfold takeDieLogs
  dsimp only
  split
  · rename_i h
    have h0 : (dieOf s d).logOut = [] := by simpa using h
    have : triMod s.dies d (fun x => { x with logOut := [] }) = s.dies := by
      unfold dieOf at h0
      cases d <;> simp only [triGet] at h0 <;> simp only [triMod] <;> rw [← h0]
    rw [this]
  · rw [logAll_tail]
    rfl

theorem takeDieLogs_tail (d : Die) (s : State) (h : (dieOf s d).logOut = []) : (takeDieLogs d s).tail = s.tail := by
  simp [takeDieLogs, h]

/-- A change of one region of a die, with its records taken, is a step of that region. -/
theorem regionStep_of {d : Die} {r : Nat} {s : State} {f : DieSt → DieSt} (h : SameButRegion r (dieOf s d) (f (dieOf s d))) :
    RegionStep d r s (takeDieLogs d (onDie d f s)) := by
  have e := takeDieLogs_eq d (onDie d f s)
  refine ⟨?_, fun hl => ?_, fun q hq => ?_, ?_⟩
  · rw [e]; rfl
  · refine (takeDieLogs_tail d _ ?_).trans rfl
    rw [dieOf_onDie_self, h.1]
    exact hl
  · rw [e]
    simp [dieOf, onDie, triGet_triMod_other _ _ hq]
  · rw [e]
    simp only [dieOf, onDie, triGet_triMod_self]
    unfold dieOf at h
    refine ⟨?_, fun q hq => ?_⟩
    · conv => lhs; rw [h.1]
    · exact h.2 q hq

theorem dieOf_takeDieLogs (d : Die) (s : State) : dieOf (takeDieLogs d s) d = { dieOf s d with logOut := [] } := by
  rw [takeDieLogs_eq]
  simp [dieOf]

end Sys2Proof.Machine
end

