-- ==== Sys2Proof/Laws/Transport.lean ====
section
/-!
SUPPORT. Laws of the transport of tokens (01): what a clock of it, and the clocks that carry one token, can change.
-/

namespace Sys2Proof.Machine

/-- Two dies differ at most in their tokens, credits and pointers. -/
def TransportOnly (x y : DieSt) : Prop :=
  y = { x with outboxes := y.outboxes, flights := y.flights, credits := y.credits, xbarPtr := y.xbarPtr, switchPtr := y.switchPtr,
               spinePtr := y.spinePtr }

theorem TransportOnly.refl (x : DieSt) : TransportOnly x x := rfl

theorem TransportOnly.trans {x y z : DieSt} (h : TransportOnly x y) (k : TransportOnly y z) : TransportOnly x z := by
  unfold TransportOnly at *
  rw [k, h]

theorem transportOnly_foldl {α : Type} (f : DieSt → α → DieSt) (h : ∀ y a, TransportOnly y (f y a)) :
    ∀ (l : List α) (x : DieSt), TransportOnly x (l.foldl f x)
  | [], x => TransportOnly.refl x
  | a :: l, x => (h x a).trans (transportOnly_foldl f h l (f x a))

theorem xbarClock_only (x y : DieSt) (cl : Nat) : TransportOnly y (xbarClock x y cl) := by
  refine TransportOnly.trans (transportOnly_foldl (xbarMove x cl) (fun z q => ?_) _ y) rfl
  unfold xbarMove
  split
  · exact TransportOnly.refl z
  · dsimp only
    split <;> rfl

theorem switchClock_only (x y : DieSt) (r : Nat) : TransportOnly y (switchClock x y r) := by
  unfold switchClock
  split
  · exact TransportOnly.refl y
  · refine TransportOnly.trans (transportOnly_foldl (switchMove x r) (fun z q => ?_) _ y) rfl
    unfold switchMove
    split
    · exact TransportOnly.refl z
    · dsimp only
      split <;> rfl

theorem spineClock_only (x y : DieSt) : TransportOnly y (spineClock x y) := by
  refine TransportOnly.trans (transportOnly_foldl (spineMove x) (fun z q => ?_) _ y) rfl
  unfold spineMove
  split
  · exact TransportOnly.refl z
  · dsimp only
    split <;> rfl

/-- A clock moves tokens and changes nothing else of a die. -/
theorem netClock_only (x : DieSt) : TransportOnly x (netClock x) :=
  ((spineClock_only x x).trans (transportOnly_foldl _ (switchClock_only x) _ _)).trans (transportOnly_foldl _ (xbarClock_only x) _ _)

/-- Carrying a token to its cell changes nothing else of a die. -/
theorem carry_only (t : Token) : ∀ (n : Nat) (x : DieSt), TransportOnly x (carry t n x)
  | 0, x => TransportOnly.refl x
  | n + 1, x => by
    unfold carry
    split
    · exact TransportOnly.refl x
    · exact (netClock_only x).trans (carry_only t n (netClock x))

/-- Neither do the clocks that end every stall. -/
theorem unstall_only : ∀ (n : Nat) (x : DieSt), TransportOnly x (unstall n x)
  | 0, x => TransportOnly.refl x
  | n + 1, x => by
    unfold unstall
    split
    · exact TransportOnly.refl x
    · exact (netClock_only x).trans (unstall_only n (netClock x))

/-- A write of a producer that waits rests in the spool or behind it, with every item that was there. -/
theorem spBack_held {α : Type} (depth wm : Nat) (a : α) (p : Spool α) :
    (spBack depth wm a p).items ++ (spBack depth wm a p).stalled ≠ [] ∧
      ∀ b, b = a ∨ b ∈ p.items ++ p.stalled → b ∈ (spBack depth wm a p).items ++ (spBack depth wm a p).stalled := by
  unfold spBack
  split
  · refine ⟨by simp, fun b hb => ?_⟩
    rcases hb with rfl | hb
    · simp
    · rw [← List.append_assoc]
      exact List.mem_append_left _ hb
  · refine ⟨by simp [spPut, spRise], fun b hb => ?_⟩
    simp only [spPut, spRise, List.mem_append, List.mem_singleton] at hb ⊢
    tauto

theorem foldl_spBack_held {α : Type} (depth wm : Nat) : ∀ (l : List α) (p : Spool α) (b : α), b ∈ l ∨ b ∈ p.items ++ p.stalled →
    b ∈ (l.foldl (fun p t => spBack depth wm t p) p).items ++ (l.foldl (fun p t => spBack depth wm t p) p).stalled
  | [], _, _, h => by simpa using h
  | a :: l, p, b, h => by
    refine foldl_spBack_held depth wm l (spBack depth wm a p) b ?_
    rcases h with h | h
    · rcases List.mem_cons.mp h with rfl | h
      · exact Or.inr ((spBack_held depth wm b p).2 b (Or.inl rfl))
      · exact Or.inl h
    · exact Or.inr ((spBack_held depth wm a p).2 b (Or.inr h))

/-- What a cell emits stands in its outbox, or waits for it (01 R30). -/
theorem mem_tokensOf_emitFrom (n : Nat) (ts : List Token) (x : DieSt) (t : Token) (h : t ∈ ts) : t ∈ tokensOf (emitFrom n ts x) := by
  have hne : ts.isEmpty = false := by cases ts <;> simp_all
  have hk := foldl_spBack_held outboxDepth outboxWm ts (outboxOf x n) t (Or.inl h)
  unfold emitFrom tokensOf
  simp only [hne, Bool.false_eq_true, if_false]
  refine List.mem_append_left _ (List.mem_flatMap.mpr ⟨(physCell x n, _), ?_, hk⟩)
  unfold putOutbox putA
  dsimp only
  have hz : ¬ ts.foldl (fun p t => spBack outboxDepth outboxWm t p) (outboxOf x n) = spEmpty tokenZero := by
    intro e
    rw [e] at hk
    simp [spEmpty] at hk
  simp [hz]

end Sys2Proof.Machine
end

