-- ==== Sys2Proof/Machine/Leds.lean ====
section
/-!
DEFINITION. The status LEDs (20 R513): what each shows, read from the state.
-/

namespace Sys2Proof.Machine

/-- What one LED shows (20 Table 20.8). -/
inductive Light where
  | dark
  | on
  | flash1
  | flash4
  deriving DecidableEq, Repr

/-- The six LEDs. -/
structure Leds where
  pwr : Light
  run : Light
  act : Light
  deg : Light
  mnt : Light
  flt : Light
  deriving DecidableEq, Repr

/-- Of the conditions of a row the one further to the left shows. -/
def lightOf (on flash1 flash4 : Bool) : Light := if on then .on else if flash1 then .flash1 else if flash4 then .flash4 else .dark

/-- FLT: SAFE after a trip, a refused start with its code, or reset held (13 R384, 14 R412). Log entry 45. -/
def ledFlt (s : State) : Light :=
  let safe := decide (s.mode = .safe)
  lightOf (safe && !s.heldForm && decide (s.refused = 0)) (safe && decide (s.refused ≠ 0)) (safe && s.heldForm)

/-- The module's class of a held reset is that of the longer-held source (13 R397): it is STUCK. -/
def heldStuck (a : AoSt) : Bool :=
  match a.button.held, a.rstIn.held with
  | true, true => if a.rstIn.since < a.button.since then a.rstIn.stuck else a.button.stuck
  | true, false => a.button.stuck
  | false, true => a.rstIn.stuck
  | false, false => false

/-- The LEDs. While FLT flashes the four in the middle show a code instead: bits 3 to 0 of the refusal, or the class of the reset. -/
def ledsOf (s : State) : Leds :=
  if s.mode = .dormant then { pwr := .dark, run := .dark, act := .dark, deg := .dark, mnt := .dark, flt := .dark }
  else
    let flt := ledFlt s
    let bit := fun (b : Bool) => if b then Light.on else Light.dark
    if flt = .flash1 then
      { pwr := .on, run := bit (bitOf s.refused 3), act := bit (bitOf s.refused 2), deg := bit (bitOf s.refused 1), mnt := bit (bitOf s.refused 0),
        flt := flt }
    else if flt = .flash4 then
      let b := bit (heldStuck s.ao)
      { pwr := .on, run := b, act := b, deg := b, mnt := b, flt := flt }
    else
      { pwr := .on,
        run := lightOf (decide (s.mode = .active) || decide (s.mode = .standby)) (decide (s.mode = .wake) || (decide (s.mode = .shutdown) && decide (s.shut ≠ .parked)))
          (decide (s.mode = .shutdown) && decide (s.shut = .parked)),
        act := lightOf (decide (s.mode = .active) && s.ao.claimEn) (decide (s.mode = .standby) && s.tether.inStep) (decide (s.mode = .standby)),
        deg := lightOf s.overlays.degraded (s.overlays.substitute || s.overlays.forcing) false,
        mnt := lightOf s.overlays.maintenance s.overlays.probation s.overlays.change,
        flt := flt }

end Sys2Proof.Machine
end

