-- ==== Sys2Proof/WellFormed.lean ====
section
/-!
DEFINITION. Well-formed commands: every number that names a part of the module lies in the range the spec gives it, and every list has
the length of what it stands for. An ill-formed command names nothing that exists: no environment of the module sends one.
-/

namespace Sys2Proof

/-- Regions of a die (01 R33), inputs (07), outputs (08), groups of 16 inputs and of 12 outputs, cells of a die (02 R69), links (09),
request slots, staging and recorder pages (17), power domains (13), entries of the route table (03 R132), counters of a region (19). -/
def okRegion (r : Nat) : Bool := r < 16
def okInput (n : Nat) : Bool := n < 192
def okPair (n : Nat) : Bool := n < 96
def okOutput (o : Nat) : Bool := o < 96
def okInGroup (g : Nat) : Bool := g < 12
def okOutGroup (g : Nat) : Bool := g < 8
def okCell (n : Nat) : Bool := n < 4096
def okLink (n : Nat) : Bool := n < 64
def okSlot (n : Nat) : Bool := n < 64
def okStaging (n : Nat) : Bool := n < 32
def okRecorder (n : Nat) : Bool := n < 16
def okDomain (n : Nat) : Bool := n < 12
def okEntry (n : Nat) : Bool := n < 1024
def okTimer (n : Nat) : Bool := n < 4
def okCounter (n : Nat) : Bool := n < 8

/-- What a start finds: three readings of S1 and 16 counts of each die clock (14 R408, 13 R405). -/
def okStart (si : Machine.StartIn) : Bool :=
  decide (si.contacts.length = 3) && decide (si.clocks.a.length = 16) && decide (si.clocks.b.length = 16) &&
    decide (si.clocks.c.length = 16)

/-- A cause line that does not read 0b10: a healthy line is no cause (06 R225). -/
def okCause (q : Machine.CauseIn) : Bool := decide (q.line ≠ 2)

/-- A command names only parts that exist. -/
def Instr.wf : Instr → Bool
  | .logicSupplyQualified si | .autoRestart si _ | .resetSourcesFreed si | .shdnAsserted si | .shdnReleased si => okStart si
  | .resetReleased _ si | .shutdownBistComplete _ _ si => okStart si
  | .railFault ci n => okCause ci && okDomain n
  | .noLoop ci o => okCause ci && okOutput o
  | .logicSupplyLost ci | .pumpFault ci _ | .aoWatchdog ci | .overtemp ci _ | .resetHeld _ ci => okCause ci
  | .waveCut _ loaded => loaded.all okEntry
  | .commit _ ci => ci.uncorrectable.all (fun p => okRegion p.1) && ci.corrected.all (fun p => okRegion p.1)
  | .commitBlockArrival _ r _ _ _ | .realClockHalt _ r | .revertOverrun _ r | .rulesOverrun _ r => okRegion r
  | .rejoinPassComplete _ r _ | .rejoinLimit _ r | .pmcCycLoRead _ r | .pairMismatch _ r _ _ | .checkerFault _ r _ => okRegion r
  | .pmcOverflow _ r n _ _ => okRegion r && okCounter n
  | .pendingExpiry _ r _ => okRegion r
  | .dropRequest _ o | .overload o _ | .lockClear o | .pumpEdgeTimeout o _ => okOutput o
  | .hsDarkStep o _ _ | .lsDarkStep o _ _ | .lightStep o _ _ => okOutput o
  | .inputWindowEnd g samples _ _ => okInGroup g && decide (samples.length = 16)
  | .readbackWindowEnd samples fs => decide (samples.length = 96) && decide (fs.length = 8)
  | .discrepancyLatched _ p | .discrepancyCleared _ p _ _ => okPair p
  | .inputFaultClear n _ _ => okInput n
  | .groupLow g _ | .lowCleared g _ | .groupRestored g _ | .supplySag g _ | .groupCut g _ => okOutGroup g
  | .linkLost n | .linkUp n | .netDown n => okLink n
  | .telegramAgeExpired _ n => okCell n
  | .timerExpired _ n k => okCell n && okTimer k
  | .terrAbsent _ i | .remoteTimeout _ i => okEntry i
  | .signatureCheckDone n | .requestCmdUndefined n | .clearRecorder n | .stageUpdateOpen n | .stageUpdateWrite n => okSlot n
  | .stageUpdateClose n | .confirmUpdate n => okSlot n
  | .stagingPageTimeout n => okStaging n
  | .recorderPageRequest n => okRecorder n
  | .ldw _ r _ _ _ _ | .ldh _ r _ _ _ _ | .ldb _ r _ _ _ _ => okRegion r
  | .stw _ r _ _ _ | .sth _ r _ _ _ | .stb _ r _ _ _ | .addi _ r _ _ _ | .beq _ r _ _ _ | .bne _ r _ _ _ => okRegion r
  | .andi _ r _ _ _ | .ori _ r _ _ _ | .xori _ r _ _ _ | .ceqi _ r _ _ _ | .cltui _ r _ _ _ => okRegion r
  | .lui _ r _ _ | .bz _ r _ _ | .bnz _ r _ _ | .jal _ r _ _ => okRegion r
  | .andr _ r _ _ _ | .orr _ r _ _ _ | .xorr _ r _ _ _ | .andn _ r _ _ _ | .add _ r _ _ _ | .sub _ r _ _ _ => okRegion r
  | .shl _ r _ _ _ | .shr _ r _ _ _ | .sar _ r _ _ _ | .ceq _ r _ _ _ | .clt _ r _ _ _ | .cltu _ r _ _ _ => okRegion r
  | .crd _ r _ _ _ | .cwr _ r _ _ _ _ | .cfc _ r _ _ _ _ | .ird _ r _ _ _ | .owr _ r _ _ _ | .tst _ r _ _ _ => okRegion r
  | .tsp _ r _ _ | .drop _ r _ _ | .jr _ r _ | .dacc _ r _ | .ewait _ r _ | .illegal _ r _ => okRegion r
  | .bistComplete _ _ _ | .channelDomainOff | .cycleBoundary _ | .cycleStartMessage _ _ | .wakeLate _ => true
  | .cycleStartAck _ _ _ | .sample | .rulesIn _ | .propagate _ | .waveEnd _ | .rulesOut _ | .deadline _ => true
  | .inputEvent _ | .sliceComplete _ _ _ | .loadComplete _ | .gondolaHalfStopped _ => true
  | .idleTelegram _ _ | .appTelegram _ _ | .cellsTelegram _ _ | .terrTelegram _ _ | .fieldTelegram _ _ | .heartTelegram _ _ => true
  | .timeTelegram _ _ | .diagTelegram _ _ | .pmcSetup _ _ | .transferBlock _ _ | .transferRoutes _ _ | .transferModule _ _ => true
  | .transferEnd _ _ | .transferKindInvalid _ _ | .telegramTypeUndefined _ _ | .frameNotAfno _ _ | .arpRequest _ _ => true
  | .arpReply _ _ | .arpRefresh _ | .portUp _ _ | .portDown _ | .frameTransmitted _ | .stalledWriteAccepted _ => true
  | .cycleApartRecord | .terrProbe _ | .terrCommit _ | .terrEntered _ | .terrRelease _ | .terrCancel _ | .terrProbed _ => true
  | .terrNack _ | .terrHeld _ | .terrReleased _ | .terrOpUndefined _ => true
  | .probe _ _ | .hold _ _ | .nack _ _ | .commitToken _ _ | .lockedAck _ _ | .flankSeek _ _ | .flankFound _ _ => true
  | .flankNone _ _ | .releaseToken _ _ | .cancel _ _ | .tokenTypeInvalid _ _ => true
  | .claimInStatic | .claimInLive _ | .claimOutFault | .negotiationTimeout | .takeover | .yieldRefused | .claimLine => true
  | .transferLimit | .transferRetry | .prefConflictRecord | .resetAsserted _ | .resetStuck _ => true
  | .coverOpen | .coverClosed | .sealRead _ | .carrierRemoved | .carrierInserted _ | .carrierWriteComplete _ | .forceExpiry _ => true
  | .write _ _ _ | .qwrite _ _ _ | .read _ _ _ | .qread _ _ _ | .status | .ident | .portCommandInvalid _ | .portTransferTimeout | .winIrqRead | .requestPoll => true
  | .routeSet _ | .routeCancel _ | .pointCall _ | .block _ | .unblock _ | .signalReplace _ | .emergRelease _ => true
  | .emergReleaseConfirm _ | .sectionRestore _ | .sectionRestoreConfirm _ | .forceSet _ | .forceClear _ | .onlineChange _ => true
  | .handover _ | .tailRecordWritten | .tailBlockErased | .suppressedSummary _ | .rtcWriteback => true
  | .spoolMark _ | .spoolRewind _ | .spoolRelease _ | .spoolAbort _ | .checkRestart _ _ _ _ | .checkData _ _ _ => true
  | .checkData8 _ _ _ | .checkExpect _ _ _ | .checkExpectHi _ _ _ | .registerWrite _ => true

end Sys2Proof
end

