-- ==== Sys2Proof/Tests/Slice0.lean ====
section
/-!
SUPPORT. The model's own tests: an ill-formed command for each check of well-formedness, and for each statement states and operands
that meet its hypotheses, clause by clause.
-/

namespace Sys2Proof.Tests

set_option Elab.async false

open Sys2Proof.Machine

/-! ## States the tests start from -/

/-- Cycles of 50 ms with budgets of 50,000 clocks for rules, no element. -/
def part : StationPart := { stationNone with given := { paramsOmitted with budgetIn := some 100, budgetOut := some 100 } }

/-- A claiming ACTIVE module in a cycle. -/
def running : State :=
  { State.reset with mode := .active, loaded := true, part := part, cycle := 7, boundaries := 7,
                     ao := { aoReset with claimEn := true, wdArmed := true, pumpRun := true } }

/-- Change die A of a state. -/
def onA (f : DieSt → DieSt) (s : State) : State := onDie .a f s

/-- Change region 15 of die A. -/
def on15 (f : RegionSt → RegionSt) (s : State) : State := onA (fun x => modReg x 15 f) s

/-- The code bytes of a bank of 256 bytes with one word at its last place but one. -/
def codeOf (w : Word) : List Host.Cell := memPutWord [(0x15, 0x01)] 0xF8 w

/-- A task of region 15 of die A at the last place of its code that another word follows. -/
def tasked : State :=
  on15 (fun g => { g with mem := [(0x15, 0x01)], pc := 0xF8, task := tkCYCIN, charge := 8000, g := [(1, 5), (2, 0x40000), (3, 0xF20), (4, 0x20)] })
    (onA (fun x => { x with phase := phRULESIN, runsPhases := true }) running)

/-- The same region in a REVERT run. -/
def reverting : State :=
  on15 (fun g => { g with revert := true, revertPhase := phRULESIN, rpc := 0xF8, rg := [(1, 5), (2, 0x6F400), (4, 0x20)], pend := 0x80 }) tasked

/-- A POINT, in the clear and in NORMAL, with two inputs from 4 on and two outputs from 6 on, its switched leg joined to cell 3873. -/
def point : CellRec :=
  { cellUnused with cls := 2, occ := occCLEAR, pos := posNORMAL, lock := lockFREE, aspect := aspDANGER, cmd := cmdNONE, bind := 0x0420C400,
                    port0 := 0x4F1F, port1 := 0x4F21, port2 := 0x4F22 }

/-- `tasked` with POINT 0xF20 in region 15. -/
def taskedCell : State := onA (fun x => { x with cells := [(0xF20, point)] }) tasked

/-- The word of a row of rule code stands at PC of region 15. -/
def atWord (i : Instr) (s : State) : State := on15 (fun g => { g with mem := codeOf ((insWord i).elim 0 (·.2.2)) }) s

/-- A row is fetched where its word stands. -/
theorem fetched_of {i : Instr} {s : State} {d : Die} {r : Nat} {w : Word} (h : insWord i = some (d, r, w))
    (k : insKey (fetchedWord (dieOf s d) r) = insKey w) : Fetched i s := by
  intro d' r' w' h'
  rw [h] at h'
  obtain ⟨rfl, rfl, rfl⟩ : d = d' ∧ r = r' ∧ w = w' := by simpa using h'
  exact k

/-! ## Well-formed commands -/

theorem test_wf_region : Instr.wf (.add .a 16 1 2 3) = false ∧ Instr.wf (.add .a 15 1 2 3) = true := by decide
theorem test_wf_input : Instr.wf (.inputFaultClear 192 true true) = false ∧ Instr.wf (.inputFaultClear 191 true true) = true := by decide
theorem test_wf_pair : Instr.wf (.discrepancyLatched .h 96) = false ∧ Instr.wf (.discrepancyLatched .h 95) = true := by decide
theorem test_wf_output : Instr.wf (.overload 96 25000) = false ∧ Instr.wf (.overload 95 25000) = true := by decide
theorem test_wf_input_group : Instr.wf (.inputWindowEnd 12 (List.replicate 16 sampleOff) true true) = false := by decide
theorem test_wf_input_samples : Instr.wf (.inputWindowEnd 11 (List.replicate 15 sampleOff) true true) = false ∧
    Instr.wf (.inputWindowEnd 11 (List.replicate 16 sampleOff) true true) = true := by decide
theorem test_wf_readback_samples : Instr.wf (.readbackWindowEnd [rbSampleOff] (List.replicate 8 (24000, 24000))) = false ∧
    Instr.wf (.readbackWindowEnd (List.replicate 96 rbSampleOff) (List.replicate 8 (24000, 24000))) = true ∧
    Instr.wf (.readbackWindowEnd (List.replicate 96 rbSampleOff) []) = false := by decide
/-- A group's supply of 24 V in both halves, for 600 ms. -/
def supply24 : SupplyIn := { mvH := 24000, mvL := 24000, usH := 600000, usL := 600000 }
theorem test_wf_output_group : Instr.wf (.groupLow 8 supply24) = false ∧ Instr.wf (.groupLow 7 supply24) = true := by decide
theorem test_wf_cell : Instr.wf (.telegramAgeExpired .a 4096) = false ∧ Instr.wf (.telegramAgeExpired .a 4095) = true := by decide
theorem test_wf_timer : Instr.wf (.timerExpired .a 0 4) = false ∧ Instr.wf (.timerExpired .a 0 3) = true := by decide
theorem test_wf_link : Instr.wf (.linkLost 64) = false ∧ Instr.wf (.linkLost 63) = true := by decide
theorem test_wf_slot : Instr.wf (.clearRecorder 64) = false ∧ Instr.wf (.clearRecorder 63) = true := by decide
theorem test_wf_staging : Instr.wf (.stagingPageTimeout 32) = false ∧ Instr.wf (.stagingPageTimeout 31) = true := by decide
theorem test_wf_recorder : Instr.wf (.recorderPageRequest 16) = false ∧ Instr.wf (.recorderPageRequest 15) = true := by decide
theorem test_wf_domain : Instr.wf (.railFault { line := 1, us := 0 } 12) = false ∧ Instr.wf (.railFault { line := 1, us := 0 } 11) = true := by decide
theorem test_wf_cause : Instr.wf (.aoWatchdog { line := 2, us := 0 }) = false ∧ Instr.wf (.aoWatchdog { line := 3, us := 0 }) = true := by decide
theorem test_wf_entry : Instr.wf (.terrAbsent .a 1024) = false ∧ Instr.wf (.waveCut .a [0, 1024]) = false := by decide
theorem test_wf_counter : Instr.wf (.pmcOverflow .a 0 8 none false) = false ∧ Instr.wf (.pmcOverflow .a 0 7 none false) = true := by decide
theorem test_wf_commit : Instr.wf (.commit .a { room := true, window := 0, uncorrectable := [(16, 0)], corrected := [] }) = false := by decide

/-- What a start finds when all is well but the switches, which read no whole word. -/
def startIn : StartIn :=
  { blockOk := true, contacts := List.replicate 3 { a := 0, b := 0 }, straps := { a := 1, b := 2, c := 3 },
    tests := { bridleNets := true, nets := true, ports := true, pins := true, ripcord := true },
    clocks := triAll (List.replicate 16 1), timeBaseOk := true, skipped := 0, profilesOk := true }
theorem test_wf_start : Instr.wf (.autoRestart { startIn with contacts := [] } 20) = false ∧ Instr.wf (.autoRestart startIn 20) = true := by decide
theorem test_wf_start_clocks : Instr.wf (.autoRestart { startIn with clocks := triAll [] } 20) = false := by decide

/-! ## What the hypotheses of the statements admit: rule code -/

theorem witness_alu : Fetched (.addi .a 15 2 1 0x3FFFF) (atWord (.addi .a 15 2 1 0x3FFFF) tasked) ∧
    aluResult (atWord (.addi .a 15 2 1 0x3FFFF) tasked) (.addi .a 15 2 1 0x3FFFF) = some (.a, 15, 2, 4) ∧
    FallsThrough (atWord (.addi .a 15 2 1 0x3FFFF) tasked) .a 15 1 :=
  ⟨fetched_of rfl (by decide), by decide, by unfold FallsThrough codePlace; decide⟩
/-- A BNZ that is taken within the code, and one that leaves it. -/
def bnzBack : Instr := .bnz .a 15 1 (-54)
def bnzOut : Instr := .bnz .a 15 1 2
theorem witness_branch_taken : Fetched bnzBack (atWord bnzBack tasked) ∧ branchOf (atWord bnzBack tasked) bnzBack = some (.a, 15, true, -54) ∧
    insGoes (atWord bnzBack tasked) .a 15 3 = true ∧
    codePlace (atWord bnzBack tasked) .a 15 ((curPc (dieOf (atWord bnzBack tasked) .a) 15 : Int) + 4 * (-54 : BitVec 18).toInt) :=
  ⟨fetched_of rfl (by decide), by decide, by decide, by unfold codePlace; decide⟩
theorem witness_branch_out : Fetched bnzOut (atWord bnzOut tasked) ∧ branchOf (atWord bnzOut tasked) bnzOut = some (.a, 15, true, 2) ∧
    ¬ codePlace (atWord bnzOut tasked) .a 15 ((curPc (dieOf (atWord bnzOut tasked) .a) 15 : Int) + 4 * (2 : BitVec 18).toInt) :=
  ⟨fetched_of rfl (by decide), by decide, by unfold codePlace; decide⟩
/-- The task at the last word of its code, before a branch that is not taken, or before an ADDI. -/
def atEnd (i : Instr) : State := on15 (fun g => { g with pc := 0xFC, mem := memPutWord [(0x15, 0x01)] 0xFC ((insWord i).elim 0 (·.2.2)) }) tasked
theorem witness_branch_passed : Fetched (.bz .a 15 1 2) (atWord (.bz .a 15 1 2) tasked) ∧
    branchOf (atWord (.bz .a 15 1 2) tasked) (.bz .a 15 1 2) = some (.a, 15, false, 2) ∧
    codePlace (atWord (.bz .a 15 1 2) tasked) .a 15 (curPc (dieOf (atWord (.bz .a 15 1 2) tasked) .a) 15 + 4) :=
  ⟨fetched_of rfl (by decide), by decide, by unfold codePlace; decide⟩
theorem witness_branch_falls_off : Fetched (.bz .a 15 1 2) (atEnd (.bz .a 15 1 2)) ∧ insGoes (atEnd (.bz .a 15 1 2)) .a 15 3 = true ∧
    ¬ codePlace (atEnd (.bz .a 15 1 2)) .a 15 (curPc (dieOf (atEnd (.bz .a 15 1 2)) .a) 15 + 4) :=
  ⟨fetched_of rfl (by decide), by decide, by unfold codePlace; decide⟩
theorem witness_alu_falls_off : Fetched (.lui .a 15 1 7) (atEnd (.lui .a 15 1 7)) ∧ aluResult (atEnd (.lui .a 15 1 7)) (.lui .a 15 1 7) = some (.a, 15, 1, 0x70000) ∧
    insGoes (atEnd (.lui .a 15 1 7)) .a 15 1 = true ∧
    ¬ codePlace (atEnd (.lui .a 15 1 7)) .a 15 (curPc (dieOf (atEnd (.lui .a 15 1 7)) .a) 15 + 4) :=
  ⟨fetched_of rfl (by decide), by decide, by decide, by unfold codePlace; decide⟩
theorem witness_jal : Fetched (.jal .a 15 1 1) (atWord (.jal .a 15 1 1) tasked) ∧ insGoes (atWord (.jal .a 15 1 1) tasked) .a 15 3 = true ∧
    codePlace (atWord (.jal .a 15 1 1) tasked) .a 15 ((curPc (dieOf (atWord (.jal .a 15 1 1) tasked) .a) 15 : Int) + 4 * (1 : BitVec 18).toInt) :=
  ⟨fetched_of rfl (by decide), by decide, by unfold codePlace; decide⟩
theorem witness_jr : Fetched (.jr .a 15 4) (atWord (.jr .a 15 4) tasked) ∧
    codePlace (atWord (.jr .a 15 4) tasked) .a 15 (gReg (atWord (.jr .a 15 4) tasked) .a 15 4).toNat ∧
    (gReg (atWord (.jr .a 15 4) tasked) .a 15 4).toNat % 4 = 0 :=
  ⟨fetched_of rfl (by decide), by unfold codePlace; decide, by decide⟩
/-- A load of region memory, with what SECDED makes of it. -/
def load (e : Ecc) : Instr := .ldw .a 15 1 2 0 e
theorem witness_load (e : Ecc) : Fetched (load e) (atWord (load e) tasked) ∧ loadOf (atWord (load e) tasked) (load e) = some (.a, 15, 1, 0x40000, 4, e) ∧
    loadTrap (dieOf (atWord (load e) tasked) .a) 15 0x40000 4 = none ∧ loadArea (dieOf (atWord (load e) tasked) .a) 15 0x40000 = .mem ∧
    FallsThrough (atWord (load e) tasked) .a 15 12 := by
  cases e <;> exact ⟨fetched_of rfl (by decide), by decide, by decide, by decide, by unfold FallsThrough codePlace; decide⟩
/-- A store into region memory, and one into RR.TRAP. -/
def store : Instr := .stw .a 15 1 2 0
def storeRR : Instr := .stw .a 15 1 5 4
def atRR : State := on15 (fun g => { g with g := [(1, 5), (5, 0x200000)] }) (atWord storeRR tasked)
theorem witness_store : Fetched store (atWord store tasked) ∧ storeOf (atWord store tasked) store = some (.a, 15, 0x40000, 4, 5) ∧
    storeTrap (dieOf (atWord store tasked) .a) 15 0x40000 4 = none ∧ storeArea (dieOf (atWord store tasked) .a) 15 0x40000 = .mem :=
  ⟨fetched_of rfl (by decide), by decide, by decide, by decide⟩
theorem witness_store_trap_register : Fetched storeRR atRR ∧ storeOf atRR storeRR = some (.a, 15, 0x200004, 4, 5) ∧
    storeTrap (dieOf atRR .a) 15 0x200004 4 = none ∧ storeArea (dieOf atRR .a) 15 0x200004 = .rr :=
  ⟨fetched_of rfl (by decide), by decide, by decide, by decide⟩
/-- A load at an address that is not aligned, DACC in a REVERT run, and a word of no operation. -/
def badLoad : Instr := .ldw .a 15 1 2 2 .ok
def badWord : Instr := .illegal .a 15 0
theorem witness_trap : Fetched badLoad (atWord badLoad tasked) ∧ trapOf (atWord badLoad tasked) badLoad = some (.a, 15, 12, cALIGN) ∧
    insGoes (atWord badLoad tasked) .a 15 12 = true :=
  ⟨fetched_of rfl (by decide), by decide, by decide⟩
theorem witness_trap_revert : Fetched (.dacc .a 15 1) (atWord (.dacc .a 15 1) reverting) ∧
    trapOf (atWord (.dacc .a 15 1) reverting) (.dacc .a 15 1) = some (.a, 15, 6, cREVERT) ∧ insGoes (atWord (.dacc .a 15 1) reverting) .a 15 6 = true :=
  ⟨fetched_of rfl (by decide), by decide, by decide⟩
theorem witness_trap_illegal : Fetched badWord (atWord badWord tasked) ∧ trapOf (atWord badWord tasked) badWord = some (.a, 15, 0, cILLEGAL) :=
  ⟨fetched_of rfl (by decide), by decide⟩
/-- A row of the POINT's cell at PC of region 15. -/
def atCell (i : Instr) : State := atWord i taskedCell
theorem witness_cell_read : Fetched (.crd .a 15 1 3 0x03) (atCell (.crd .a 15 1 3 0x03)) ∧ ReadsCell (atCell (.crd .a 15 1 3 0x03)) .a 15 3 0xF20 point ∧
    FallsThrough (atCell (.crd .a 15 1 3 0x03)) .a 15 (if regionOf 0xF20 = 15 then 14 else 48) :=
  ⟨fetched_of rfl (by decide), by unfold ReadsCell CheckedCell; decide, by unfold FallsThrough codePlace; decide⟩
/-- The shadow of the POINT, read in PROPAGATE. -/
def readShadow : State :=
  on15 (fun g => { g with rg := [(3, 0xF20)] })
    (onA (fun x => { x with phase := phPROPAGATE, wave := .load, shadow := [(0xF20, point)] }) (atWord (.crd .a 15 1 3 0x03) reverting))
theorem witness_shadow_read : Fetched (.crd .a 15 1 3 0x03) readShadow ∧ ReadsCell readShadow .a 15 3 0xF20 point ∧ inPropagate (dieOf readShadow .a) = true :=
  ⟨fetched_of rfl (by decide), by unfold ReadsCell CheckedCell; decide, by decide⟩
theorem witness_cell_write : Fetched (.cwr .a 15 1 3 2 0x03) (atCell (.cwr .a 15 1 3 2 0x03)) ∧ NamesCell (atCell (.cwr .a 15 1 3 2 0x03)) .a 15 3 0xF20 ∧
    WritesCell (atCell (.cwr .a 15 1 3 2 0x03)) .a 15 0xF20 ∧ FallsThrough (atCell (.cwr .a 15 1 3 2 0x03)) .a 15 18 ∧ writtenField 0x03 .occ ∧
    (∀ p, (readCoded p point).2 = point) :=
  ⟨fetched_of rfl (by decide), by unfold NamesCell CheckedCell; decide, by unfold WritesCell; decide, by unfold FallsThrough codePlace; decide,
   .inl ⟨rfl, rfl⟩, by intro p; cases p <;> decide⟩
theorem witness_cell_writes : Fetched (.cwr .a 15 1 3 2 0x17) (atCell (.cwr .a 15 1 3 2 0x17)) ∧ Fetched (.cfc .a 15 1 3 2 0x08) (atCell (.cfc .a 15 1 3 2 0x08)) :=
  ⟨fetched_of rfl (by decide), fetched_of rfl (by decide)⟩
theorem witness_cell_timers : Fetched (.tst .a 15 3 1 3) (atCell (.tst .a 15 3 1 3)) ∧ Fetched (.tsp .a 15 3 3) (atCell (.tsp .a 15 3 3)) ∧
    timerRo point 3 = false ∧ (gReg (atCell (.tst .a 15 3 1 3)) .a 15 1).toNat ≤ 16777215 :=
  ⟨fetched_of rfl (by decide), fetched_of rfl (by decide), by decide, by decide⟩
theorem witness_input : Fetched (.ird .a 15 1 3 1) (atCell (.ird .a 15 1 3 1)) ∧ NamesCell (atCell (.ird .a 15 1 3 1)) .a 15 3 0xF20 ∧
    1 < inCount point ∧ FallsThrough (atCell (.ird .a 15 1 3 1)) .a 15 14 :=
  ⟨fetched_of rfl (by decide), by unfold NamesCell CheckedCell; decide, by decide, by unfold FallsThrough codePlace; decide⟩
theorem witness_share : Fetched (.owr .a 15 3 1 1) (atCell (.owr .a 15 3 1 1)) ∧ NamesCell (atCell (.owr .a 15 3 1 1)) .a 15 3 0xF20 ∧ regionOf 0xF20 = 15 ∧
    inRevert (dieOf (atCell (.owr .a 15 3 1 1)) .a) 15 = false ∧ 1 < outCount point ∧ bindRemote point = false ∧
    FallsThrough (atCell (.owr .a 15 3 1 1)) .a 15 14 :=
  ⟨fetched_of rfl (by decide), by unfold NamesCell CheckedCell; decide, by decide, by decide, by decide, by decide, by unfold FallsThrough codePlace; decide⟩
theorem witness_digest : Fetched (.dacc .a 15 1) (atCell (.dacc .a 15 1)) ∧ FallsThrough (atCell (.dacc .a 15 1)) .a 15 6 :=
  ⟨fetched_of rfl (by decide), by unfold FallsThrough codePlace; decide⟩

/-- `tasked` before EWAIT: in CYCLIC_IN, in INIT, in ERROR with sources left, and in a REVERT run with sources pending. -/
def ewait : Instr := .ewait .a 15 1
def waitCyclic : State := atWord ewait tasked
def waitInit : State := on15 (fun g => { g with task := tkINIT }) waitCyclic
def waitError (l : List Nat) : State := on15 (fun g => { g with task := tkERROR, errLeft := l }) waitCyclic
def waitRevert (p : BitVec 192) : State := on15 (fun g => { g with pend := p }) (atWord ewait reverting)
theorem witness_ewait_cyclic : Fetched ewait waitCyclic ∧ insGoes waitCyclic .a 15 10 = true ∧ (reg (dieOf waitCyclic .a) 15).revert = false ∧
    (reg (dieOf waitCyclic .a) 15).task = tkCYCIN := ⟨fetched_of rfl (by decide), by decide, by decide, by decide⟩
theorem witness_ewait_init : Fetched ewait waitInit ∧ insGoes waitInit .a 15 10 = true ∧ (reg (dieOf waitInit .a) 15).revert = false ∧
    (reg (dieOf waitInit .a) 15).task = tkINIT := ⟨fetched_of rfl (by decide), by decide, by decide, by decide⟩
theorem witness_ewait_error : Fetched ewait (waitError [0xC3]) ∧ insGoes (waitError [0xC3]) .a 15 10 = true ∧
    (reg (dieOf (waitError [0xC3]) .a) 15).task = tkERROR ∧ (reg (dieOf (waitError [0xC3]) .a) 15).errLeft = 0xC3 :: [] ∧
    codePlace (waitError [0xC3]) .a 15 (curPc (dieOf (waitError [0xC3]) .a) 15 + 4) :=
  ⟨fetched_of rfl (by decide), by decide, by decide, by decide, by unfold codePlace; decide⟩
theorem witness_ewait_error_ends : Fetched ewait (waitError []) ∧ insGoes (waitError []) .a 15 10 = true ∧
    (reg (dieOf (waitError []) .a) 15).errLeft = [] := ⟨fetched_of rfl (by decide), by decide, by decide⟩
theorem witness_ewait_revert : Fetched ewait (waitRevert 0x80) ∧ insGoes (waitRevert 0x80) .a 15 10 = true ∧
    (reg (dieOf (waitRevert 0x80) .a) 15).revert = true ∧ bitOf (reg (dieOf (waitRevert 0x80) .a) 15).pend 7 = true ∧
    (∀ m, m < 7 → bitOf (reg (dieOf (waitRevert 0x80) .a) 15).pend m = false) ∧
    codePlace (waitRevert 0x80) .a 15 (curPc (dieOf (waitRevert 0x80) .a) 15 + 4) :=
  ⟨fetched_of rfl (by decide), by decide, by decide, by decide, by decide, by unfold codePlace; decide⟩
theorem witness_ewait_revert_ends : Fetched ewait (waitRevert 0) ∧ insGoes (waitRevert 0) .a 15 10 = true ∧
    (reg (dieOf (waitRevert 0) .a) 15).revert = true ∧ (reg (dieOf (waitRevert 0) .a) 15).pend = 0 :=
  ⟨fetched_of rfl (by decide), by decide, by decide, by decide⟩

/-- Region 15 owns the outputs from 0 to 7; another die has asked to drop output 7. -/
def owning : State :=
  { taskedCell with vote := { taskedCell.vote with own := taskedCell.vote.own.setIfInBounds 15 0xFF, dropReq := [(7, 2)] } }
def dropping : State := atWord (.drop .a 15 3 1) owning
theorem witness_drop_unowned : running.ao.tripLatch = false ∧ outOwner running.vote 6 = none := by decide
theorem witness_drop : dropping.ao.tripLatch = false ∧ outOwner dropping.vote 7 = some 15 ∧ isAvail dropping.vote .a 15 = true ∧
    (availDies dropping.vote 15).length = 3 ∧ getA 0 dropping.vote.dropReq 7 / 2 ^ dieIndex .b % 2 = 1 := by decide
theorem witness_drop_row : Fetched (.drop .a 15 3 1) dropping ∧ NamesCell dropping .a 15 3 0xF20 ∧ 1 < outCount point ∧ bindRemote point = false ∧
    7 = outBase point + 1 ∧ FallsThrough dropping .a 15 24 :=
  ⟨fetched_of rfl (by decide), by unfold NamesCell CheckedCell; decide, by decide, by decide, by decide, by unfold FallsThrough codePlace; decide⟩
/-- Die A is not available for region 15, and the other dies are. -/
def dropBarred : State := { owning with vote := modCopy .a 15 (fun q => { q with excluded := some .differs }) owning.vote }
theorem witness_drop_barred : outOwner dropBarred.vote 7 = some 15 ∧ 2 ≤ (availDies dropBarred.vote 15).length ∧
    isAvail dropBarred.vote .a 15 = false := by decide

/-- The task with its budget used up, before an instruction of charge 1; the REVERT run likewise. -/
def spent (c : Nat) : State := on15 (fun g => { g with charge := c }) (atWord (.lui .a 15 1 0) tasked)
def revertSpent : State := on15 (fun g => { g with rcharge := 25000 }) (atWord (.lui .a 15 1 0) reverting)
theorem witness_overrun : Fetched (.lui .a 15 1 0) (spent 50000) ∧ canRun (dieOf (spent 50000) .a) 15 = true ∧
    chargeOf (spent 50000) (.lui .a 15 1 0) = some (.a, 15, 1) ∧
    curBudget (ctxOf (spent 50000)) (dieOf (spent 50000) .a) 15 < curCharge (dieOf (spent 50000) .a) 15 + 1 ∧
    overruns (ctxOf (spent 50000)) (dieOf (spent 50000) .a) 15 = true ∧ inRevert (dieOf (spent 50000) .a) 15 = false :=
  ⟨fetched_of rfl (by decide), by decide, by decide, by decide, by decide, by decide⟩
theorem witness_overrun_revert : canRun (dieOf revertSpent .a) 15 = true ∧ overruns (ctxOf revertSpent) (dieOf revertSpent .a) 15 = true ∧
    inRevert (dieOf revertSpent .a) 15 = true := by decide
theorem witness_overrun_not : canRun (dieOf (spent 0) .a) 15 = true ∧ overruns (ctxOf (spent 0)) (dieOf (spent 0) .a) 15 = false := by decide

/-! ## Phases -/

/-- Die A in a phase. -/
def inPhase (p : BitVec 4) : State := onA (fun x => { x with phase := p, runsPhases := true, fastClock := true, cycleNo := 7 }) running

theorem witness_pair_fault : (reg (dieOf (inPhase phRULESIN) .a) 15).halted = false ∧ (dieOf (inPhase phRULESIN) .a).fastClock = true ∧
    (dieOf running .a).fastClock = false ∧ isExcluded (copyOf (inPhase phRULESIN).vote .a 15) = false ∧
    (reg (dieOf (inPhase phRULESIN) .a) 15).revert = false ∧
    (reg (dieOf (inPhase phRULESIN) .a) 15).charge < curBudget (ctxOf (inPhase phRULESIN)) (dieOf (inPhase phRULESIN) .a) 15 := by decide

theorem witness_cycle_start : cyclesRun running = true ∧ cyclesRun State.reset = false ∧ (dieOf running .a).phase ≠ phWAKE ∧
    (dieOf (inPhase phWAKE) .a).phase = phWAKE ∧ (dieOf (inPhase phWAKE) .a).sliceRun = none := by decide
theorem witness_phases : cyclesRun (inPhase phWAKE) = true ∧ (inPhase phSAMPLE).change.carryAt ≠ some (dieOf (inPhase phSAMPLE) .a).cycleNo ∧
    (dieOf (inPhase phRULESIN) .a).todo = [] ∧ regionsDone (dieOf (inPhase phRULESIN) .a) = true := by decide

/-! ## Waves and tokens -/

/-- Die A in PROPAGATE, in a wave; its route 5 probes. -/
def inWave (w : Wave) : State :=
  onA (fun x => { x with wave := w, cells := [(0xF20, point)],
                         routes := [(3, { routeIdle with state := rsPROBING, routeId := 5, key := 0x40 })] }) (inPhase phPROPAGATE)
/-- PROPAGATE after EVALUATE. -/
def waved : State := onA (fun x => { x with propDone := true }) (inWave .none)
theorem witness_rules_out : (dieOf waved .a).phase = phPROPAGATE ∧ (dieOf waved .a).propDone = true := by decide
theorem witness_waves : (dieOf (inWave .sweep) .a).phase = phPROPAGATE ∧ (dieOf (inWave .sweep) .a).wave = .sweep ∧
    isQuiet (dieOf (inWave .sweep) .a) = true := by decide

/-- A token of route 5 for the POINT, with nothing in its reason. -/
def token (typ : BitVec 4) (hop : BitVec 6) : Token :=
  { typ := typ, route := 5, dest := 0xF20, dport := 0, kind := kPATH, hop := hop, pos := 1, alt := 0, reason := 0, origin := 0xF1F }
/-- A flight of it from its engine. -/
def flight (t : Token) : Flight := { tok := t, place := .engine 15 }
/-- The step record of route 5 at the POINT: to its NORMAL leg. -/
def stepNormal : StepRec :=
  { foreign := false, route := 5, cell := 0xF20, kind := 0, alt := 0, hop := 1, pos := 1, noflank := false, exit := false, side := false,
    next := some (0xF21, 0, 0), nextTrack := some (0xF21, 0) }
/-- The token in flight in a wave, with the POINT changed and one step record. -/
def flying (w : Wave) (t : Token) (st : StepRec) (f : CellRec → CellRec) : State :=
  onA (fun x => { x with flights := [flight t], steps := [st], cells := [(0xF20, f point)] }) (inWave w)
/-- The die as an addressed token meets it. -/
def met (s : State) (t : Token) : DieSt := broughtBy t (dieOf s .a)
theorem arrives {s : State} {t : Token} (h : (dieOf s .a).phase = phPROPAGATE) (b : isBroadcast t = false)
    (k : hasArrived (carry t (netFuel (dieOf s .a)) (dieOf s .a)) t = true) : Arrives s .a t (met s t) := ⟨h, b, k, rfl⟩

/-- A PROBE of route 5 at the POINT, with the POINT changed and with its step record. -/
def probing (st : StepRec) (f : CellRec → CellRec) : State := flying .request (token 1 1) st f
/-- The same die with the record read, as the PROBE meets it. -/
def probed (st : StepRec) (f : CellRec → CellRec) : DieSt := modCell (met (probing st f) (token 1 1)) 0xF20 fabricRead
theorem witness_probe : Arrives (probing stepNormal id) .a (token 1 1) (met (probing stepNormal id) (token 1 1)) ∧
    SoundCell (probing stepNormal id) .a 0xF20 ∧ cellStalled (met (probing stepNormal id) (token 1 1)) 0xF20 = false :=
  ⟨arrives rfl rfl (by decide +kernel), by unfold SoundCell; decide +kernel, by decide +kernel⟩
theorem witness_probe_marks : findStep (probed stepNormal id) false 5 0xF20 0 = some stepNormal ∧ topologyOk point stepNormal 0 = true ∧
    isCls .boundary point = false ∧ stepNormal.exit = false ∧ stepNormal.kind = 0 ∧ stepNormal.noflank = false ∧
    probeRefusal (ctxOf (probing stepNormal id)) (probed stepNormal id) 0xF20 (token 1 1) stepNormal point = none ∧
    markOnly (probed stepNormal id) (token 1 1) stepNormal point = false ∧ 2 ∈ unusedLegs point 1 0 := by decide +kernel
/-- The POINT blocked, a step record that leaves it for another cell than its leg's, and a BOUNDARY cell in its place. -/
def blockedCell (c : CellRec) : CellRec := { c with lock := lockBLOCKED }
def stepAway : StepRec := { stepNormal with next := some (0xF23, 0, 0), nextTrack := some (0xF23, 0) }
def asBoundary (c : CellRec) : CellRec := { c with cls := 10, ext := 1, bind := 0 }
/-- The walk ends at the POINT; it is the EXIT of its path. -/
def stepLast : StepRec := { stepNormal with next := none, nextTrack := none }
def stepExit : StepRec := { stepLast with exit := true }
theorem witness_probe_refused :
    probeRefusal (ctxOf (probing stepNormal blockedCell)) (probed stepNormal blockedCell) 0xF20 (token 1 1) stepNormal (blockedCell point) = some rnBLOCKED ∧
    topologyOk point stepAway 0 = false ∧ findStep (probed { stepNormal with route := 6 } id) false 5 0xF20 0 = none := by decide +kernel
theorem witness_probe_ends : topologyOk point stepLast 0 = true ∧ stepLast.next = none ∧ topologyOk point stepExit 0 = true ∧ stepExit.exit = true ∧
    isCls .lineBlock point = false ∧ isCls .boundary (asBoundary point) = true ∧ topologyOk (asBoundary point) stepLast 0 = true := by decide +kernel
/-- The POINT's outbox is full. -/
def stalledAt : State :=
  onA (fun x => putOutbox 0xF20 { spEmpty tokenZero with items := List.replicate 4 (token 3 1) }
    { x with flights := [{ tok := token 1 1, place := .cell 0xF20 }] }) (probing stepNormal id)
theorem witness_probe_stalled : Arrives stalledAt .a (token 1 1) (met stalledAt (token 1 1)) ∧ SoundCell stalledAt .a 0xF20 ∧
    cellStalled (met stalledAt (token 1 1)) 0xF20 = true :=
  ⟨arrives rfl rfl (by decide +kernel), by unfold SoundCell; decide +kernel, by decide +kernel⟩

/-- A flank search at the POINT: at its start, at its toe and at a leg. -/
def seekStart : Token := { token 6 0 with kind := kFLANK }
def seekToe : Token := { token 6 1 with kind := kFLANK }
def seekLeg : Token := { token 6 1 with kind := kFLANK, dport := 2 }
/-- A search in a wave, and the die that it meets. -/
def seeking (w : Wave) (t : Token) (f : CellRec → CellRec) : State := flying w t stepNormal f
def sought (w : Wave) (t : Token) (f : CellRec → CellRec) : DieSt := modCell (met (seeking w t f) t) 0xF20 fabricRead
/-- What it finds. -/
def found (w : Wave) (t : Token) (f : CellRec → CellRec) : SeekRes :=
  seekRes (sought w t f) 0xF20 (f point) t (stopEntry (ctxOf (seeking w t f)) (sought w t f) (isForeign t) 5 0xF20 t.dport.toNat)
/-- The PATH mark of route 5 at the toe of the POINT, and the POINT locked by route 5. -/
def marked (c : CellRec) : CellRec := { c with mark0 := mkMark kPATH 5 }
def lockedIn (v : Half) (c : CellRec) : CellRec := { c with lock := v, owned := true, ownerRoute := 5, mark1 := mkMark kFLANK 9 }
/-- A signal that protects, and one that another route's mark stands on. -/
def asSignal (c : CellRec) : CellRec := { c with cls := 5, pos := 0, bind := 0 }
def asLocked (c : CellRec) : CellRec := { asSignal c with lock := lockROUTE, owned := true, ownerRoute := 9 }
theorem witness_seek : Arrives (seeking .request seekToe id) .a seekToe (met (seeking .request seekToe id) seekToe) ∧
    SoundCell (seeking .request seekToe id) .a 0xF20 ∧ cellStalled (met (seeking .request seekToe id) seekToe) 0xF20 = false ∧
    found .request seekToe id = .onward [(1, 1), (2, 1)] ∧ adjLink (portOf point 1) = 1 :=
  ⟨arrives rfl rfl (by decide +kernel), by unfold SoundCell; decide +kernel, by decide +kernel, rfl, by decide +kernel⟩
theorem witness_seek_ends : found .request seekToe marked = .found ∧ found .request { seekToe with hop := 17 } id = .fail rnFLANKLIMIT ∧
    seekStart.hop = 0 ∧ seekToe.hop ≠ 0 := ⟨rfl, rfl, by decide, by decide⟩
theorem witness_seek_marks : Arrives (seeking .request seekLeg id) .a seekLeg (met (seeking .request seekLeg id) seekLeg) ∧
    (met (seeking .request seekLeg id) seekLeg).wave ≠ .refresh ∧ found .request seekLeg id = .mark false 1 ∧ point.lock = lockFREE ∧
    barred (ctxOf (seeking .request seekLeg id)) (sought .request seekLeg id) false 5 point = false :=
  ⟨arrives rfl rfl (by decide +kernel), by decide +kernel, rfl, by decide +kernel, by decide +kernel⟩
theorem witness_seek_refreshes : Arrives (seeking .refresh seekLeg id) .a seekLeg (met (seeking .refresh seekLeg id) seekLeg) ∧
    (met (seeking .refresh seekLeg id) seekLeg).wave = .refresh ∧ found .refresh seekLeg id = .mark false 1 :=
  ⟨arrives rfl rfl (by decide +kernel), by decide +kernel, rfl⟩
/-- The POINT under another route's FLANK lock, and with the mark of an older route. -/
def flankOf9 (c : CellRec) : CellRec := { c with lock := lockFLANK, owned := true, ownerRoute := 9 }
def marked9 (c : CellRec) : CellRec := { c with mark1 := mkMark kPATH 9 }
/-- Route 9 is live and older than route 5. -/
def olderRoute (s : State) : State :=
  onA (fun x => { x with routes := x.routes ++ [(4, { routeIdle with state := rsPROBED, routeId := 9, key := 0x10 })] }) s
theorem witness_seek_marks_not : found .request seekLeg flankOf9 = .mark false 1 ∧ (flankOf9 point).lock ≠ lockFREE ∧
    found .refresh seekLeg flankOf9 = .mark false 1 ∧
    barred (ctxOf (olderRoute (seeking .request seekLeg marked9)))
      (modCell (met (olderRoute (seeking .request seekLeg marked9)) seekLeg) 0xF20 fabricRead) false 5 (marked9 point) = true :=
  ⟨rfl, by decide +kernel, rfl, by decide +kernel⟩

/-- Broadcast and addressed COMMIT, RELEASE and CANCEL of route 5. -/
def commitAll : Token := token 4 hopAll
def releaseAll : Token := token 9 hopAll
def releaseOverlap : Token := { token 9 1 with kind := kOVERLAP }
def cancelAll : Token := token 0xA 1
def cancelOne : Token := { token 0xA 1 with kind := kFOREIGN }
/-- The die as a broadcast meets it. -/
def heard (w : Wave) (t : Token) (f : CellRec → CellRec) : DieSt := { dieOf (flying w t stepNormal f) .a with flights := [] }
theorem broadcasts (w : Wave) (t : Token) (f : CellRec → CellRec) (b : isBroadcast t = true) : Broadcasts (flying w t stepNormal f) .a t (heard w t f) := by
  refine ⟨rfl, b, [], ?_, rfl⟩
  show takeBroadcast t [flight t] = some []
  simp [takeBroadcast, flight]
theorem witness_commit_token : Broadcasts (flying .commit commitAll stepNormal marked) .a commitAll (heard .commit commitAll marked) ∧
    SoundCell (flying .commit commitAll stepNormal marked) .a 0xF20 ∧ (marked point).owned = false ∧ coded .lock (marked point) = lockFREE ∧
    markOfRoute false 5 (markOf (marked point) 0) = true ∧ markKind (markOf (marked point) 0) = kPATH ∧
    findStep (dieOf (flying .commit commitAll stepNormal marked) .a) false 5 0xF20 0 = some stepNormal :=
  ⟨broadcasts _ _ _ rfl, by unfold SoundCell; decide +kernel, by decide, by decide, by decide, by decide, by decide +kernel⟩
/-- A level crossing in the POINT's place. -/
def asCrossing (c : CellRec) : CellRec := { settle { c with cls := 8, bind := 0 } with fault := 0 }
/-- An addressed COMMIT of route 5, and its state query. -/
def commitOne : Token := token 4 1
def stateQuery : Token := token 4 hopQuery
theorem witness_commit_one : Arrives (flying .commit commitOne stepNormal id) .a commitOne (met (flying .commit commitOne stepNormal id) commitOne) ∧
    SoundCell (flying .commit commitOne stepNormal id) .a 0xF20 ∧ cellStalled (met (flying .commit commitOne stepNormal id) commitOne) 0xF20 = false ∧
    commitOne.hop ≠ hopQuery ∧ sharedCls point = false ∧ sharedCls (asCrossing point) = true ∧ coded .lock (asCrossing point) = lockFREE ∧
    SoundCell (flying .commit commitOne stepNormal asCrossing) .a 0xF20 :=
  ⟨arrives rfl rfl (by decide +kernel), by unfold SoundCell; decide +kernel, by decide +kernel, by decide, by decide, by decide, by decide,
   by unfold SoundCell; decide +kernel⟩
theorem witness_state_query : Arrives (flying .refresh stateQuery stepNormal id) .a stateQuery (met (flying .refresh stateQuery stepNormal id) stateQuery) ∧
    stateQuery.hop = hopQuery := ⟨arrives rfl rfl (by decide +kernel), rfl⟩

theorem witness_release_all : Broadcasts (flying .release releaseAll stepNormal (lockedIn lockROUTE)) .a releaseAll (heard .release releaseAll (lockedIn lockROUTE)) ∧
    SoundCell (flying .release releaseAll stepNormal (lockedIn lockROUTE)) .a 0xF20 ∧
    lockedBy (lockedIn lockROUTE point) (isForeign releaseAll) 5 = true ∧ lockedBy (lockedIn lockROUTE point) false 6 = false :=
  ⟨broadcasts _ _ _ rfl, by unfold SoundCell; decide +kernel, by decide, by decide⟩
theorem witness_release_overlap :
    Broadcasts (flying .release releaseOverlap stepNormal (lockedIn lockOVERLAP)) .a releaseOverlap (heard .release releaseOverlap (lockedIn lockOVERLAP)) ∧
    releaseOverlap.hop ≠ hopAll ∧ lockedBy (lockedIn lockOVERLAP point) false 5 = true ∧ (lockedIn lockFLANK point).lock = lockFLANK :=
  ⟨broadcasts _ _ _ rfl, by decide, by decide, rfl⟩
/-- An addressed RELEASE, refused by an occupied cell where REASON[0] is set. -/
def releaseOne (reason : BitVec 8) : Token := { token 9 1 with reason := reason }
def occupied (c : CellRec) : CellRec := { lockedIn lockROUTE c with occ := occOCCUPIED }
theorem witness_release_one :
    Arrives (flying .release (releaseOne 0) stepNormal (lockedIn lockROUTE)) .a (releaseOne 0) (met (flying .release (releaseOne 0) stepNormal (lockedIn lockROUTE)) (releaseOne 0)) ∧
    cellStalled (met (flying .release (releaseOne 0) stepNormal (lockedIn lockROUTE)) (releaseOne 0)) 0xF20 = false ∧
    (lockedIn lockROUTE point).lock ≠ lockFLANK ∧ bitOf (releaseOne 0).reason 0 = false ∧ bitOf (releaseOne 1).reason 0 = true ∧
    occSet (occupied point) = true :=
  ⟨arrives rfl rfl (by decide +kernel), by decide +kernel, by decide, by decide, by decide, by decide⟩
theorem witness_cancel : Broadcasts (flying .request cancelAll stepNormal marked) .a cancelAll (heard .request cancelAll marked) ∧
    regHalted (dieOf (flying .request cancelAll stepNormal marked) .a) (regionOf 0xF20) = false ∧
    markKind (markOf (marked point) 0) = cancelAll.kind ∧
    Arrives (flying .request cancelOne stepNormal marked) .a cancelOne (met (flying .request cancelOne stepNormal marked) cancelOne) :=
  ⟨broadcasts _ _ _ rfl, by decide +kernel, by decide, arrives rfl rfl (by decide +kernel)⟩

/-- A reply for the engine of route 5, which is in a state and waits for LOCKED_ACKs. -/
def replying (w : Wave) (t : Token) (st : BitVec 8) : State :=
  onA (fun x => { x with routes := [(3, { routeIdle with state := st, routeId := 5, key := 0x40 })] }) (flying w t stepNormal id)
theorem witness_engine : Arrives (replying .commit (token 3 1) rsPROBING) .a (token 3 1) (met (replying .commit (token 3 1) rsPROBING) (token 3 1)) ∧
    tokRoute (dieOf (replying .commit (token 3 1) rsPROBING) .a) (token 3 1) = some 3 ∧
    (getRoute (dieOf (replying .commit (token 3 1) rsPROBING) .a) 3).state = rsPROBING ∧
    (dieOf (replying .commit (token 3 1) rsPROBING) .a).wave ≠ .request :=
  ⟨arrives rfl rfl (by decide +kernel), by decide +kernel, by decide +kernel, by decide +kernel⟩
theorem witness_engine_flank : Arrives (replying .request (token 8 1) rsPROBED) .a (token 8 1) (met (replying .request (token 8 1) rsPROBED) (token 8 1)) ∧
    (getRoute (dieOf (replying .request (token 8 1) rsPROBED) .a) 3).state = rsPROBED ∧
    (getRoute (dieOf (replying .refresh (token 8 1) rsLOCKED) .a) 3).state ≠ rsPROBED ∧
    (getRoute (dieOf (replying .refresh (token 8 1) rsLOCKED) .a) 3).state ≠ rsPROBING ∧
    Arrives (replying .request (token 7 1) rsPROBED) .a (token 7 1) (met (replying .request (token 7 1) rsPROBED) (token 7 1)) :=
  ⟨arrives rfl rfl (by decide +kernel), by decide +kernel, by decide +kernel, by decide +kernel, arrives rfl rfl (by decide +kernel)⟩
theorem witness_engine_hold : Arrives (replying .request (token 2 1) rsPROBING) .a (token 2 1) (met (replying .request (token 2 1) rsPROBING) (token 2 1)) ∧
    (getWork (dieOf (replying .request (token 2 1) rsPROBING) .a) 3).nack = none ∧
    (alternatives (dieOf (replying .request (token 2 1) rsPROBING) .a)
      (entryDesc (ctxOf (replying .request (token 2 1) rsPROBING)) (dieOf (replying .request (token 2 1) rsPROBING) .a)
        (getRoute (dieOf (replying .request (token 2 1) rsPROBING) .a) 3))).length = 0 :=
  ⟨arrives rfl rfl (by decide +kernel), by decide +kernel, by decide +kernel⟩
theorem witness_engine_acks : Arrives (replying .commit (token 5 1) rsPROBED) .a (token 5 1) (met (replying .commit (token 5 1) rsPROBED) (token 5 1)) ∧
    (token 5 1).hop ≠ hopQuery ∧ (dieOf (replying .commit (token 5 1) rsPROBED) .a).wave ≠ .release ∧
    Arrives (replying .refresh (token 5 hopQuery) rsLOCKED) .a (token 5 hopQuery) (met (replying .refresh (token 5 hopQuery) rsLOCKED) (token 5 hopQuery)) :=
  ⟨arrives rfl rfl (by decide +kernel), by decide, by decide +kernel, arrives rfl rfl (by decide +kernel)⟩
/-- A token in the spine's egress of region 14 for a halted region 15, and one of undefined TYPE. -/
def halted (t : Token) : State :=
  on15 (fun g => { g with halted := true }) (onA (fun x => { x with flights := [{ tok := t, place := .egress 14 }] }) (inWave .request))
theorem witness_discard : (dieOf (halted (token 1 1)) .a).flights = [{ tok := token 1 1, place := .egress 14 }] ∧ isBroadcast (token 1 1) = false ∧
    (dieOf (halted (token 1 1)) .a).outboxes = [] ∧ 0 < creditOf (dieOf (halted (token 1 1)) .a) 14 (destRegion (token 1 1)) ∧
    regHalted (dieOf (halted (token 1 1)) .a) (destRegion (token 1 1)) = true :=
  ⟨rfl, rfl, rfl, by decide +kernel, by decide +kernel⟩
theorem witness_undefined_type : Arrives (flying .request (token 0xB 1) stepNormal id) .a (token 0xB 1) (met (flying .request (token 0xB 1) stepNormal id) (token 0xB 1)) ∧
    0xB ≤ (token 0xB 1).typ.toNat := ⟨arrives rfl rfl (by decide +kernel), by decide⟩

/-! ## The vote, trips and the boundary -/

/-- A block of region 0 in cycle 7, and its words as lanes carry them from die A. -/
def block (digest : BitVec 64) : Block :=
  { region := 0, cycle := 7, summary := 0, share := 0, expect := 0, digest := digest, payload := [] }
def onLane (side : Side) (digest : BitVec 64) : LaneRx := .words (laneBlock 1 side (block digest))
/-- The blocks of dies B and C have arrived. -/
def voting (db dc : BitVec 64) : State :=
  let put := fun (d : Die) (k : BitVec 64) => modCopy d 0 (fun q => { q with rxH := some (blockWords (block k)), rxL := some (blockWords (block k)), arrived := true })
  { running with vote := put .c dc (put .b db running.vote) }

theorem witness_last_block : cyclesRun (voting 1 1) = true ∧ xferHalted (voting 1 1) = false ∧ (voting 1 1).vote.deadline = false ∧
    (regionVote (voting 1 1).vote 0).verdict = none ∧ Ballot (voting 1 1) .b 0 (blockWords (block 1)) ∧ Ballot (voting 1 1) .c 0 (blockWords (block 1)) ∧
    isAvail (voting 1 1).vote .a 0 = true ∧ (copyOf (voting 1 1).vote .a 0).arrived = false := by unfold Ballot; decide
theorem witness_last_block_usable : laneUsable (voting 1 1) .a .h 0 (onLane .h 1) = some (blockWords (block 1)) ∧
    laneUsable (voting 1 1) .a .l 0 (onLane .l 1) = some (blockWords (block 1)) := by decide +kernel
theorem witness_last_arrival : LastArrival (voting 1 1) .a .b .c 0 (onLane .h 1) (onLane .l 1) (blockWords (block 1)) (blockWords (block 1)) (blockWords (block 1)) ∧
    (voting 1 1).ao.tripLatch = false := by
  obtain ⟨h1, h2, h3, h4, h5, h6, h7, h8⟩ := witness_last_block
  exact ⟨⟨by decide, by decide, by decide, by decide, h1, h2, h3, h4, h5, h6, h7, h8, witness_last_block_usable.1, witness_last_block_usable.2⟩, rfl⟩
theorem witness_blocks_apart : Ballot (voting 2 3) .b 0 (blockWords (block 2)) ∧ Ballot (voting 2 3) .c 0 (blockWords (block 3)) ∧
    blockWords (block 1) ≠ blockWords (block 2) ∧ blockWords (block 2) ≠ blockWords (block 3) ∧ (voting 2 3).ao.tripLatch = false := by
  unfold Ballot; decide
theorem witness_deadline : cyclesRun running = true ∧ xferHalted running = false ∧ (regionVote running.vote 15).verdict = none ∧
    (ballots halfSound running.vote .h 15).length < 2 ∧ running.ao.tripLatch = false := by decide
/-- Every region but 0 has its verdict, and die A's block of region 0 is missing. -/
def late : State :=
  { voting 1 1 with vote := { (voting 1 1).vote with votes := (Vector.replicate 16 { voteReset with verdict := some 3 }).setIfInBounds 0 voteReset } }
theorem witness_deadline_one_missing : cyclesRun late = true ∧ xferHalted late = false ∧ (regionVote late.vote 0).verdict = none ∧
    (∀ q, q < 16 → q ≠ 0 → (regionVote late.vote q).verdict ≠ none) ∧ Ballot late .b 0 (blockWords (block 1)) ∧ Ballot late .c 0 (blockWords (block 1)) ∧
    isAvail late.vote .a 0 = true ∧ isPresent (copyOf late.vote .a 0) = false := by unfold Ballot; decide
/-- All sixteen verdicts stand. -/
def votedAll : State := { late with vote := { late.vote with votes := Vector.replicate 16 { voteReset with verdict := some 3 } } }
theorem witness_deadline_over : cyclesRun votedAll = true ∧ (∀ q, q < 16 → (regionVote votedAll.vote q).verdict ≠ none) := by decide
theorem witness_block_unusable : running.vote.deadline = false ∧ (copyOf running.vote .a 15).arrived = false ∧ laneUsable running .a .h 15 .lost = none ∧
    (copyOf (voting 1 1).vote .b 0).arrived = true ∧ cyclesRun State.reset = false := by decide
theorem witness_clock : clockOk 3140 512 = true ∧ clockOk 3141 512 = false ∧ clockOk 3110 512 = true ∧ clockOk 3109 512 = false := by decide

/-- A re-join pass of region 15 of die A, after some cycles; die B alone holds a byte in the second form. -/
def rejoining (n : Nat) (same : Bool) : State :=
  let idle := onDies (fun _ x => modReg { x with runsPhases := true } 15 (fun g => { g with mem := [(0x40000, 1)] })) running
  let s := if same then idle else onDie .b (fun x => modReg x 15 (fun g => { g with mem := [(0x40000, 2)] })) idle
  on15 (fun g => { g with halted := true, mem := [] })
    { s with vote := modCopy .a 15 (fun q => { q with excluded := some .differs, rejoin := .passing n }) s.vote }
theorem witness_rejoin : (copyOf (rejoining 10 true).vote .a 15).rejoin = .passing 10 ∧ donorsOf (rejoining 10 true) .a 15 = some (.b, .c) ∧
    (dieOf (rejoining 10 true) .a).phase = phIDLE ∧ donorsOf (rejoining 10 false) .a 15 = some (.b, .c) ∧
    (∀ o, (dieOf (rejoining 10 true) o).sliceRun = none) ∧ (∀ o, (dieOf (rejoining 10 false) o).sliceRun = none) :=
  ⟨by decide, by decide, by decide, by decide, fun o => by cases o <;> rfl, fun o => by cases o <;> rfl⟩
theorem witness_donors_agree : rejoinItems (dieOf (rejoining 10 true) .b) 15 = rejoinItems (dieOf (rejoining 10 true) .c) 15 := rfl
theorem witness_donors_differ : rejoinItems (dieOf (rejoining 10 false) .b) 15 ≠ rejoinItems (dieOf (rejoining 10 false) .c) 15 :=
  fun h => absurd (congrArg (·.1) h) (by decide)
theorem witness_rejoin_limit : (copyOf (rejoining 11 true).vote .a 15).rejoin = .passing 11 ∧ (copyOf running.vote .a 15).rejoin = .none := by decide

/-- A slice of region 15 that tests the pair, for the second time. -/
def slicing : State := onA (fun x => { x with sliceRun := some { region := 15, step := 143, again := true } }) running
theorem witness_slice : (dieOf slicing .a).sliceRun = some { region := 15, step := 143, again := true } ∧ (dieOf running .a).sliceRun = none := by decide

/-- A cause line that has fired, one that reads no code, one that is healthy. -/
def cause (l : BitVec 2) : CauseIn := { line := l, us := 0 }
/-- The watchdog has counted 2P. -/
def starved : State := { running with ao := { running.ao with wdSlk := 100 } }
theorem witness_causes : RunsClear running ∧ (cause 1).line ≠ 2 ∧ (cause 3).line ≠ 1 ∧ (cause 2).line = 2 ∧ (outCell running.outs 0).latchH = false := by
  unfold RunsClear; decide
theorem witness_watchdog : RunsClear starved ∧ wdExpired starved = true ∧ wdExpired running = false := by unfold RunsClear; decide
/-- Both latches of output 0 stand. -/
def latched0 : State := { running with outs := { running.outs with outs := [(0, { outCellReset with latchH := true, latchL := true })] } }
theorem witness_no_loop : (outCell latched0.outs 0).latchH = true ∧ (outCell latched0.outs 0).latchL = true := by decide

/-- SAFE after a trip at 100 ms, seen at 199 ms. -/
def tripped : State :=
  { running with mode := .safe, start := .idle, ao := { aoReset with tripLatch := true, ms := 200, autoWait := some { since := 100, overtemp := false } }, tripAt := 101 }
/-- The trip record stands and its 10 µs last. -/
def justTripped : State :=
  { tripped with ao := { tripped.ao with ms := 100, tripHist := [{ kind := 1, autoCount := 0, secondary := 0, first := 4, cycle := 7, region := 0, detail := 0, avail := 7, aoTime := 0 }] } }
theorem witness_power_loss : tripped.heldForm = false ∧ tripped.mode = .safe ∧ joinsTrip (cause 1) tripped = false ∧ tripped.ao.tripLatch = true ∧
    tripped.mode ≠ .wake := by decide
theorem witness_joins : joinsTrip (cause 1) justTripped = true ∧ justTripped.mode ≠ .dormant ∧ justTripped.ao.tripHist.getLast?.isSome = true := by decide
theorem witness_domain_off : tripped.ao.tripLatch = true ∧ tripped.tripAt ≠ 0 ∧ tripped.tripAt + 99 ≤ tripped.ao.ms ∧ running.mode ≠ .safe := by decide

/-- The votes of the cycle are closed. -/
def closed : State := { running with vote := { running.vote with deadline := true } }
theorem witness_boundary : closed.mode = .active ∧ closed.ao.tripLatch = false ∧ closed.heldForm = false ∧ closed.vote.deadline = true ∧
    closed.ao.stopReq = .none ∧ closed.vote.hw.hl = none ∧ imageL closed.vote = ~~~ imageH closed.vote ∧ bitOf (imageH closed.vote) 95 = false := by decide
theorem witness_boundary_group : (outCell closed.outs 95).hsHeld = false ∧ (outCell closed.outs 95).lsHeld = false ∧ closed.outs.stoppedH = false ∧
    (groupSt closed.outs (outGroup 95)).held = false ∧ (groupSt { closed.outs with groups := [(7, { groupReset with cut := false })] } (outGroup 95)).cut = false := by decide
/-- A start that waits for its first boundary, and one in its cycles. -/
def ready : State := { running with mode := .wake, start := .ready, alignTo := some 42, ao := aoReset }
theorem witness_first_boundary : ready.mode = .wake ∧ ready.start = .ready ∧ ready.heldForm = false ∧ tripped.mode = .safe ∧
    State.reset.mode = .dormant ∧ { closed with mode := .wake, start := .cycles, alignTo := some 42 }.alignTo = some 42 := by decide
theorem witness_standby_boundary : { closed with mode := .standby }.tether.gotEnd = false ∧ { closed with mode := .standby }.ao.tripLatch = false := by decide

/-- Die A at the end of RULES_OUT. -/
theorem witness_commit : (dieOf (inPhase phRULESOUT) .a).phase = phRULESOUT ∧ regionsDone (dieOf (inPhase phRULESOUT) .a) = true ∧
    (reg (dieOf (inPhase phRULESOUT) .a) 15).halted = false ∧ (reg (dieOf (inPhase phRULESOUT) .a) 15).haltCycle = false ∧
    (dieOf running .a).phase ≠ phRULESOUT := by decide

/-! ## Start, supply, resets, cover -/

/-- SAFE 10 s after a trip, with AUTO_RESTART on or off. -/
def waiting (on : Bool) : State :=
  let c : Word := if on then BitVec.ofNat 32 (2 ^ (swAUTORESTART - 1)) else 0
  { tripped with ao := { tripped.ao with ms := 10100, contacts := { a := c, b := ~~~c } } }
/-- A DORMANT module that was shut down. -/
def shutDown : State := { State.reset with ao := { aoReset with shutMark := true } }
theorem witness_supply : State.reset.mode = .dormant ∧ State.reset.ao.shutMark = false ∧ running.mode ≠ .dormant ∧ shutDown.ao.shutMark = true ∧
    shutDown.ao.blockOk = true ∧ startIn.blockOk = true ∧ sealStart startIn.contacts = .inr 0x01 ∧ (cause 1).line ≠ 2 := by decide
theorem witness_auto_restart : (waiting true).ao.autoWait = some { since := 100, overtemp := false } ∧ (waiting true).mode = .safe ∧
    (waiting true).heldForm = false ∧ 100 + 10000 ≤ (waiting true).ao.ms ∧ permitOn (waiting true) swAUTORESTART = true ∧
    permitOn (waiting false) swAUTORESTART = false ∧ startIn.blockOk = true ∧ (waiting true).ao.blockOk = true := by decide
theorem witness_auto_restart_waits : tripped.ao.autoWait = some { since := 100, overtemp := false } ∧ tripped.ao.ms < 100 + 10000 ∧
    running.ao.autoWait = none := by decide

/-- A start in the BIST of the bridle, and in that of the units; clocks that agree. -/
def inBist (p : StartPhase) : State := { running with mode := .wake, start := p, startIn := some startIn, ao := { aoReset with tripLatch := true } }
def unitsLeft : List BistUnit := [.dieMemory .a, .dieLogic .c, .gondola]
/-- A shutdown that waits for units, or for none. -/
def shutting (left : List BistUnit) (r : Bool) : State :=
  { running with mode := .shutdown, shut := .testing left r r 7, ao := { aoReset with tripLatch := true } }
theorem witness_bist : (inBist .bridleBist).start = .bridleBist ∧ scanOpen (inBist .bridleBist) = true ∧ (inBist .bridleBist).startIn = some startIn ∧
    (inBist (.unitBist unitsLeft)).start = .unitBist unitsLeft ∧ unitsLeft.contains (.dieLogic .c) = true ∧
    unitsLeft.filter (· ≠ .dieLogic .c) ≠ [] ∧ unitsLeft.contains .bridle = false ∧
    scanOpen { inBist .bridleBist with ao := { aoReset with scanLocked := true } } = false := by decide
/-- What a start finds when every clock agrees. -/
def startAgrees : StartIn := { startIn with clocks := triAll (List.replicate 16 100000) }
def lastUnit (si : StartIn) : State := { inBist (.unitBist [.gondola]) with startIn := some si }
theorem witness_bist_last : (lastUnit startAgrees).start = .unitBist [.gondola] ∧ [BistUnit.gondola].filter (· ≠ .gondola) = [] ∧
    (lastUnit startAgrees).startIn = some startAgrees ∧ clocksOk startAgrees.clocks.a = true ∧ startAgrees.timeBaseOk = true ∧
    clocksOk startIn.clocks.a = false := by decide
theorem witness_shutdown : (shutting unitsLeft false).start = .idle ∧ (shutting unitsLeft false).shut = .testing unitsLeft false false 7 ∧
    (shutting [] false).shut = .testing [] false false 7 ∧ testsOk startIn.tests = true ∧
    (shutting [] true).shut = .testing [] true true 7 ∧ (testsOk startIn.tests && !true && !true) = false ∧ running.mode ≠ .shutdown := by decide

/-- A reset source that is asserted for 10 s or for 1 s, and held. -/
def pressed (h : Bool) (since : Nat) : State :=
  { running with ao := { running.ao with ms := 70000, button := { asserted := true, held := h, stuck := false, since := since } } }
theorem witness_reset_source : running.mode ≠ .dormant ∧ (resetIn running.ao .button).asserted = false ∧
    (pressed false 10).mode = .active ∧ (resetIn (pressed false 10).ao .button).asserted = true ∧ (resetIn (pressed false 10).ao .button).held = false ∧
    (resetIn (pressed false 10).ao .button).since + 2000 ≤ (pressed false 10).ao.ms ∧ RunsClear (pressed false 10) := by unfold RunsClear; decide
theorem witness_reset_early : (resetIn (pressed false 69000).ao .button).asserted = true ∧ (resetIn (pressed false 69000).ao .button).held = false ∧
    (pressed false 69000).ao.ms < (resetIn (pressed false 69000).ao .button).since + 2000 ∧
    anyHeld (freeSource .button (pressed false 69000).ao) = false := by decide
theorem witness_reset_held : (resetIn (pressed true 10).ao .button).asserted = true ∧ (resetIn (pressed true 10).ao .button).held = true ∧
    (resetIn (pressed true 10).ao .button).stuck = false ∧ (resetIn (pressed true 10).ao .button).since + 60000 ≤ (pressed true 10).ao.ms ∧
    anyAsserted (freeSource .button (pressed true 10).ao) = false := by decide
/-- The button and RST# asserted, the button held. -/
def bothPressed : State :=
  { pressed true 10 with ao := { (pressed true 10).ao with rstIn := { asserted := true, held := false, stuck := false, since := 69000 } } }
theorem witness_reset_one_left : (resetIn bothPressed.ao .button).held = true ∧ anyAsserted (freeSource .button bothPressed.ao) = true ∧
    anyHeld (freeSource .rst bothPressed.ao) = true := by decide
/-- Held in reset by a source. -/
def heldInReset : State := { pressed true 10 with mode := .safe, heldForm := true }
theorem witness_sources_freed : heldInReset.mode = .safe ∧ heldInReset.heldForm = true ∧ anyHeld heldInReset.ao = true ∧ anyHeld running.ao = false := by decide
/-- SHDN# asserted, with the module parked or not. -/
def shdnOn (p : ShutPhase) : State := { running with shut := p, ao := { running.ao with shdn := true } }
theorem witness_shdn : running.mode = .active ∧ running.ao.shdn = false ∧ (shdnOn .none).ao.shdn = true ∧ (shdnOn .none).shut ≠ .parked ∧
    (shdnOn .parked).shut = .parked ∧ (shdnOn .parked).ao.shutMark = false ∧ tripped.mode = .safe ∧ anyHeld tripped.ao = false ∧
    tripped.ao.shdn = false ∧ (shutting unitsLeft false).shut ≠ .parked ∧ (shutting unitsLeft false).ao.shdn = false := by decide

/-- A force that ends with the present cycle. -/
def force7 : ForceEntry := { f0 := 1, f1 := 2, f2 := 3, f3 := 7 }
/-- A change under way and a force in the table, the carrier being written for slot 5. -/
def changing : State :=
  { running with forces := [force7], overlays := { running.overlays with change := true, forcing := true },
                 change := { running.change with phase := .loading, loaded := triAll true, earliest := 5 },
                 update := { running.update with op := .write 5 } }
theorem witness_cover : running.mode ≠ .dormant ∧ running.ao.coverOpen = false ∧ State.reset.mode = .dormant ∧
    { running.ao with coverOpen := true, coverAt := 5 }.ms < 5 + 10000 := by decide
theorem witness_carrier : changing.carrier = some carrierShipped ∧ bridleRuns changing = true ∧ changing.change.phase ≠ .none ∧
    opSlot changing.update.op = some 5 ∧ { changing with carrier := none }.carrier = none :=
  ⟨rfl, by decide, by decide, rfl, rfl⟩
theorem witness_force_expiry : cyclesRun changing = true ∧ changing.forces.contains force7 = true ∧ force7.f3 ≠ 0 ∧
    serialAfter force7.f3 changing.cycle = false ∧ cyclesRun State.reset = false := by decide

/-! ## What ends with its time -/

/-- The POINT's timer 3 runs out within the period. -/
def timing : State :=
  onA (fun x => { x with cells := [(0xF20, { point with t3 := { tstate := tRUNNING, fresh := false, trem := 50 } })] }) (inPhase phSAMPLE)
theorem witness_timer : (dieOf timing .a).phase = phSAMPLE ∧ isLive (getCell (dieOf timing .a) 0xF20) = true ∧
    regHalted (dieOf timing .a) (regionOf 0xF20) = false ∧ (timerOf (getCell (dieOf timing .a) 0xF20) 3).tstate = tRUNNING ∧
    (timerOf (getCell (dieOf timing .a) 0xF20) 3).fresh = false ∧
    (timerOf (getCell (dieOf timing .a) 0xF20) 3).trem.toNat ≤ periodOf timing ∧ CheckedCell (getCell (dieOf timing .a) 0xF20) ∧
    (dieOf running .a).phase ≠ phSAMPLE := by unfold CheckedCell; decide
/-- A BOUNDARY cell that mirrors a SECTION, without data. -/
def boundaryCell : CellRec := { cellUnused with cls := 10, ext := 1 }
/-- The POINT with its inputs in another module, without data. -/
def remotePoint : CellRec := { point with bind := 0x0420C480 }
def unheard : State := onA (fun x => { x with cells := [(0xF20, boundaryCell), (0xF21, remotePoint)] }) (inPhase phRULESIN)
theorem witness_age : isLive (getCell (dieOf unheard .a) 0xF20) = true ∧ isCls .boundary (getCell (dieOf unheard .a) 0xF20) = true ∧
    freshMirror (ctxOf unheard) (dieOf unheard .a) 0xF20 = none ∧ isCls .boundary (getCell (dieOf unheard .a) 0xF21) = false ∧
    substCell (ctxOf unheard) (dieOf unheard .a) 0xF21 (getCell (dieOf unheard .a) 0xF21) = true ∧
    regHalted (dieOf unheard .a) (regionOf 0xF20) = false ∧ unheard.mode ≠ .safe ∧ unheard.mode ≠ .shutdown := by decide
/-- A proxy that probes, and a crossing route in its fifth cycle of waiting. -/
def withRoute (p : BitVec 4) (e : RouteEntry) (w : RouteWork) : State := onA (fun x => { x with routes := [(3, e)], work := [(3, w)] }) (inPhase p)
def proxyEntry0 : RouteEntry := { routeIdle with state := rsPROBING, origin := 1, routeId := 5, key := 0x40 }
def waitingRoute : State :=
  withRoute phPROPAGATE { routeIdle with state := rsPROBING, routeId := 5, key := 0x40, wait := 4 } { workNone with waiting := true, remote := true }
def absentProxy : State := withRoute phRULESIN proxyEntry0 workNone
theorem witness_terr_absent : (dieOf absentProxy .a).phase = phRULESIN ∧ isProxy proxyEntry0 = true ∧ getRoute (dieOf absentProxy .a) 3 = proxyEntry0 ∧
    absentProxy.lostTerr.contains (entryDesc (ctxOf absentProxy) (dieOf absentProxy .a) proxyEntry0).reqTerr = false ∧
    proxyHeard (dieOf absentProxy .a) (entryDesc (ctxOf absentProxy) (dieOf absentProxy .a) proxyEntry0) 0x40 = none ∧
    isProxy routeIdle = false := by decide
theorem witness_remote_timeout : (dieOf waitingRoute .a).phase = phPROPAGATE ∧ (getWork (dieOf waitingRoute .a) 3).waiting = true ∧
    (getWork (dieOf waitingRoute .a) 3).remote = true ∧ (getRoute (dieOf waitingRoute .a) 3).state = rsPROBING ∧
    isProxy (getRoute (dieOf waitingRoute .a) 3) = false ∧ (getRoute (dieOf waitingRoute .a) 3).wait = 4 := by decide
/-- A two-step entry of 1,201 cycles ago. -/
def oldEntry : PendEntry := { cmd := 8, target := 0xF20, taken := 7 - 1201, slot := 0, ticket := 0 }
theorem witness_pending : 60000 < (running.cycle - oldEntry.taken).toNat * periodOf running ∧ (reg (dieOf running .a) 15).halted = false ∧
    (running.cycle - { oldEntry with taken := 7 }.taken).toNat * periodOf running ≤ 60000 := by decide

/-! ## Inputs and outputs -/

/-- Inputs 190 and 191 as an EQUIVALENT pair of 100 ms that stand apart, its checkers in a state, input 191 with a fault. -/
def insOf (k : Checker) (filt : Bool) : InSt :=
  { inStReset with cfg := [(190, 0x20190008), (191, 0x20190008)],
                   cells := [(190, { inCellReset with h := { inHalfReset with cnt := 8, filt := filt }, l := { inHalfReset with cnt := 8, filt := filt } }),
                             (191, { inCellReset with fault := true, clean := 15 })],
                   pairs := [(95, { h := k, l := k, apart := false })] }
def inputs (k : Checker) (filt : Bool) : State := { running with ins := insOf k filt }
theorem witness_window : gondolaRuns (inputs .quiet true) = true ∧ 191 = 16 * 11 + 15 ∧ gondolaRuns State.reset = false := by decide
theorem witness_discrepancy : checkerOf (pairSt (insOf (.timing 99) true) 95) .h = .timing 99 ∧ pairCond (insOf (.timing 99) true) .h 95 = true ∧
    discWindows (insOf (.timing 99) true) 95 ≤ 99 + 1 ∧ cfgPair (inCfg (insOf (.timing 99) true) (2 * 95 + 1)) ≠ 0 ∧
    pairCond (insOf (.timing 99) false) .h 95 = false := by decide
theorem witness_discrepancy_clears : checkerOf (pairSt (insOf (.latched 7) false) 95) .l = .latched 7 ∧ cfgPair (inCfg (insOf (.latched 7) false) (2 * 95)) ≠ 0 ∧
    safeSamples (cfgPair (inCfg (insOf (.latched 7) false) (2 * 95))) (cfgAntiSafe (inCfg (insOf (.latched 7) false) (2 * 95))) false false = true ∧
    clearWindows (insOf (.latched 7) false) 95 ≤ 7 + 1 ∧ isLatched (checkerOf (pairSt (insOf .quiet false) 95) .l) = false := by decide
theorem witness_input_fault : (inCell (insOf .quiet false) 191).fault = true ∧ 15 ≤ (inCell (insOf .quiet false) 191).clean ∧
    inCause (insOf .quiet false) 191 (true && !running.outs.stoppedH) (true && !running.outs.stoppedL) (pairApart (insOf .quiet false) 191) = none ∧
    (inCell (insOf .quiet false) 190).fault = false := by decide

/-- Region 15 binds input 191 with REVERT code; an event of an input stands in the spool. -/
def eventing (w : Word) : State :=
  on15 (fun g => { g with mem := [(0x0C, 0x20), (0x15, 0x01)] })
    (onA (fun x => { x with cells := [(0xF20, { point with bind := 0xBE200000 })], evSpool := { x.evSpool with items := [w], mark := some 0 } }) running)
theorem witness_input_event : bridleRuns (eventing 0x7BF) = true ∧ (eventing 0x7BF).coresOff = false ∧
    (dieOf (eventing 0x7BF) .a).evSpool.items.drop (dieOf (eventing 0x7BF) .a).evSpool.readPos = 0x7BF :: [] ∧
    inputRegion (dieOf (eventing 0x7BF) .a) ((0x7BF : Word).extractLsb' 0 8).toNat = some 15 ∧ ((0x7BF : Word).extractLsb' 0 8).toNat < 192 ∧
    entryPoint (dieOf (eventing 0x7BF) .a) 15 tkREVERT ≠ 0 ∧ (reg (dieOf (eventing 0x7BF) .a) 15).halted = false ∧
    (reg (dieOf (eventing 0x7BF) .a) 15).haltCycle = false := by decide
theorem witness_input_event_unbound : spIsEmpty (dieOf running .a).evSpool = true ∧ bridleRuns State.reset = false ∧
    inputRegion (dieOf (eventing 0x700) .a) ((0x700 : Word).extractLsb' 0 8).toNat = none := by decide

/-- Output 95 of a supplied group: commanded on or off, with a change, longest due for its test. -/
def output (on : Bool) (f : OutCell → OutCell) : State :=
  { running with outs := { outStReset with groups := [(7, { groupReset with cut := false })], expect := if on then 2 ^ 95 else 0,
                                           outs := [(95, f { outCellReset with e := on, latchH := on, latchL := on, overdue := 5 })] } }
/-- The group of output 95, and what a light step meets at its samples: all as it should be, and with the low side not proven. -/
def group7 : GroupSt := groupSt (output true id).outs (outGroup 95)
def lightPass : LightSample := { plusHs := levelOn, minusHs := levelOn, plusPre := levelOn, minusPre := levelOn, minusLs := levelOff, drive := false }
theorem witness_dark_step : TestDue (output true id) 95 ∧ (outCell (output true id).outs 95).e = true ∧ (outCell (output true id).outs 95).lsNext = false ∧
    bothOff group7 levelOff = true ∧ bothOff group7 levelOn = false := by unfold TestDue; decide +kernel
theorem witness_dark_step_low : TestDue (output true (fun c => { c with lsNext := true })) 95 ∧ bothOn group7 levelOn = true ∧
    bothOn group7 levelOff = false ∧ (outCell (output true (fun c => { c with lsNext := true })).outs 95).lsNext = true := by
  unfold TestDue; decide +kernel
theorem witness_light_step : TestDue (output false id) 95 ∧ (outCell (output false id).outs 95).e = false ∧
    (outCell (output false id).outs 95).latchH = false ∧ (outCell (output false id).outs 95).latchL = false ∧ lightPass.drive = false ∧
    bothOn group7 lightPass.plusHs = true ∧ bothOff group7 lightPass.minusLs = true ∧ bothOff group7 levelOn = false := by
  unfold TestDue; decide +kernel
theorem witness_light_step_driven : TestDue (output false (fun c => { c with latchH := true })) 95 := by unfold TestDue; decide +kernel
theorem witness_test_not_due : gondolaRuns running = true ∧ stepDue (outCxOf running) running.outs 95 = false ∧
    (outCell running.outs 95).e = expectOf (outCxOf running) running.outs 95 := by decide +kernel
theorem witness_overload : gondolaRuns (output true id) = true ∧ (outCell (output true id).outs 95).kind = fkNONE ∧
    (outCell (output false (fun c => { c with kind := fkOVERLOAD })).outs 95).kind ≠ fkNONE := by decide
/-- Output 95 with a FOREIGN_PLUS lock whose condition has gone for 15 windows. -/
def clearing : State := output false (fun c => { c with kind := fkFOREIGNPLUS, clearRun := 15 })
theorem witness_lock_clear : gondolaRuns clearing = true ∧ clearCond clearing.outs 95 = true ∧ 15 ≤ (outCell clearing.outs 95).clearRun ∧
    clearCond (output true id).outs 95 = false := by decide +kernel
/-- Group 6 cut since reset, 600 ms ago, and group 7 supplied. -/
def grouped : State := { output true id with ao := { running.ao with ms := 600 } }
/-- Measurements of a half: low, cut, and sagging. -/
def supplyOf (mv us : Nat) : SupplyIn := { mvH := mv, mvL := 24000, usH := us, usL := us }
theorem witness_group : gondolaRuns grouped = true ∧ (groupSt grouped.outs 7).cut = false ∧ (groupSt grouped.outs 6).cut = true ∧
    (groupSt grouped.outs 6).cutAt + 500 ≤ grouped.ao.ms ∧ (groupSt grouped.outs 7).lowAt + 100 ≤ grouped.ao.ms := by decide
theorem witness_group_supply : ((supplyOf 19199 1000).mvH < 19200 ∧ 1000 ≤ (supplyOf 19199 1000).usH) ∧
    (supplyOf 16999 5000).mvH < 17000 ∧ 5000 ≤ (supplyOf 16999 5000).usH ∧ (supplyOf 17399 0).mvH < 17400 ∧
    (20400 ≤ supply24.mvH ∧ supply24.mvH ≤ 30000 ∧ 500000 ≤ supply24.usH) ∧ 19600 ≤ supply24.mvL ∧ 100000 ≤ supply24.usL := by decide

/-! ## Links -/

/-- Link 0 to the partner on port T, link 47 to module 2 on ports A and B, and the ports' addresses. -/
def linkedPart : StationPart :=
  { part with links := [(0, { linkUnused with valid := true, timeSrc := true, peer := 1, peerIp := 0x0A000002 }),
                        (47, { linkUnused with valid := true, ports := 1, peer := 2, peerIp := 0x0A000003, peerIpB := 0x0B000003 })],
              system := [(0, 0x80010000), (1, 0x80010040)],
              ports := [(0, { portUnused with ip := 0x0A000001, mask := 0xFF000000 }), (1, { portUnused with ip := 0x0A000001, mask := 0xFF000000 })] }
/-- The module with both links UP and ports T and A up. -/
def linked : State :=
  { running with part := linkedPart, ao := { running.ao with ms := 1000 },
                 links := { linksReset with up := [(0, true), (1, true)], clock := true,
                                            links := [(0, { linkStReset with state := .up, lastSeqS := 4, lastSeqD := 4, acceptS := 990 }),
                                                      (47, { linkStReset with state := .up, lastSeqS := 4, acceptS := 990, lastA := 990, lastB := 990 })] } }
/-- A telegram of the partner for this module, its safety code right. -/
def tel (ty : Nat) (payload : List Word) : Tel :=
  let t : Tel := { h0 := 0x01#8 ++ BitVec.ofNat 8 ty ++ 0x0200#16, h1 := 0, h2 := 1, h3 := 5, h4 := 77, h5 := 990, h6 := 40,
                   h7 := BitVec.ofNat 16 (4 * payload.length) ++ 9#16, payload := payload, code := 0, mac := 0, size := 36 + 4 * payload.length }
  { t with code := safetyCode (telV 0 1 5) t }
/-- A telegram of the partner is accepted whatever its payload, where its form and the receiver's links are as here. -/
theorem tel_accepted (s : State) (ty : Nat) (ws : List Word) (hp : s.part = linkedPart) (hl : s.links.links = linked.links.links)
    (ha : moduleAddr s = 0) (hm : s.ao.ms = 1000) (up : portIsUp s .t = true) (format : telFormatOk (tel ty ws) = true)
    (type : telHasMac (tel ty ws) = false ∧ (isClassS (telType (tel ty ws)) || isClassD (telType (tel ty ws))) = true)
    (age : ageWithin 1000 150 (tel ty ws) = true) : TelAccepted s .t (tel ty ws) 0 := by
  have hs : ∀ n, linkSt s.links n = linkSt linked.links n := fun n => by simp only [linkSt, hl]
  refine ⟨up, rxTest_accepts _ _ _ _ 0 ?_ format ?_ ?_ ⟨type.1, ?_⟩ ?_ ⟨type.2, fun _ => ?_⟩ ?_ ?_ ?_⟩ <;>
    simp only [linkCxOf, hp, hs, ha, hm] <;> first | rfl | exact age | skip
  rw [show (tel ty ws).h3 = 5 from rfl]
  cases isClassS (telType (tel ty ws)) <;> decide
theorem witness_telegram_s : TelAccepted linked .t (tel tyIDLE []) 0 ∧ isClassS (telType (tel tyIDLE [])) = true ∧ partnerLink linked = some 0 ∧
    spFull rxSDepth (spoolRxS linked.links .t) = false ∧ (spoolRxS linked.links .t).openPkt = none :=
  ⟨tel_accepted _ _ _ rfl rfl rfl rfl rfl (by decide) (by decide) (by decide), by decide, by decide, by decide, rfl⟩
theorem witness_telegram_heart : TelAccepted linked .t (tel tyHEART (List.replicate 37 0)) 0 ∧ linked.tether.heart = none ∧
    (tel tyHEART (List.replicate 37 0)).payload.length = 37 :=
  ⟨tel_accepted _ _ _ rfl rfl rfl rfl rfl (by decide) (by decide) (by decide), rfl, rfl⟩
/-- The receive spool of port T holds its 64 telegrams. -/
def rxFull : State :=
  { linked with links := { linked.links with rxS := [(0, { spEmpty linkTelZero with items := List.replicate rxSDepth linkTelZero })] } }
theorem witness_telegram_lost : TelAccepted rxFull .t (tel tyIDLE []) 0 ∧ spFull rxSDepth (spoolRxS rxFull.links .t) = true :=
  ⟨tel_accepted _ _ _ rfl rfl rfl rfl rfl (by decide) (by decide) (by decide), by decide⟩
theorem witness_telegram_time : TelAccepted linked .t (tel tyTIME [1, 2, 2, 0]) 0 ∧ telType (tel tyTIME [1, 2, 2, 0]) = tyTIME ∧
    bitOf ([1, 2, 2, 0].getD 2 (0 : Word)) 1 = true ∧ linked.tail.timeValid = false :=
  ⟨tel_accepted _ _ _ rfl rfl rfl rfl rfl (by decide) (by decide) (by decide), by decide, by decide, rfl⟩
/-- A PMC_SETUP of core pair 0. -/
def setup : List Word := 0x40000000 :: List.replicate 11 0
theorem witness_telegram_setup : TelAccepted linked .t (tel tyDIAG setup) 0 ∧ diagFunc (tel tyDIAG setup) = 0x40 ∧ diagFunc (tel tyDIAG [0]) ≠ 0x40 ∧
    TelAccepted linked .t (tel tyDIAG [0]) 0 :=
  ⟨tel_accepted _ _ _ rfl rfl rfl rfl rfl (by decide) (by decide) (by decide), by decide, by decide,
   tel_accepted _ _ _ rfl rfl rfl rfl rfl (by decide) (by decide) (by decide)⟩
theorem witness_telegram_discards : portIsUp linked .t = true ∧ rxTest (linkCxOf linked) .t { tel tyIDLE [] with h1 := 9 } linked.links = .discard (some 0) dcDEST false ∧
    rxTest (linkCxOf linked) .t { tel tyIDLE [] with h2 := 9 } linked.links = .discard none dcSOURCE false ∧ portIsUp running .t = false := by decide

/-- A standby that receives a transfer. -/
def standby (r : XferRecv) : State := { linked with mode := .standby, ao := { linked.ao with claimEn := false }, tether := { linked.tether with recv := r } }
/-- A TRANSFER telegram of a kind for block `b` of region 15, second half. -/
def xferTel (kind : BitVec 4) (b : Nat) (ws : List Word) : Tel := tel tyTRANSFER (xferHead kind 15 b 0 true 40 ++ ws)
theorem witness_transfer_memory : TelAccepted (standby (.receiving 3)) .t (xferTel xkBLOCK 188 (List.replicate 128 7)) 0 ∧
    xferKind (xferTel xkBLOCK 188 (List.replicate 128 7)) = xkBLOCK ∧ xferBlock (xferTel xkBLOCK 188 (List.replicate 128 7)) < memBlocks ∧
    (xferTel xkBLOCK 188 (List.replicate 128 7)).payload.length = 132 ∧ partnerLink (standby (.receiving 3)) = some 0 :=
  ⟨tel_accepted _ _ _ rfl rfl rfl rfl rfl (by decide +kernel) (by decide +kernel) (by decide +kernel), by decide +kernel, by decide +kernel, by decide +kernel, by decide +kernel⟩
theorem witness_transfer_cells : TelAccepted (standby (.receiving 3)) .t (xferTel xkBLOCK 204 (List.replicate 128 7)) 0 ∧
    memBlocks ≤ xferBlock (xferTel xkBLOCK 204 (List.replicate 128 7)) ∧ xferBlock (xferTel xkBLOCK 204 (List.replicate 128 7)) < regionBlocks :=
  ⟨tel_accepted _ _ _ rfl rfl rfl rfl rfl (by decide +kernel) (by decide +kernel) (by decide +kernel), by decide +kernel, by decide +kernel⟩
theorem witness_transfer_routes : TelAccepted (standby (.receiving 3)) .t (xferTel xkROUTES 0 []) 0 ∧ (xferTel xkROUTES 0 []).payload.drop 4 = [] :=
  ⟨tel_accepted _ _ _ rfl rfl rfl rfl rfl (by decide) (by decide) (by decide), rfl⟩
theorem witness_transfer_module : TelAccepted (standby (.receiving 3)) .t (xferTel xkMODULE 0 [7, 0, 0, 0]) 0 :=
  tel_accepted _ _ _ rfl rfl rfl rfl rfl (by decide) (by decide) (by decide)
theorem witness_transfer_first : TelAccepted (standby .asked) .t (xferTel xkEND 0 []) 0 ∧ (standby .asked).mode = .standby ∧
    (standby .asked).tether.recv = .asked :=
  ⟨tel_accepted _ _ _ rfl rfl rfl rfl rfl (by decide) (by decide) (by decide), rfl, rfl⟩
theorem witness_transfer_kind : TelAccepted linked .t (xferTel 9 0 []) 0 ∧ [xkBLOCK, xkROUTES, xkMODULE, xkEND].contains (xferKind (xferTel 9 0 [])) = false ∧
    linked.mode ≠ .standby :=
  ⟨tel_accepted _ _ _ rfl rfl rfl rfl rfl (by decide) (by decide) (by decide), by decide, by decide⟩

theorem witness_ports : portsPowered linked = true ∧ portUsed linked .t = true ∧ portIsUp linked .t = true ∧ 0 ∈ linksOn linked .t ∧
    nextHop linked .t 0 = some 0x0A000002 ∧ (partPort linked.part .t).ip = 0x0A000001 ∧ portsPowered State.reset = false := by decide
/-- A frame to a port that no link uses. -/
theorem witness_frame_refused : frameOk linked.part .t { framePlain with udpPort := 1 } = false ∧ frameOk linked.part .t framePlain = true := by decide
/-- The peers were asked a minute ago. -/
theorem witness_arp_refresh : getA 0 { linked.links with arpAt := [(0, 1)] }.arpAt (portIndex .t) + 60000 ≤ { linked.ao with ms := 60000 }.ms + 1 ∧
    linked.ao.ms + 1 < getA 0 linked.links.arpAt (portIndex .t) + 60000 := by decide
/-- A class S telegram with credit, or one of class D with another that waits for its stage, stands on port T. -/
def waitingTel (ty : Nat) : LinkTel := { len := 36, buf := 0, link := 0, tel := tel ty [] }
def sending (s : Bool) : State :=
  { linked with links := { linked.links with links := [(0, { linkStReset with state := .up, creditIn := 9 })],
                                             txS := if s then [(0, { spEmpty linkTelZero with items := [waitingTel tyIDLE] })] else [],
                                             txD := [(0, { spEmpty linkTelZero with items := [waitingTel tyDIAG], stalled := [waitingTel tyDIAG] })] } }
theorem witness_frame : portIsUp (sending true) .t = true ∧ (spoolTxS (sending true).links .t).items = waitingTel tyIDLE :: [] ∧
    (spoolTxS (sending true).links .t).readPos = 0 ∧ hasCredit (sending true).links (waitingTel tyIDLE) = true ∧
    (spoolTxS (sending false).links .t).items = [] ∧ (spoolTxD (sending false).links .t).items = waitingTel tyDIAG :: [] ∧
    (spoolTxD (sending false).links .t).stalled = waitingTel tyDIAG :: [] ∧ (spoolTxD (sending false).links .t).openPkt = none ∧
    (spoolTxD (sending false).links .t).readPos = 0 ∧ (spoolTxD linked.links .t).items = [] :=
  ⟨rfl, rfl, rfl, by decide, rfl, rfl, rfl, rfl, rfl, rfl⟩
/-- Links without acceptances for longer than T_loss: link 0 in all, link 47 on network A. -/
def silent : State := { linked with ao := { linked.ao with ms := 1241 }, apart := [(2, 5000)] }
theorem witness_link_lost : linksRun silent = true ∧ (linkOf silent.part 0).valid = true ∧ (linkSt silent.links 0).state = .up ∧
    (linkSt silent.links 0).acceptS + effTLoss silent.part (linkOf silent.part 0) < silent.ao.ms ∧ silent.apart ≠ [] ∧ silent.apartAt = none ∧
    (linkSt linked.links 0).state = .up ∧ linked.ao.ms ≤ (linkSt linked.links 0).acceptS + effTLoss linked.part (linkOf linked.part 0) ∧
    linked.apart = [] ∧ linksRun State.reset = false := by decide
/-- Link 0 LOST with acceptances in four cycles, link 47 silent on one network alone. -/
def returning (a b : Nat) : State :=
  { silent with links := { silent.links with links := [(0, { linkStReset with state := .lost, accRun := 3, accNow := true }),
                                                       (47, { linkStReset with state := .up, lastA := a, lastB := b })] } }
theorem witness_link_up : (linkSt (returning 990 1240).links 0).state = .lost ∧
    4 ≤ (linkSt (returning 990 1240).links 0).accRun + (if (linkSt (returning 990 1240).links 0).accNow then 1 else 0) ∧
    (linkOf silent.part 47).valid = true ∧ (linkOf silent.part 47).ports = 1 ∧
    (linkSt (returning 990 1240).links 47).lastA + effTLoss silent.part (linkOf silent.part 47) < silent.ao.ms ∧
    silent.ao.ms ≤ (linkSt (returning 990 1240).links 47).lastB + effTLoss silent.part (linkOf silent.part 47) ∧
    (linkSt (returning 990 1240).links 47).netDownA = false ∧ (linkSt (returning 1240 990).links 47).netDownB = false ∧
    (linkSt (returning 1240 990).links 47).lastB + effTLoss silent.part (linkOf silent.part 47) < silent.ao.ms := by decide

/-! ## Requests and TERR entries at step 5 -/

/-- The words before CHECK of the record of route 5, or of proxy 3 for route 5 of territory 2: entrance 0xF20. -/
def record (w3 : Word) : List Word := [0x80050F20, 0, 0, w3] ++ List.replicate 27 0
/-- A word store with these words from a place on. -/
def wordsAt (a : Nat) (ws : List Word) : List (Nat × Word) := (numsFrom 0 ws.length).map (fun k => (a + k, ws.getD k 0))
/-- A die at step 5 with route 5, proxy 3 and one route entry, given the CHECK of each record. -/
def fiveDie (c1 c2 : Word) (todo : List Todo) (e : RouteEntry) (f : RouteWork → RouteWork) (x : DieSt) : DieSt :=
  { x with phase := phRULESIN, runsPhases := true, cycleNo := 7, todo := todo, cells := [(0xF20, point)],
           routeMem := wordsAt 160 (record 0 ++ [c1]), proxyMem := wordsAt 96 (record 0x00020000 ++ [c2]),
           routes := [(0, e)], work := [(0, f workNone)] }
/-- Die A of an ACTIVE module so, with both CHECKs right. -/
def stepFive : List Todo → RouteEntry → (RouteWork → RouteWork) → State := fun todo e f =>
  onA (fiveDie (memCheck (virtWord 5 false (ctxOf running)) (record 0)) (memCheck (virtWord 6147 false (ctxOf running)) (record 0x00020000)) todo e f) running
theorem check_holds (v : Word) (ws : List Word) : checkHolds v (ws ++ [memCheck v ws]) = true := by simp [checkHolds]
/-- A TERR entry of territory 2 for route 5 under key 9. -/
def terr (op : BitVec 4) (reason : BitVec 8) (failed : Bool) : TerrEntry :=
  { terr := 2, forProxy := decide (op.toNat ≤ 5), op := op, proven := false, calling := false, failed := failed, reason := reason, route := 5, key := 9,
    progress := 0, taken := 7, leftMs := 100 }
/-- The entry before proxy 3 in a state, before no proxy, and before crossing route 5. -/
def atProxy (op : BitVec 4) (st : BitVec 8) : State :=
  stepFive [.terr (terr op 0 false)] { routeIdle with state := st, origin := 1, routeId := 3, key := 9 } id
def atNone (op : BitVec 4) : State := stepFive [.terr (terr op 0 false)] routeIdle id
def atCrossing (op : BitVec 4) (reason : BitVec 8) (failed : Bool) (st : BitVec 8) (retry : BitVec 5) : State :=
  stepFive [.terr (terr op reason failed)] { routeIdle with state := st, routeId := 5, key := 9, retry := retry } (fun w => { w with waiting := true })
theorem witness_terr_proxy : HeadTerr (atProxy 2 rsPROBED) .a (terr 2 0 false) [] ∧ proxyEntry (dieOf (atProxy 2 rsPROBED) .a) (terr 2 0 false) = some 0 ∧
    (getRoute (dieOf (atProxy 2 rsPROBED) .a) 0).key = (terr 2 0 false).key ∧ (getRoute (dieOf (atProxy 2 rsPROBED) .a) 0).state = rsPROBED := by
  unfold HeadTerr; decide +kernel
theorem witness_terr_entered : HeadTerr (atProxy 3 rsLOCKED) .a (terr 3 0 false) [] ∧ proxyEntry (dieOf (atProxy 3 rsLOCKED) .a) (terr 3 0 false) = some 0 := by
  unfold HeadTerr; decide +kernel
theorem witness_terr_release : HeadTerr (atProxy 4 rsLOCKED) .a (terr 4 0 false) [] ∧ isCommitted (getRoute (dieOf (atProxy 4 rsLOCKED) .a) 0) = true := by
  unfold HeadTerr; decide +kernel
theorem witness_terr_cancel : HeadTerr (atProxy 5 rsPROBED) .a (terr 5 0 false) [] ∧ isCommitted (getRoute (dieOf (atProxy 5 rsPROBED) .a) 0) = false := by
  unfold HeadTerr; decide +kernel
theorem witness_terr_released : HeadTerr (atNone 4) .a (terr 4 0 false) [] ∧ proxyEntry (dieOf (atNone 4) .a) (terr 4 0 false) = none := by
  unfold HeadTerr; decide +kernel
theorem witness_terr_probe : HeadTerr (atNone 1) .a (terr 1 0 false) [] ∧ proxyEntry (dieOf (atNone 1) .a) (terr 1 0 false) = none ∧
    proxyOf (dieOf (atNone 1) .a) 2 5 = some 3 ∧ lowestFree (dieOf (atNone 1) .a) = some 0 ∧
    proxyCount (ctxOf (atNone 1)) (dieOf (atNone 1) .a) 15 2 = 0 := by unfold HeadTerr; decide +kernel
theorem proxy_check (todo : List Todo) (e : RouteEntry) (f : RouteWork → RouteWork) : (readDesc (ctxOf running) (dieOf (stepFive todo e f) .a) true 3).2 = true := by
  unfold readDesc stepFive
  generalize hv : virtWord 6147 false (ctxOf running) = v
  have ha : ∀ c1 c2 s, (dieOf (onA (fiveDie c1 c2 todo e f) s) .a).active = (dieOf s .a).active := fun _ _ _ => rfl
  have hw : ∀ c1 c2 s, proxyWords (dieOf (onA (fiveDie c1 c2 todo e f) s) .a) false 3 = record 0x00020000 ++ [c2] := fun _ _ _ => rfl
  have hr : (dieOf running .a).active = false := rfl
  simp only [if_true, ha, hr, hw, hv, check_holds, show 6144 + 3 % 512 = 6147 from rfl]
theorem witness_terr_undefined : HeadTerr (atNone 6) .a (terr 6 0 false) [] ∧ terrOpKnown (terr 6 0 false).op = false := by unfold HeadTerr; decide +kernel
theorem witness_terr_crossing : HeadTerr (atCrossing 8 0 false rsPROBING 0) .a (terr 8 0 false) [] ∧
    crossingEntry (dieOf (atCrossing 8 0 false rsPROBING 0) .a) (terr 8 0 false) = some 0 ∧
    (getWork (dieOf (atCrossing 8 0 false rsPROBING 0) .a) 0).waiting = true := by unfold HeadTerr; decide +kernel
theorem witness_terr_nack : crossingEntry (dieOf (atCrossing 9 rnOCCUPIED false rsPROBING 20) .a) (terr 9 rnOCCUPIED false) = some 0 ∧
    retryable rnOCCUPIED = true ∧ retryable rnDUPLICATE = false := by decide +kernel
theorem witness_terr_failed : HeadTerr (atCrossing 0xA 0 true rsLOCKED 0) .a (terr 0xA 0 true) [] ∧
    crossingEntry (dieOf (atCrossing 0xA 0 true rsLOCKED 0) .a) (terr 0xA 0 true) = some 0 ∧ failsByProxy rsLOCKED = true := by unfold HeadTerr; decide +kernel

theorem witness_terr_regions :
    [atProxy 2 rsPROBED, atNone 4, atNone 1, atCrossing 8 0 false rsPROBING 0, atCrossing 0xA 0 true rsLOCKED 0].all (fun s =>
      !(ctxOf s).fieldRole && [terr 2 0 false, terr 8 0 false].all (fun e => !regHalted (dieOf s .a) (terrRegion (ctxOf s) (dieOf s .a) e))) = true := by
  decide +kernel
/-- Region 15 is halted; the module is in FIELD role. -/
def haltedHome (s : State) : State := on15 (fun g => { g with halted := true }) s
def fieldModule (s : State) : State := { s with part := { part with system := [(0, 0xA0020000)] } }
theorem witness_terr_without_effect : HeadTerr (haltedHome (atProxy 2 rsPROBED)) .a (terr 2 0 false) [] ∧
    regHalted (dieOf (haltedHome (atProxy 2 rsPROBED)) .a) (terrRegion (ctxOf (haltedHome (atProxy 2 rsPROBED))) (dieOf (haltedHome (atProxy 2 rsPROBED)) .a) (terr 2 0 false)) = true ∧
    terrOpKnown (terr 2 0 false).op = true ∧ HeadTerr (fieldModule (atProxy 2 rsPROBED)) .a (terr 2 0 false) [] ∧
    (ctxOf (fieldModule (atProxy 2 rsPROBED))).fieldRole = true := by unfold HeadTerr; decide +kernel

/-- A window in which slot 5 holds a record and is with the device. -/
def slotWin (ws : List Word) : WinSt := { winReset with alive := true, take := 5, flags := [(5, ownDEVICE)], mem := memPutWords [] (reqAddr 5) ws }
/-- The words of a request of a command with its first two arguments. -/
def req (cmd a4 a5 : Word) : List Word := [cmd <<< 24, 0x77, 0, 0, a4, a5]
/-- The request in slot 5 at step 5 of die A. -/
def atRequest (cmd a4 a5 : Word) (e : RouteEntry) : State := { stepFive [.request 5] e id with win := slotWin (req cmd a4 a5) }
def withPoint (f : CellRec → CellRec) (s : State) : State := onA (fun x => { x with cells := [(0xF20, f point)] }) s
def withPending (r : Nat) (cmd : BitVec 8) (target : Word) (ago : Word) (s : State) : State :=
  onA (fun x => modReg x r (fun g => { g with sup := { g.sup with pendings := [{ cmd := cmd, target := target, taken := x.cycleNo - ago, slot := 4, ticket := 1 }] } })) s
theorem witness_block : HeadRequest (atRequest 4 0xF20 0 routeIdle) .a 5 .block [] ∧ (reg (dieOf (atRequest 4 0xF20 0 routeIdle) .a) 15).halted = false ∧
    fabricRead point = point ∧ blockable point = true ∧ point.lock = lockFREE := by unfold HeadRequest; decide +kernel
theorem witness_unblock : HeadRequest (withPoint (fun c => { c with lock := lockBLOCKED }) (atRequest 5 0xF20 0 routeIdle)) .a 5 .unblock [] ∧
    fabricRead { point with lock := lockBLOCKED } = { point with lock := lockBLOCKED } := by unfold HeadRequest; decide +kernel
theorem witness_block_target : HeadRequest (atRequest 4 0 0 routeIdle) .a 5 .block [] ∧ fabricRead cellUnused = cellUnused ∧ blockable cellUnused = false ∧
    isPointLike cellUnused = false := by unfold HeadRequest; decide +kernel
/-- The call of POINT 0xF20 to REVERSE, its profile allowing 100 ms. -/
def calling (f : CellRec → CellRec) : State :=
  let p : Profile := { profZero with p3 := 100 }
  onA (fun x => { x with profiles := [(0, { p with p7 := profCheckValue (ctxOf running) false 0 p })] }) (withPoint f (atRequest 3 0x2F20 0 routeIdle))
theorem witness_point_call : HeadRequest (calling id) .a 5 .pointCall [] ∧ fabricRead point = point ∧ isPointLike point = true ∧
    (appWrite .cmd (cmdREVERSE.setWidth 32) (cellProf (ctxOf (calling id)) (dieOf (calling id) .a) point) false false point).1 = stSTORED := by
  unfold HeadRequest; decide +kernel
theorem witness_point_call_refused : isPointLike { point with lock := lockBLOCKED } = true ∧
    (appWrite .cmd (cmdREVERSE.setWidth 32) (cellProf (ctxOf running) (dieOf running .a) point) false false { point with lock := lockBLOCKED }).1 ≠ stSTORED := by
  decide +kernel
/-- A DISTURBED POINT. -/
def disturbed (a5 : Word) : State := withPoint (fun c => { c with occ := occDISTURBED }) (atRequest 8 0xF20 a5 routeIdle)
theorem witness_restore : HeadRequest (disturbed 0) .a 5 .sectionRestore [] ∧ pendingFor (dieOf (disturbed 0) .a) 15 8 0xF20 = none ∧
    (allPendings (dieOf (disturbed 0) .a)).length < 16 ∧ restorable { point with occ := occDISTURBED } = true := by unfold HeadRequest; decide +kernel
theorem witness_restore_confirm : HeadRequest (withPending 15 8 0xF20 1200 (disturbed 1)) .a 5 .sectionRestore [] ∧
    pendingFor (dieOf (withPending 15 8 0xF20 1200 (disturbed 1)) .a) 15 8 0xF20 = some { cmd := 8, target := 0xF20, taken := 7 - 1200, slot := 4, ticket := 1 } ∧
    (7 - (7 - 1200) : Word).toNat * periodOf running = 60000 ∧ (7 - (7 - 99) : Word).toNat * periodOf running < 5000 ∧
    60000 < (7 - (7 - 1201) : Word).toNat * periodOf running := by unfold HeadRequest; decide +kernel
theorem witness_restore_refused : HeadRequest (withPending 15 8 0xF20 100 (disturbed 0)) .a 5 .sectionRestore [] ∧
    (pendingFor (dieOf (withPending 15 8 0xF20 100 (disturbed 0)) .a) 15 8 0xF20).isSome = true ∧ restorable point = true ∧ point.occ ≠ occDISTURBED ∧
    restorable cellUnused = false := by unfold HeadRequest; decide +kernel
theorem witness_cell_halted : HeadRequest (haltedHome (atRequest 4 0xF20 0 routeIdle)) .a 5 .block [] ∧
    (reg (dieOf (haltedHome (atRequest 4 0xF20 0 routeIdle)) .a) 15).halted = true := by unfold HeadRequest; decide +kernel

/-- Route 5 LOCKED. -/
def locked5 : RouteEntry := { routeIdle with state := rsLOCKED, routeId := 5, key := 9 }
theorem witness_route_set : HeadRequest (atRequest 1 5 0 routeIdle) .a 5 .routeSet [] ∧ (ctxOf (atRequest 1 5 0 routeIdle)).running = true ∧
    (ctxOf (atRequest 1 5 0 routeIdle)).fieldRole = false ∧ (dieOf (atRequest 1 5 0 routeIdle) .a).accepted < 64 ∧
    regionOf (readDesc (ctxOf (atRequest 1 5 0 routeIdle)) (dieOf (atRequest 1 5 0 routeIdle) .a) false 5).1.entrance = 15 ∧
    findRoute (dieOf (atRequest 1 5 0 routeIdle) .a) false 5 = none ∧ lowestFree (dieOf (atRequest 1 5 0 routeIdle) .a) = some 0 ∧
    (readDesc (ctxOf (atRequest 1 5 0 routeIdle)) (dieOf (atRequest 1 5 0 routeIdle) .a) false 5).1.valid = true := by unfold HeadRequest; decide +kernel
theorem route_check (todo : List Todo) (e : RouteEntry) (f : RouteWork → RouteWork) : (readDesc (ctxOf running) (dieOf (stepFive todo e f) .a) false 5).2 = true := by
  unfold readDesc stepFive
  generalize hv : virtWord 5 false (ctxOf running) = v
  have ha : ∀ c1 c2 s, (dieOf (onA (fiveDie c1 c2 todo e f) s) .a).active = (dieOf s .a).active := fun _ _ _ => rfl
  have hw : ∀ c1 c2 s, descWords (dieOf (onA (fiveDie c1 c2 todo e f) s) .a) false 5 = record 0 ++ [c1] := fun _ _ _ => rfl
  have hr : (dieOf running .a).active = false := rfl
  simp only [Bool.false_eq_true, if_false, ha, hr, hw, hv, check_holds]
theorem witness_route_set_mode : HeadRequest { atRequest 1 5 0 routeIdle with mode := .wake } .a 5 .routeSet [] ∧
    (ctxOf { atRequest 1 5 0 routeIdle with mode := .wake }).running = false ∧ HeadRequest (fieldModule (atRequest 1 5 0 routeIdle)) .a 5 .routeSet [] ∧
    (ctxOf (fieldModule (atRequest 1 5 0 routeIdle))).fieldRole = true := by unfold HeadRequest; decide +kernel
theorem witness_route_set_live : HeadRequest (atRequest 1 5 0 locked5) .a 5 .routeSet [] ∧ findRoute (dieOf (atRequest 1 5 0 locked5) .a) false 5 = some 0 ∧
    (getRoute (dieOf (atRequest 1 5 0 locked5) .a) 0).replaced = false ∧ (getRoute (dieOf (atRequest 1 5 0 { locked5 with replaced := true }) .a) 0).replaced = true ∧
    (readDesc (ctxOf (atRequest 1 6 0 routeIdle)) (dieOf (atRequest 1 6 0 routeIdle) .a) false 6).1.valid = false := by unfold HeadRequest; decide +kernel
theorem witness_route_command : HeadRequest (atRequest 2 5 0 locked5) .a 5 .routeCancel [] ∧ HeadRequest (atRequest 6 5 0 locked5) .a 5 .signalReplace [] ∧
    findRoute (dieOf (atRequest 2 5 0 locked5) .a) false 5 = some 0 ∧ (getWork (dieOf (atRequest 2 5 0 locked5) .a) 0).cmd = none := by
  unfold HeadRequest; decide +kernel
theorem witness_emergency : HeadRequest (atRequest 7 5 0 locked5) .a 5 .emergRelease [] ∧ emergStates.contains rsLOCKED = true ∧
    pendingFor (dieOf (atRequest 7 5 0 locked5) .a) 15 7 5 = none := by unfold HeadRequest; decide +kernel
theorem witness_emergency_confirm : HeadRequest (withPending 15 7 5 100 (atRequest 7 5 1 locked5)) .a 5 .emergRelease [] ∧
    findRoute (dieOf (withPending 15 7 5 100 (atRequest 7 5 1 locked5)) .a) false 5 = some 0 ∧
    (pendingFor (dieOf (withPending 15 7 5 100 (atRequest 7 5 1 locked5)) .a) 15 7 5).isSome = true ∧
    (7 - (7 - 100) : Word).toNat * periodOf running = 5000 := by unfold HeadRequest; decide +kernel

/-- A request of region 0 at step 5, with its argument A6. -/
def atModule (cmd a4 a6 : Word) (f : State → State) : State :=
  f { stepFive [.request 5] routeIdle id with win := slotWin (req cmd a4 0 ++ [a6]) }
def withForce (f : ForceEntry) (s : State) : State := onA (fun x => modReg x 0 (fun g => { g with sup := { g.sup with forces := [f] } })) s
/-- Every permit switch on. -/
def permits : Seal := { a := 0x7FFFFF, b := 0xFF800000 }
/-- The data words of a manifest for station 0: five parts of one page each, all of digest 0, the STATION part in version 1. -/
def manifestData : List Word :=
  [0x00010005, 0, 0, 0] ++
    (numsFrom 0 5).flatMap (fun p => [BitVec.ofNat 32 ((p + 1) * 0x1000000 + (if 3 ≤ p then 1 else 0)), BitVec.ofNat 32 (0x1000 * (p + 1)), 0x1000,
      if p = 3 then 1 else 0] ++ List.replicate 24 0) ++ List.replicate 54 0
/-- Slot B with parts that pass every check of a start, the STATION part of the module in a new version. -/
def goodSlot : SlotImg :=
  { slotEmpty with manifest := some (carSeal (slotBase true) 0x02 manifestData), certSig := true, manSig := true, partSigs := List.replicate 5 true,
                   stored := List.replicate 5 0, keysOpen := true, data := { part with version := 1 } }
/-- A module with permits whose slot B is good and whose slot A keeps the same firmware and keys. -/
def staged (s : State) : State :=
  { s with ao := { s.ao with contacts := permits }, carrier := some { carrierShipped with slotA := { goodSlot with data := part }, slotB := goodSlot } }
/-- A module whose partner, a standby, is ready to take over. -/
def readyPartner (s : State) : State := { s with tether := { s.tether with heart := some { heartOf 6 [] with standby := true, healthy := true, inStep := true, shadow := 32 } } }
def forced : ForceEntry := { f0 := 0xC0000005, f1 := 0, f2 := 0, f3 := 0 }
theorem witness_force : HeadRequest (atModule 9 0xC0000005 0 id) .a 5 .forceSet [] ∧ (reg (dieOf (atModule 9 0xC0000005 0 id) .a) 0).halted = false ∧
    forceRefusal part true false false (forceOf (reqWords (atModule 9 0xC0000005 0 id).win 5)) [] 0 = none ∧
    forceRefusal part true false false { forced with f2 := 1 } [] 0 = some wrPERMIT := by unfold HeadRequest; decide +kernel
theorem witness_force_clear : HeadRequest (atModule 10 0xC0000005 0 (withForce forced)) .a 5 .forceClear [] ∧
    (reg (dieOf (atModule 10 0xC0000005 0 (withForce forced)) .a) 0).sup.forces.any
      (sameForce (forceOf (reqWords (atModule 10 0xC0000005 0 (withForce forced)).win 5))) = true ∧
    (atModule 10 0xC0000005 0 (withForce forced)).mode = .active ∧ (atModule 10 0xC0000005 0 (withForce forced)).overlays.change = false := by unfold HeadRequest; decide +kernel
/-- A manifest that its writer has sealed is readable, whatever its CRC is. -/
theorem sealed_manifest {b : Bool} {s : SlotImg} {ws : List Word} (h : s.manifest = some (carSeal (slotBase b) 0x02 ws)) (hl : ws.length = 198)
    (h0 : ws.getD 0 0 = 0x00010005) : manifestOk b s = true := by
  unfold manifestOk manWord
  simp only [h, carReadable, carSeal, hl, Option.map_some, Option.getD_some, h0]
  decide
theorem good_manifest : manifestOk true goodSlot = true := sealed_manifest rfl (by decide +kernel) (by decide +kernel)
theorem good_slot : slotFails none versionReset 0 true goodSlot = none := by
  unfold slotFails
  rw [good_manifest]
  decide +kernel
theorem witness_change : HeadRequest (atModule 14 1 0 staged) .a 5 .onlineChange [] ∧ changeTest (atModule 14 1 0 staged) true = chNONE ∧
    changeTest (atModule 14 0 0 staged) false = chCHECK := by
  refine ⟨by unfold HeadRequest; decide +kernel, ?_, by decide +kernel⟩
  have h : slotFails (atModule 14 1 0 staged).recordKey (atModule 14 1 0 staged).versions (stationNo (atModule 14 1 0 staged)) true goodSlot = none :=
    good_slot
  have hc : (atModule 14 1 0 staged).carrier = some { carrierShipped with slotA := { goodSlot with data := part }, slotB := goodSlot } := rfl
  unfold changeTest
  simp only [hc, slotOf, if_true, h]
  decide +kernel
theorem witness_handover : HeadRequest (atModule 15 0 0 readyPartner) .a 5 .handover [] ∧ partnerReady (atModule 15 0 0 readyPartner) = true ∧
    partnerReady (atModule 15 0 0 id) = false := by unfold HeadRequest; decide +kernel
/-- A change that every die has loaded. -/
def loadedChange : State := { running with change := { changeReset with phase := .loading, loaded := triAll true, earliest := 12 } }
theorem witness_load_complete : loadedChange.change.phase = .loading ∧ loadedChange.change.loaded = triAll true ∧
    inactiveBanks loadedChange.dies.b = inactiveBanks loadedChange.dies.a ∧ inactiveBanks loadedChange.dies.c = inactiveBanks loadedChange.dies.a := by
  decide +kernel
theorem witness_undefined_command : (atModule 0xFF 0 0 id).win.alive = true ∧ (atModule 0xFF 0 0 id).win.take = 5 ∧
    winFlag (atModule 0xFF 0 0 id).win 5 = ownDEVICE ∧ reqCmd (reqWords (atModule 0xFF 0 0 id).win 5) = none := by decide +kernel

/-! ## Claims -/

/-- A module in negotiation with a silent partner, for 6P. -/
def negotiating : State :=
  { linked with mode := .wake, start := .cycles, ao := { aoReset with ms := 300, claimIn := .static, staticSince := 0 }, tether := tetherReset }
theorem witness_negotiation : atBoundary negotiating = true ∧ atBoundary (inPhase phIDLE) = false ∧ negotiationSilent negotiating = true ∧ isPreferred negotiating = false ∧
    negotiating.tether.negSince + 6 * periodOf negotiating ≤ negotiating.ao.ms := by decide
theorem witness_claim_static : (standby .none).ao.claimIn = .static ∧ { running.ao with claimIn := .live }.claimIn ≠ .static ∧ (partnerPos linked).isSome = true ∧
    linked.ao.claimEn = true ∧ linked.ao.claimOutOk = true ∧ aoReset.claimEn = false := by decide
/-- A SYNCED standby whose partner is silent and whose field is quiet. -/
def taking : State :=
  { negotiating with mode := .standby, start := .idle, tether := { tetherReset with missing := 3, synced := true, lineSince := some 150, yieldReq := some 4,
                                                                                     heart := some { heartOf 6 [] with claiming := true } } }
theorem witness_takeover : atBoundary taking = true ∧ takeoverDue taking = true ∧ takeoverDue running = false := by decide +kernel
theorem witness_claim_line : taking.tether.lineSince = some 150 ∧ taking.mode = .standby ∧ taking.tether.claimLine = false ∧ taking.ao.claimIn = .static ∧
    max 150 taking.ao.staticSince + 3 * periodOf taking ≤ taking.ao.ms ∧ running.tether.lineSince = none := by decide
theorem witness_yield_refused : taking.tether.yieldReq = some 4 ∧ running.tether.yieldReq = none ∧ (taking.tether.heart.map (·.claiming)) = some true := by decide
theorem witness_pref_conflict : bridleRuns taking = true ∧ (taking.tether.heart.map (·.preferred)) = some (preferredSw taking) ∧ taking.tether.prefAt = none ∧
    running.tether.heart = none := by decide
theorem witness_transfer_times : (standby (.receiving 40)).tether.recv = .receiving 40 ∧ (standby (.retry 100)).tether.recv = .retry 100 ∧
    running.tether.recv = .none := by decide

/-! ## The window, pages and updates -/

/-- A module whose window holds the given state. -/
def windowed (w : WinSt) : State := { running with win := w }
theorem witness_own_slot : InOwnSlot (windowed { winReset with alive := true }) 0x14FF 1 4 ∧ InOwnSlot (windowed { winReset with alive := true }) 0x74FFF 1 111 := by
  unfold InOwnSlot
  exact ⟨⟨by decide, by decide, fun j h => by obtain rfl : j = 0 := by omega
                                              decide, by decide⟩,
         ⟨by decide, by decide, fun j h => by obtain rfl : j = 0 := by omega
                                              decide, by decide⟩⟩
theorem witness_discarded : winPlace 0xFF = .device ∧ winPlace 0x1500 = .slot 5 ∧ winFlag (slotWin []) 5 ≠ ownGATEWAY := by decide
theorem witness_flag : winPlace 0x100 = .flag 0 ∧ winPlace 0x16F = .flag 111 ∧ winFlag (slotWin []) 0 = ownGATEWAY := by decide
theorem witness_port : (slotWin []).alive = true ∧ winReset.alive = false ∧ bridleRuns running = true ∧ portCode 0 = false := by decide

/-- The 63 words before CHECK of a request to block cell 0xF20. -/
def blockRequest : List Word := [0x04000000, 0x77, 0, 0, 0xF20] ++ List.replicate 58 0
def sealedMem (c : Word) : List Host.Cell := memPutWord (memPutWords [] (reqAddr 5) blockRequest) (reqAddr 5 + 252) c
theorem sealed_words (c : Word) : reqWords { slotWin [] with mem := sealedMem c } 5 = blockRequest ++ [c] := by
  show (numsFrom 0 63 ++ [63]).map (fun k => memWord (sealedMem c) (reqAddr 5 + 4 * k)) = _
  rw [List.map_append]
  congr 1
  · rw [show blockRequest = (numsFrom 0 63).map (fun k => memWord (memPutWords [] (reqAddr 5) blockRequest) (reqAddr 5 + 4 * k)) by decide +kernel]
    refine List.map_congr_left fun k hk => ?_
    have hk : k < 63 := by revert k; decide
    exact memWord_memPutWord_apart _ _ _ _ (.inr (by omega))
  · simp only [List.map_cons, List.map_nil]
    exact congrArg (fun w => [w]) (memWord_memPutWord_same _ _ _)
/-- SAFE with that request in slot 5. -/
def polled : State := { windowed { slotWin [] with mem := sealedMem (slotCheck (reqAddr 5) blockRequest) } with mode := .safe }
theorem witness_poll_record : recordOk (reqAddr 5) (reqWords polled.win 5) .block = true := by
  show recordOk _ (reqWords { slotWin [] with mem := sealedMem _ } 5) _ = true
  rw [sealed_words]
  generalize hc : slotCheck (reqAddr 5) blockRequest = c
  have ht : (blockRequest ++ [c]).take 63 = blockRequest := rfl
  unfold recordOk
  rw [ht, hc]
  have hk : ∀ k, k < 63 → (blockRequest ++ [c]).getD k 0 = blockRequest.getD k 0 := fun k h => List.getD_append _ _ _ _ (by simpa [blockRequest] using h)
  simp only [show (blockRequest ++ [c]).getD 63 0 = c from rfl, decide_true, numsFrom, List.all_cons, List.all_nil, hk, Nat.reduceAdd, Nat.reduceLT]
  decide +kernel
theorem witness_poll : cyclesRun polled = false ∧ polled.win.alive = true ∧ polled.win.take = 5 ∧ winFlag polled.win 5 = ownDEVICE ∧
    winFlag polled.win 6 = ownGATEWAY ∧ polled.win.delivered.contains 5 = false ∧ polled.win.bridle.contains 5 = false ∧ cmdRole .block = none := by decide
theorem witness_poll_command : reqCmd (reqWords polled.win 5) = some .block := by
  show reqCmd (reqWords { slotWin [] with mem := sealedMem _ } 5) = _
  rw [sealed_words]; rfl
/-- A window with pages with the device, and a signed request in slot 5. -/
def signed : State :=
  { windowed { slotWin (req 0xB 0 0) with flags := [(5, ownDEVICE), (79, ownDEVICE), (111, ownDEVICE)], stgSince := [(31, 1)] }
    with ao := { running.ao with ms := 10000 } }
theorem witness_signed : reqCmd (reqWords signed.win 5) = some .clearRecorder ∧ (cmdRole .clearRecorder).isSome = true ∧ slotChecked signed.win 5 = none ∧
    signed.win.bridle.contains 5 = false ∧ signed.win.delivered.contains 5 = false := by decide +kernel
theorem witness_pages : pageNamed 31 running = false ∧ getA 0 running.win.stgSince 31 = 0 ∧ winFlag signed.win (flSTG + 31) = ownDEVICE ∧ getA 0 signed.win.stgSince 31 = 0 + 1 ∧ pageNamed 31 signed = false ∧
    winFlag signed.win (flREC + 15) = ownDEVICE := by decide +kernel
/-- Slot 5 is with the bridle. -/
def atBridle (cmd a4 a5 a6 : Word) (f : State → State) : State :=
  f { windowed { slotWin (req cmd a4 a5 ++ [a6]) with bridle := [5], flags := [(5, ownDEVICE), (111, ownDEVICE)] }
      with carrier := some carrierShipped, ao := { running.ao with contacts := permits }, tail := { tailReset with running := true } }
theorem witness_clear : bridleSlot .clearRecorder 5 (atBridle 0xB 0 0 0 id) = true ∧
    clearStaged (reqWords (atBridle 0xB 0 0 0 id).win 5) (atBridle 0xB 0 0 0 id).tail = false ∧
    spFull stagingDepth (atBridle 0xB 0 0 0 id).tail.staging = false ∧ (atBridle 0xB 0 0 0 id).tail.running = true ∧
    (atBridle 0xB 0 0 0 id).tail.staging.stalled = [] ∧ bridleSlot .clearRecorder 5 running = false := by decide +kernel
/-- Staging is open. -/
def staging (s : State) : State := { s with update := { s.update with staging := true } }
theorem witness_stage_open : stageReady 1 5 (atBridle 0xC 1 0 0 id) = true ∧ stageBarred (atBridle 0xC 1 0 0 id) = false ∧
    permitOn (atBridle 0xC 1 0 0 id) swUPDATE = true ∧ stageBarred { running with mode := .wake } = true ∧
    permitOn running swUPDATE = false ∧ stageReady 1 5 running = false ∧ (atBridle 0xC 1 0 0 id).carrier.isSome = true := by decide +kernel
/-- A carrier whose slot B waits to be activated. -/
def pendingB : Carrier := writeEntry { commitDefault with state := csPENDING, slotB := true } carrierShipped
theorem witness_stage_open_pending : (newestEntry pendingB).state = csPENDING ∧ targetSlotB pendingB = true ∧ (newestEntry carrierShipped).state ≠ csPENDING := by
  decide +kernel
theorem witness_stage_write : stageReady 2 5 (atBridle 0xC 2 0x1000 0x11F staging) = true ∧
    stageWriteOk (reqWords (atBridle 0xC 2 0x1000 0x11F staging).win 5) (atBridle 0xC 2 0x1000 0x11F staging) = true ∧
    stageWriteOk (reqWords (atBridle 0xC 2 0x1000 0x11F id).win 5) (atBridle 0xC 2 0x1000 0x11F id) = false := by decide +kernel
theorem witness_stage_close : stageReady 3 5 (atBridle 0xC 0x103 0 0 staging) = true ∧ (atBridle 0xC 0x103 0 0 staging).update.staging = true ∧
    (atBridle 0xC 0x103 0 0 id).update.staging = false := by decide +kernel
/-- A trial of 1000 fault-free cycles within its window. -/
def onTrial (s : State) : State :=
  { s with overlays := { s.overlays with probation := true }, update := { s.update with clean := 1000 },
           carrier := some (writeEntry { commitDefault with state := csTRIAL, slotB := true } carrierShipped) }
theorem witness_confirm : bridleSlot .confirmUpdate 5 (atBridle 0xD 0 0 0 onTrial) = true ∧ confirmTest (atBridle 0xD 0 0 0 onTrial) = 0 ∧
    confirmTest (atBridle 0xD 0 0 0 id) = upNOTTRIAL := by decide +kernel
def busy (op : CarrierOp) : State := atBridle 0xC 3 0 0 (fun s => { s with update := { s.update with op := op, pages := [31] } })
theorem witness_operations : (busy (.open_ 5)).update.op = .open_ 5 ∧ (busy (.write 5)).update.op = .write 5 ∧
    (busy (.close 5 true 72)).update.op = .close 5 true 72 ∧ (busy (.confirm 5)).update.op = .confirm 5 ∧ (busy .switched).update.op = .switched ∧
    (busy (.close 5 true 72)).carrier = some carrierShipped ∧ running.update.op = .none := ⟨rfl, rfl, rfl, rfl, rfl, rfl, rfl⟩
/-- A CLOSE whose image passes, is not older than the stored data format, and has its keys and permit, is refused nothing. -/
theorem close_accepts {img : SlotImg} {a : Bool} {s : State} {c : Carrier}
    (h : slotFails s.recordKey s.versions (stationNo s) (targetSlotB c) img = none) (hk : img.keysOpen = true)
    (hf : (slotPdFormat (slotOf c (activeSlotB c))).toNat < (slotPdOldest img).toNat ↔ False) : closeTest img a true s c = 0 := by
  unfold closeTest
  rw [h]
  simp [hk, hf]
theorem target_shipped : targetSlotB carrierShipped = true := by decide +kernel
theorem good_format : (slotPdOldest goodSlot).toNat = 0 := by decide +kernel
theorem witness_close : closeTest goodSlot true true (busy (.close 5 true 72)) carrierShipped = 0 := by
  refine close_accepts ?_ rfl ?_
  · rw [target_shipped]
    exact good_slot
  · simp [good_format]
theorem witness_close_refused : closeTest slotEmpty true true (busy (.close 5 true 72)) carrierShipped = upMANIFEST := by
  unfold closeTest
  rw [target_shipped]
  decide +kernel

/-! ## The tail -/

/-- A record of the staging spool. -/
def rec_ (q : LogReq) : StageRec := { utc := 1, req := q, suppressed := 0, timeValid := false, mode := 3, cycle := 7 }
def recordOf (code : BitVec 16) : LogReq := { code := code, unit_ := 4, place := 0, index := 0, data := 0 }
def logging (q : LogReq) : State :=
  atBridle 0xB 0 0 0 (fun s =>
    { s with tail := { s.tail with running := true, staging := { spEmpty stageNone with items := [rec_ q, rec_ q] }, newest := some (logSlots - 1, 9), eraseDue := some 7 } })
theorem witness_tail_record : (logging (recordOf cdFORCE)).tail.running = true ∧ (logging (recordOf cdFORCE)).tail.staging.readPos = 0 ∧
    (logging (recordOf cdFORCE)).tail.staging.openPkt = none ∧
    (logging (recordOf cdFORCE)).tail.eraseDue ≠ some ((nextSlot (logging (recordOf cdFORCE)).tail).1 / blockSlots) ∧ (logging (recordOf cdFORCE)).tail.staging.items = rec_ (recordOf cdFORCE) :: [rec_ (recordOf cdFORCE)] ∧
    nextSlot (logging (recordOf cdFORCE)).tail = (0, 10) ∧ (logging (recordOf cdFORCE)).tail.eraseDue = some 7 ∧ (recordOf cdFORCE).code ≠ cdCLEAR := by decide +kernel
theorem witness_tail_clear : clearRecord (reqWords (logging (recordOf cdCLEAR)).win 5) = recordOf cdCLEAR ∧ (logging (recordOf cdCLEAR)).win.bridle = [5] ∧
    reqCmd (reqWords (logging (recordOf cdCLEAR)).win 5) = some .clearRecorder := by decide +kernel
/-- A code with 4 suppressed records for 60 s. -/
def suppressing : State :=
  { running with ao := { running.ao with ms := 60000 }, tail := { tailReset with running := true, suppressed := [(cdFORCE.toNat, 4)], supSince := [(cdFORCE.toNat, 1)] } }
theorem witness_suppressed : getA 0 suppressing.tail.suppressed cdFORCE.toNat = 3 + 1 ∧ getA 0 suppressing.tail.supSince cdFORCE.toNat = 0 + 1 ∧
    suppressing.tail.running = true ∧ 0 + 60000 ≤ suppressing.ao.ms ∧ spFull stagingDepth suppressing.tail.staging = false := by decide
theorem witness_rtc : suppressing.tail.rtcAt + 60000 ≤ suppressing.ao.ms ∧ running.tail.running = false := by decide

/-! ## Spools, check units and counters -/

/-- Event items read past a mark, an open packet of class D, and a staging spool with a stalled write. -/
def spooled (mark : Option Nat) (open_ : Bool) : State :=
  onA (fun x => { x with evSpool := { x.evSpool with items := [1, 2, 3], readPos := 2, mark := mark } })
    { linked with links := { linked.links with txD := [(0, { spEmpty linkTelZero with openPkt := if open_ then some { buf := 0, bytes := 0 } else none })] },
                  tail := { tailReset with staging := { spEmpty stageNone with stalled := [stageNone] } } }
theorem witness_spools : spoolRuns (.event .a) (spooled (some 1) true) = true ∧ (dieOf (spooled (some 1) true) .a).evSpool.mark = some 1 ∧
    (dieOf (spooled none true) .a).evSpool.mark = none ∧ spoolRuns (.txS .t) (spooled none true) = true ∧ spoolRuns .staging (spooled none true) = true ∧
    spoolRuns (.outbox .a 0xF20) (spooled none true) = true ∧ spoolRuns (.event .a) State.reset = false := by decide
theorem witness_packets : linksRun (spooled none true) = true ∧ (viewOf (spooled none true) (.txD .t)).stalled = 0 ∧
    (viewOf (spooled none true) (.txD .t)).openPkt = true ∧ (viewOf (spooled none false) (.txD .t)).openPkt = false ∧
    (viewOf (spooled none false) (.txD .t)).items < txDDepth ∧ (spoolTxD (spooled none true).links .t).openPkt = some { buf := 0, bytes := 0 } := by decide
theorem witness_units : bridleRuns running = true ∧ unitOwner .carrier = some .p0 ∧ unitOwner .window = some .p1 ∧ bridleRuns State.reset = false := by decide
/-- Region 15 counts clocks on counter 7 and jumps on counter 0, with samples. -/
def counting (sel0 stat : Word) (ring : Nat) : State :=
  { on15 (fun g => { g with pmc := { g.pmc with selA := sel0, stat := stat, ring := List.replicate ring 0, cycHi := 1 } }) running
    with pmcActive := [0x003C0000] }
theorem witness_counter_wraps : pmcSel (reg (dieOf (counting 2 0 0) .a) 15).pmc 0 ≠ 0 ∧ pmcCounted 2 = false ∧ (reg (dieOf (counting 2 0 0) .a) 15).halted = false ∧
    bitOf (reg (dieOf (counting 2 0 0) .a) 15).pmc.stat 16 = false := by decide
theorem witness_sample : pmcCounted (pmcSel (reg (dieOf (counting 1 0x00010001 32) .a) 15).pmc 0) = true ∧ pmcPair (counting 1 0x00010001 32).pmcActive = 16 * dieIndex .a + 15 ∧
    bitOf (reg (dieOf (counting 1 0x00010001 32) .a) 15).pmc.stat 16 = true ∧ (reg (dieOf (counting 1 0x00010001 30) .a) 15).pmc.ring.length < 32 := by decide

/-! ## What every step keeps -/

theorem witness_steps_keep : ClaimDiscipline State.reset ∧ ClaimDiscipline running ∧ running.pending = [] := by unfold ClaimDiscipline; decide
theorem witness_memory_canonical : MemoryCanonical running := by
  refine ⟨fun d r => ?_, by decide, by decide⟩
  have h : ∀ d, ∀ g ∈ (dieOf running d).regions.toList, Memory.wf g.mem = true := by intro d; cases d <;> decide
  unfold reg
  by_cases hr : r < 16
  · exact h d _ (by simp [hr])
  · simp [hr]; decide
theorem witness_trip_latch : tripped.ao.tripLatch = true ∧ tripped.pending = [] := by decide
theorem witness_rule_code : isRuleCode (.lui .a 15 1 0) = true ∧ exec (.illegal .a 16 0) running = .next running := ⟨rfl, rfl⟩

/-! ## Status LEDs (20 Table 20.8) -/

/-- BRIDLE_BIST, 0x0D, lights RUN, ACT and MNT, with DEG dark: the example of 20 R513. -/
theorem test_leds_refused : ledsOf { running with mode := .safe, heldForm := true, refused := 0x0D } =
    { pwr := .on, run := .on, act := .on, deg := .dark, mnt := .on, flt := .flash1 } := by decide
theorem test_leds_active : ledsOf running = { pwr := .on, run := .on, act := .on, deg := .dark, mnt := .dark, flt := .dark } := by decide
end Sys2Proof.Tests
end

/-!
PROOFS. Posted sources, exclusions and halts, an instruction that completes, and loads with SECDED (01 R37): O5.
-/

namespace Sys2Proof.Machine

/-! ## Regions of a die -/

theorem reg_modReg (x : DieSt) (r q : Nat) (f : RegionSt → RegionSt) :
    reg (modReg x r f) q = if q = r ∧ r < 16 then f (reg x r) else reg x q := by
  by_cases hq : q = r
  · subst hq
    by_cases hr : q < 16
    · simp [hr, reg_modReg_self x hr]
    · simp [hr, reg, modReg, setReg]
  · simp [hq, reg_modReg_other x hq]

/-! ## Posted sources -/

/-- Two dies differ at most in the sources posted to their regions (05 R183). -/
def PostsOnly (x y : DieSt) : Prop := RegionsOnly x y ∧ ∀ q, reg y q = { reg x q with posted := (reg y q).posted }

theorem PostsOnly.refl (x : DieSt) : PostsOnly x x := ⟨rfl, fun _ => rfl⟩

theorem PostsOnly.trans {x y z : DieSt} (h : PostsOnly x y) (k : PostsOnly y z) : PostsOnly x z :=
  ⟨h.1.trans k.1, fun q => by rw [k.2 q, h.2 q]⟩

theorem postEvent_only (r src : Nat) (x : DieSt) : PostsOnly x (postEvent r src x) := by
  refine ⟨rfl, fun q => ?_⟩
  unfold postEvent
  rw [reg_modReg]
  split
  · rename_i h
    rw [h.1]
  · rfl

theorem postAll_only (src : Nat) (x : DieSt) : PostsOnly x (postAll src x) :=
  List.foldlRecOn _ _ (PostsOnly.refl x) fun y hy r _ => hy.trans (postEvent_only r src y)

theorem postEvery_posts (src : Nat) (s : State) (e : Die) : PostsOnly (dieOf s e) (dieOf (postEvery src s) e) := by
  unfold postEvery
  rw [dieOf_onDies]
  exact postAll_only src _

theorem setOverlays_posts (o : Overlays) (s : State) (e : Die) : PostsOnly (dieOf s e) (dieOf (setOverlays o s) e) := by
  unfold setOverlays
  dsimp only
  split
  · exact PostsOnly.refl _
  · exact postEvery_posts 0xC6 { s with overlays := overlaysIn s.mode s.overlays o } e

theorem abortChange_posts (k : BitVec 8) (s : State) (e : Die) : PostsOnly (dieOf s e) (dieOf (abortChange k s) e) := by
  unfold abortChange
  split
  · exact PostsOnly.refl _
  · exact setOverlays_posts _ { s with change := { s.change with phase := .none, code := k, loaded := triAll false } } e

/-! ## Exclusion of a copy (06 R215) -/

/-- An exclusion posts the changes of the overlays to the dies and changes nothing else of them. -/
theorem excludeCopy_posts (d : Die) (r : Nat) (c : ExclCause) (s : State) (e : Die) :
    PostsOnly (dieOf s e) (dieOf (excludeCopy d r c s) e) := by
  unfold excludeCopy
  split
  · exact PostsOnly.refl _
  · have h := setOverlays_posts { s.overlays with degraded := true }
      (onVote (modCopy d r (fun q => { q with excluded := some c, rejoin := .none })) s) e
    exact h.trans (abortChange_posts chABORTED _ e)

/-- In the voter an exclusion marks its copy, where it is not excluded yet. -/
theorem excludeCopy_vote (d : Die) (r : Nat) (c : ExclCause) (s : State) :
    (excludeCopy d r c s).vote =
      if isExcluded (copyOf s.vote d r) then s.vote else modCopy d r (fun q => { q with excluded := some c, rejoin := .none }) s.vote := by
  unfold excludeCopy
  split
  · rfl
  · simp only [logOpen, logPut, onTail]
    rw [abortChange_eq, setOverlays_eq]
    rfl

theorem copyOf_modCopy (v : VoteSt) (d e : Die) (r q : Nat) (f : Copy → Copy) :
    copyOf (modCopy d r f v) e q = if e = d ∧ q = r ∧ r < 16 then f (copyOf v d r) else copyOf v e q := by
  unfold modCopy putCopy copyOf
  by_cases he : e = d
  · subst he
    by_cases hq : q = r
    · subst hq
      by_cases hr : q < 16 <;> simp [hr]
    · have hq' : r ≠ q := fun h => hq h.symm
      simp [hq, hq']
  · simp [he, triGet_triMod_other _ _ he]

theorem excludeCopy_excluded {r : Nat} (hr : r < 16) (d : Die) (c : ExclCause) (s : State) :
    isExcluded (copyOf (excludeCopy d r c s).vote d r) = true := by
  rw [excludeCopy_vote]
  split
  · assumption
  · rw [copyOf_modCopy, if_pos ⟨rfl, rfl, hr⟩]
    rfl

theorem dieOf_logOpen (c : BitVec 16) (u p i : Nat) (k : BitVec 64) (s : State) (d : Die) : dieOf (logOpen c u p i k s) d = dieOf s d := rfl

/-! ## A halt of a region (01 R39) -/

theorem regions_idleClock (x : DieSt) : (idleClock x).regions = x.regions := by
  unfold idleClock
  split <;> rfl

theorem reg_of_regions {x y : DieSt} (h : y.regions = x.regions) (q : Nat) : reg y q = reg x q := by
  unfold reg
  rw [h]

theorem reg_dropRegion (r q : Nat) (x : DieSt) : reg (dropRegion r x) q = reg x q := rfl

theorem reg_haltRegion_self {r : Nat} (hr : r < 16) (d : Die) (s : State) :
    reg (dieOf (haltRegion d r s) d) r = { reg (dieOf s d) r with halted := true, task := 0, revert := false } := by
  unfold haltRegion
  rw [dieOf_onDie_self, reg_of_regions (regions_idleClock _), reg_dropRegion, reg_modReg_self _ hr]

/-! ## An instruction that completes (05 R188) -/

/-- An instruction that has taken effect on registers alone and falls through: charge and PC have moved on, and what its effect `z`
gives the registers stands. -/
theorem runRule_ok {s : State} {d : Die} {r c kind : Nat} {f : Ctx → DieSt → InsRes} {z : DieSt} (hft : FallsThrough s d r c)
    (hf : f (ctxOf s) (addCharge r c (dieOf s d)) = .ok z) (hz : SameButRegion r (addCharge r c (dieOf s d)) z)
    (hro : RegistersOnly (reg (addCharge r c (dieOf s d)) r) (reg z r)) (hpc : curPc z r = curPc (addCharge r c (dieOf s d)) r)
    (hch : curCharge z r = curCharge (addCharge r c (dieOf s d)) r) :
    (∀ k, rget (dieOf (runRule d r c kind f s) d) r k = rget z r k) ∧ Advances r c (dieOf s d) (dieOf (runRule d r c kind f s) d) ∧
      RegistersOnly (reg (dieOf s d) r) (reg (dieOf (runRule d r c kind f s) d) r) ∧ RegionStep d r s (runRule d r c kind f s) := by
  obtain ⟨hgo, hlo, hhi⟩ := hft
  have hr := insGoes_lt hgo
  obtain ⟨hcan, hbud⟩ : canRun (dieOf s d) r = true ∧ curCharge (dieOf s d) r + c ≤ curBudget (ctxOf s) (dieOf s d) r := by
    simpa [insGoes] using hgo
  obtain ⟨haS, haR, -, haPc, haCh, -⟩ := addCharge_only hr c (dieOf s d)
  -- the two counters of retired instructions
  obtain ⟨h1S, h1C⟩ := pmcCount_only hr 0x01 z
  obtain ⟨h2S, h2C⟩ := pmcCount_only hr kind (pmcCount r 0x01 z)
  generalize hw : pmcCount r kind (pmcCount r 0x01 z) = w at h2S h2C
  have hzw : SameButRegion r z w := h1S.trans h2S
  have hC : CountsOnly (reg z r) (reg w r) := h1C.trans h2C
  have hSw : SameButRegion r (dieOf s d) w := (haS.trans hz).trans hzw
  have hRw : RegistersOnly (reg (dieOf s d) r) (reg w r) := (haR.trans hro).trans hC.registersOnly
  obtain ⟨hget, hwPc, hwCh, -⟩ := countsOnly_reads (show w.strap = z.strap by rw [hzw.1]) hC
  have hpcw : curPc w r = curPc (dieOf s d) r := by rw [hwPc, hpc, haPc]
  have hlen : codeLen w r = codeLen (dieOf s d) r :=
    codeLen_congr hSw.active_eq hRw.revert_eq (by rw [hRw.1]) hRw.mem_eq
  -- the next PC
  obtain ⟨hpS, hpR, hpGet, hpPc, hpCh, -⟩ := setPc_only hr (curPc w r + 4) w
  have hrun : runIns (ctxOf s) r c kind (f (ctxOf s)) (dieOf s d) = setPc r (curPc w r + 4) w := by
    have := runIns_ok (k := kind) hcan hbud hf (by rw [hw, hpcw]; omega) (by rw [hw, hpcw, hlen]; omega)
    rwa [hw] at this
  have hdie : dieOf (runRule d r c kind f s) d = { setPc r (curPc w r + 4) w with logOut := [] } := by
    unfold runRule
    rw [dieOf_takeDieLogs, dieOf_onDie_self, hrun]
  refine ⟨fun k => ?_, ⟨?_, ?_⟩, ?_, regionStep_of ?_⟩
  · rw [hdie]
    exact (hpGet k).trans (hget k)
  · rw [hdie, ← hpcw]
    exact hpPc
  · rw [hdie, ← haCh, ← hch, ← hwCh]
    exact hpCh
  · rw [hdie]
    exact hRw.trans hpR
  · rw [hrun]
    exact hSw.trans hpS

/-! ## Loads (05 R188) -/

theorem atPc_of_fetched {i : Instr} {s : State} {d : Die} {r : Nat} {w : Word} (hF : Fetched i s) (hw : insWord i = some (d, r, w))
    (f : State → State) : atPc d r w f s = f s := if_pos (hF d r w hw)

/-- The three loads of Table 5.7 are one operation. -/
theorem exec_load {i : Instr} {s : State} {d : Die} {r : Nat} {rd : BitVec 4} {a n : Nat} {e : Ecc}
    (hl : loadOf s i = some (d, r, rd, a, n, e)) (hF : Fetched i s) :
    ∃ (ra : BitVec 4) (imm : BitVec 18), memAddr s d r ra imm = a ∧ (n = 1 ∨ n = 2 ∨ n = 4) ∧
      exec i s = .next (ruleLoad d r rd.toNat ra.toNat imm n e s) := by
  unfold loadOf at hl
  split at hl
  case h_4 => cases hl
  all_goals
    simp only [Option.some.injEq, Prod.mk.injEq] at hl
    obtain ⟨rfl, rfl, rfl, rfl, rfl, rfl⟩ := hl
    refine ⟨_, _, rfl, by decide, ?_⟩
    exact congrArg Host.Outcome.next (atPc_of_fetched hF rfl _)

theorem loadTrap_none {x : DieSt} {r a n : Nat} (h : loadTrap x r a n = none) :
    a % n = 0 ∧ loadArea x r a ≠ .none ∧ loadArea x r a ≠ .sup := by
  unfold loadTrap at h
  split at h <;> [cases h; skip]
  split at h <;> [cases h; skip]
  split at h <;> [cases h; skip]
  exact ⟨by omega, ‹_›, ‹_›⟩

theorem loadArea_congr {x y : DieSt} {r : Nat} (h : inRevert y r = inRevert x r) (a : Nat) : loadArea y r a = loadArea x r a := by
  unfold loadArea
  rw [h]

theorem loadArea_eq_mem_iff (x : DieSt) (r a : Nat) :
    loadArea x r a = .mem ↔
      (memDATA ≤ a ∧ a < memSUP) ∨ (inRevert x r = true ∧ memSCRATCH ≤ a ∧ a < memSCRATCH + 0x400) := by
  unfold loadArea
  simp only [Bool.and_eq_true, decide_eq_true_eq]
  split_ifs <;> simp_all

/-- An aligned access lies in region memory with every byte. -/
theorem loadArea_mem_add {x : DieSt} {r a n k : Nat} (hn : n = 1 ∨ n = 2 ∨ n = 4) (ha : a % n = 0) (hk : k < n)
    (h : loadArea x r a = .mem) : loadArea x r (a + k) = .mem ∧ memDATA ≤ a + k := by
  have h4 : a / 4 = (a + k) / 4 := by rcases hn with rfl | rfl | rfl <;> omega
  rw [loadArea_eq_mem_iff] at h ⊢
  unfold memDATA memSUP memSCRATCH at *
  refine ⟨h.imp (fun h => by omega) fun ⟨hv, h⟩ => ⟨hv, by omega⟩, by omega⟩

/-- A load of region memory gives the bytes that memory holds (01 R20). -/
theorem loadByte_mem (cx : Ctx) {x : DieSt} {r a : Nat} (h : loadArea x r a = .mem) (ha : memDATA ≤ a) :
    loadByte cx x r a = memByte (reg x r).mem a := by
  unfold loadByte heldByte
  simp only [h, if_neg (Nat.not_lt.mpr ha), BitVec.xor_assoc, BitVec.xor_self, BitVec.xor_zero]

theorem extract_leWord (b0 b1 b2 b3 : Byte) :
    (leWord b0 b1 b2 b3).extractLsb' 0 8 = b0 ∧ (leWord b0 b1 b2 b3).extractLsb' 8 8 = b1 ∧
      (leWord b0 b1 b2 b3).extractLsb' 16 8 = b2 ∧ (leWord b0 b1 b2 b3).extractLsb' 24 8 = b3 := by
  unfold leWord
  refine ⟨?_, ?_, ?_, ?_⟩ <;>
  · apply BitVec.eq_of_getLsbD_eq
    intro i hi
    simp only [BitVec.getLsbD_extractLsb', BitVec.getLsbD_append, hi, decide_true, Bool.true_and]
    simp [hi, show 16 + i - 8 - 8 = i by omega, show 24 + i - 8 - 8 - 8 = i by omega, show ¬ 8 + i < 8 by omega,
      show ¬ 16 + i < 8 by omega, show ¬ 16 + i - 8 < 8 by omega, show ¬ 24 + i < 8 by omega,
      show ¬ 24 + i - 8 < 8 by omega, show ¬ 24 + i - 8 - 8 < 8 by omega]

/-- A load is little-endian (00 R10). -/
theorem extract_loadN (cx : Ctx) (x : DieSt) (r a : Nat) {n k : Nat} (hn : n = 1 ∨ n = 2 ∨ n = 4) (hk : k < n) :
    (loadN cx x r a n).extractLsb' (8 * k) 8 = loadByte cx x r (a + k) := by
  unfold loadN
  obtain ⟨h0, h1, h2, h3⟩ := extract_leWord (loadByte cx x r a) (if 1 < n then loadByte cx x r (a + 1) else 0)
    (if 2 < n then loadByte cx x r (a + 2) else 0) (if 3 < n then loadByte cx x r (a + 3) else 0)
  have hk4 : k = 0 ∨ k = 1 ∨ k = 2 ∨ k = 3 := by omega
  rcases hk4 with rfl | rfl | rfl | rfl
  · exact h0
  · exact h1.trans (if_pos hk)
  · exact h2.trans (if_pos hk)
  · exact h3.trans (if_pos hk)

/-- A load without a trap cause puts what it reads into rd. -/
theorem insLoad_ok (cx : Ctx) {x : DieSt} {r n : Nat} (rd ra : Nat) (imm : BitVec 18) {a : Nat}
    (ha : (rget x r ra + imm.signExtend 32).toNat = a) (h : loadTrap x r a n = none) :
    insLoad cx r rd ra imm n x = .ok (rset r rd (loadN cx x r a n) x) := by
  obtain ⟨hal, hnone, hsup⟩ := loadTrap_none h
  unfold insLoad
  rw [ha, if_neg (not_not_intro hal)]
  cases hA : loadArea x r a with
  | none => exact absurd hA hnone
  | sup => exact absurd hA hsup
  | mem | rr | ds => rfl

/-- A load that meets no trap cause and falls through. -/
theorem runRule_load {s : State} {d : Die} {r n kind : Nat} (rd ra : BitVec 4) (imm : BitVec 18) (hft : FallsThrough s d r 12)
    (ht : loadTrap (dieOf s d) r (memAddr s d r ra imm) n = none) :
    let t := runRule d r 12 kind (fun cx x => insLoad cx r rd.toNat ra.toNat imm n x) s
    (∀ k, rget (dieOf t d) r k = if k = rd.toNat then
        (if rd.toNat = 0 then 0 else loadN (ctxOf s) (addCharge r 12 (dieOf s d)) r (memAddr s d r ra imm) n) else rget (dieOf s d) r k) ∧
      Advances r 12 (dieOf s d) (dieOf t d) ∧ RegistersOnly (reg (dieOf s d) r) (reg (dieOf t d) r) ∧ RegionStep d r s t := by
  have hr := insGoes_lt hft.1
  obtain ⟨-, -, haGet, -, -, haRev⟩ := addCharge_only hr 12 (dieOf s d)
  have ht' : loadTrap (addCharge r 12 (dieOf s d)) r (memAddr s d r ra imm) n = none := by
    unfold loadTrap at ht ⊢
    rwa [loadArea_congr haRev]
  have hf := insLoad_ok (ctxOf s) (a := memAddr s d r ra imm) rd.toNat ra.toNat imm
    (congrArg (fun w => (w + imm.signExtend 32).toNat) (haGet ra.toNat)) ht'
  obtain ⟨hzS, hzR, hzPc, hzCh, -⟩ := rset_only hr rd.toNat (loadN (ctxOf s) (addCharge r 12 (dieOf s d)) r (memAddr s d r ra imm) n)
    (addCharge r 12 (dieOf s d))
  obtain ⟨hget, hadv, hregs, hstep⟩ := runRule_ok (kind := kind) (f := fun cx x => insLoad cx r rd.toNat ra.toNat imm n x)
    hft hf hzS hzR hzPc hzCh
  refine ⟨fun k => ?_, hadv, hregs, hstep⟩
  rw [hget k, rget_rset hr, haGet k]

/-! ## SECDED at a load (01 R37) -/

/-- A load that meets no trap cause in region memory reads it, with what SECDED makes of the read. -/
theorem ruleLoad_mem {s : State} {d : Die} {r n : Nat} {rd ra : BitVec 4} {imm : BitVec 18} (e : Ecc) (hgo : insGoes s d r 12 = true)
    (ht : loadTrap (dieOf s d) r (memAddr s d r ra imm) n = none) (hm : loadArea (dieOf s d) r (memAddr s d r ra imm) = .mem) :
    ruleLoad d r rd.toNat ra.toNat imm n e s =
      if e = .uncorrectable then eccEvent d r (memAddr s d r ra imm) e s
      else eccEvent d r (memAddr s d r ra imm) e (runRule d r 12 knLDST (fun cx x => insLoad cx r rd.toNat ra.toNat imm n x) s) := by
  have hal := (loadTrap_none ht).1
  unfold ruleLoad
  simp only [show (rget (dieOf s d) r ra.toNat + imm.signExtend 32).toNat = memAddr s d r ra imm from rfl, hgo, hal, hm, decide_true,
    Bool.true_and, decide_eq_true_eq, if_true]

theorem eccEvent_corrected {r : Nat} (hr : r < 16) (d : Die) (a : Nat) (s : State) :
    reg (dieOf (eccEvent d r a .corrected s) d) r =
        { reg (dieOf s d) r with eccCorrected := (reg (dieOf s d) r).eccCorrected + 1, eccAddr := BitVec.ofNat 32 a } ∧
      (dieOf (eccEvent d r a .corrected s) d).strap = (dieOf s d).strap := by
  unfold eccEvent
  simp only [dieOf_onDie_self, reg_modReg_self _ hr, strap_modReg, and_self]

theorem eccEvent_uncorrectable {r : Nat} (hr : r < 16) (d : Die) (a : Nat) (s : State) :
    isExcluded (copyOf (eccEvent d r a .uncorrectable s).vote d r) = true ∧
      ∃ p, reg (dieOf (eccEvent d r a .uncorrectable s) d) r =
        { reg (dieOf s d) r with eccAddr := BitVec.ofNat 32 a, halted := true, task := 0, revert := false, posted := p } := by
  refine ⟨excludeCopy_excluded hr _ _ _, ?_⟩
  have hh := reg_haltRegion_self hr d (onDie d (fun x => modReg x r (fun g => { g with eccAddr := BitVec.ofNat 32 a })) s)
  rw [dieOf_onDie_self, reg_modReg_self _ hr] at hh
  refine ⟨(reg (dieOf (eccEvent d r a .uncorrectable s) d) r).posted, ((excludeCopy_posts d r .halted _ d).2 r).trans ?_⟩
  rw [dieOf_logOpen, hh]
  rfl

/-- Settles O5: both clauses turn on `ruleLoad_mem`; a corrected read is the load with its count on top, an uncorrectable one the halt and
the exclusion in place of the load. -/
theorem secdedCorrectsOrHalts : Obligations.SecdedCorrectsOrHalts := by
  intro i s d r rd a n e hl ht hm hft
  have hr := insGoes_lt hft.1
  constructor
  · rintro rfl hF
    obtain ⟨ra, imm, rfl, hn, hx⟩ := exec_load hl hF
    refine ⟨_, hx, ?_⟩
    rw [ruleLoad_mem .corrected hft.1 ht hm, if_neg (by decide)]
    obtain ⟨hget, ⟨hpc, hch⟩, hregs, -⟩ := runRule_load (kind := knLDST) rd ra imm hft ht
    generalize runRule d r 12 knLDST _ s = t at *
    obtain ⟨hecc, hstrap⟩ := eccEvent_corrected hr d (memAddr s d r ra imm) t
    obtain ⟨haS, haR, -, -, -, haRev⟩ := addCharge_only hr 12 (dieOf s d)
    refine ⟨?_, by rw [hecc], fun hrd k hk => ?_, ?_, ?_⟩
    · rw [hecc, hregs.1]
    · have hrd' : rd.toNat ≠ 0 := fun h => hrd (BitVec.eq_of_toNat_eq h)
      have hsame : rget (dieOf (eccEvent d r (memAddr s d r ra imm) .corrected t) d) r rd.toNat = rget (dieOf t d) r rd.toNat := by
        unfold rget inRevert
        rw [hecc, hstrap]
      obtain ⟨hmk, hdk⟩ := loadArea_mem_add hn (loadTrap_none ht).1 hk hm
      unfold gReg
      rw [hsame, hget, if_pos rfl, if_neg hrd', extract_loadN _ _ _ _ hn hk,
        loadByte_mem _ ((loadArea_congr haRev _).trans hmk) hdk, haR.mem_eq]
    · rw [← hpc]
      unfold curPc inRevert
      rw [hecc]
    · rw [← hch]
      unfold curCharge inRevert
      rw [hecc]
  · rintro rfl hF
    obtain ⟨ra, imm, rfl, hn, hx⟩ := exec_load hl hF
    refine ⟨_, hx, ?_⟩
    rw [ruleLoad_mem .uncorrectable hft.1 ht hm, if_pos rfl]
    obtain ⟨hex, p, hreg⟩ := eccEvent_uncorrectable hr d (memAddr s d r ra imm) s
    rw [hreg]
    exact ⟨rfl, hex, rfl, rfl, rfl⟩

end Sys2Proof.Machine


/-!
PROOFS. Tokens that are discarded (01 R39, 03 R108): O22.
-/

namespace Sys2Proof.Machine

/-! ## Requesters and grants (01 R28, R33, R41) -/

theorem mem_numsFrom {k : Nat} : ∀ {lo n : Nat}, k ∈ numsFrom lo n ↔ lo ≤ k ∧ k < lo + n
  | lo, 0 => by simp [numsFrom]
  | lo, n + 1 => by simp only [numsFrom, List.mem_cons, mem_numsFrom (lo := lo + 1)]; omega

/-- Every requester is asked in a clock, from whatever pointer on. -/
theorem mem_fromPointer {n a : Nat} (ptr : Nat) (ha : a < n) : a ∈ fromPointer n ptr := by
  simp only [fromPointer, List.mem_map, mem_numsFrom]
  have hp := Nat.mod_lt ptr (show 0 < n by omega)
  refine ⟨(a + (n - ptr % n)) % n, ⟨Nat.zero_le _, by simpa using Nat.mod_lt _ (show 0 < n by omega)⟩, ?_⟩
  have hturn : ptr + (a + (n - ptr % n)) = a + n * (ptr / n + 1) := by
    have := Nat.div_add_mod ptr n
    rw [Nat.mul_add, Nat.mul_one]
    omega
  rw [Nat.add_mod_mod, hturn, Nat.add_mul_mod_self_left, Nat.mod_eq_of_lt ha]

/-- No requester is granted a destination that is taken. -/
theorem grants_used {want : Nat → Option Nat} {b : Nat} (hw : ∀ q c, want q = some c → c = b) (k : Nat) {used : List Nat} (hb : b ∈ used) :
    ∀ l : List Nat, grants want k used l = []
  | [] => by cases k <;> rfl
  | q :: l => by
    have ih := grants_used hw k hb l
    cases k with
    | zero => rfl
    | succ k =>
      unfold grants
      cases hq : want q with
      | none => exact ih
      | some c =>
        rw [hw q c hq]
        simpa [hb] using ih

/-- The one requester that wants a destination is granted it, once. -/
theorem grants_single {want : Nat → Option Nat} {a b : Nat} (ha : want a = some b) (hw : ∀ q, q ≠ a → want q = none) (k : Nat) :
    ∀ l : List Nat, a ∈ l → grants want (k + 1) [] l = [a]
  | [], h => by simp at h
  | q :: l, h => by
    unfold grants
    by_cases hq : q = a
    · subst hq
      have hb : ∀ p c, want p = some c → c = b := by
        intro p c hp
        by_cases hpa : p = q
        · subst hpa
          exact Option.some.inj (hp.symm.trans ha)
        · rw [hw p hpa] at hp
          cases hp
      simp [ha, grants_used hb k (List.mem_singleton.mpr rfl)]
    · rw [hw q hq]
      exact grants_single ha hw k l (by simpa [Ne.symm hq] using h)

/-! ## A token that leaves the spine (01 R39, R42) -/

/-- A lone token at the spine egress of a region, with a credit for its destination, is the head of that egress and of no other. -/
theorem egressHead_lone {x : DieSt} {t : Token} {a : Nat} (hf : x.flights = [{ tok := t, place := .egress a }])
    (hc : 0 < creditOf x a (destRegion t)) (q : Nat) :
    egressHead x q = if q = a then some { tok := t, place := .egress a } else none := by
  unfold egressHead egressOf
  rw [hf]
  by_cases hq : q = a
  · simp [hq, hc]
  · simp [hq, Ne.symm hq]

/-- The spine drops it where the destination is halted, and keeps every credit. -/
theorem spineClock_halted {x : DieSt} {t : Token} {a : Nat} (hf : x.flights = [{ tok := t, place := .egress a }])
    (hc : 0 < creditOf x a (destRegion t)) (ha : a < 16) (hh : regHalted x (destRegion t) = true) :
    (spineClock x x).flights = [] ∧ (spineClock x x).credits = x.credits ∧ (spineClock x x).outboxes = x.outboxes := by
  have hhead := egressHead_lone hf hc
  have hg : grants (fun q => (egressHead x q).map (fun f => destRegion f.tok)) 16 [] (fromPointer 16 x.spinePtr) = [a] :=
    grants_single (b := destRegion t) (by simp [hhead]) (fun q hq => by simp [hhead, hq]) 15 _ (mem_fromPointer _ ha)
  unfold spineClock
  rw [hg]
  simp [spineMove, hhead, hh, hf, dropFlight]

/-- Nothing else of the transport has anything to move. -/
theorem netClock_lone_egress {x : DieSt} {t : Token} {a : Nat} (ho : x.outboxes = [])
    (hf : x.flights = [{ tok := t, place := .egress a }]) : netClock x = spineClock x x := by
  have hcl : busyClusters x = [] := by simp [busyClusters, ho, hf]
  have hre : busyRegions x = [] := by simp [busyRegions, hf]
  simp [netClock, hcl, hre]

/-- The clocks that token `t` runs end with its discard. -/
theorem carry_halted {x : DieSt} {t : Token} {a : Nat} (ho : x.outboxes = []) (hf : x.flights = [{ tok := t, place := .egress a }])
    (hc : 0 < creditOf x a (destRegion t)) (ha : a < 16) (hh : regHalted x (destRegion t) = true) :
    carry t (netFuel x) x = spineClock x x := by
  obtain ⟨hf', -, ho'⟩ := spineClock_halted hf hc ha hh
  have hfuel : netFuel x = 10 + 1 + 1 := by simp [netFuel, tokensOf, ho, hf]
  have hfirst : (hasArrived x t || !(tokensOf x).contains t) = false := by simp [hasArrived, tokensOf, ho, hf]
  have hthen : (hasArrived (spineClock x x) t || !(tokensOf (spineClock x x)).contains t) = true := by
    simp [hasArrived, tokensOf, ho', ho, hf']
  rw [hfuel]
  simp only [carry, hfirst, netClock_lone_egress ho hf, hthen, if_true, Bool.false_eq_true, if_false]

/-- Delivery ends there: no cell and no engine takes the token. -/
theorem deliver_halted (cx : Ctx) {x : DieSt} {t : Token} {a : Nat} (hb : isBroadcast t = false) (ho : x.outboxes = [])
    (hf : x.flights = [{ tok := t, place := .egress a }]) (hc : 0 < creditOf x a (destRegion t)) (ha : a < 16)
    (hh : regHalted x (destRegion t) = true) : deliver cx t x = spineClock x x := by
  have harr : hasArrived (spineClock x x) t = false := by simp [hasArrived, (spineClock_halted hf hc ha hh).1]
  simp [deliver, hb, carry_halted ho hf hc ha hh, harr]

/-! ## A token of undefined TYPE (03 R108) -/

/-- A TYPE outside Table 3.9 is none of the ten that a cell or an engine knows. -/
theorem undefinedType {t : Token} (ht : t.typ = 0 ∨ 0xB ≤ t.typ.toNat) :
    t.typ ∉ [tyPROBE, tyHOLD, tyNACK, tyCOMMIT, tyACK, tySEEK, tyFOUND, tyNONE, tyRELEASE, tyCANCEL] := by
  generalize t.typ = y at ht
  revert y
  decide

theorem deliver_undefined (cx : Ctx) {x : DieSt} {t : Token} (hb : isBroadcast t = false)
    (harr : hasArrived (carry t (netFuel x) x) t = true) (ht : t.typ = 0 ∨ 0xB ≤ t.typ.toNat) :
    deliver cx t x = { broughtBy t x with undefTokens := x.undefTokens + 1 } := by
  have hun := undefinedType ht
  simp only [List.mem_cons, List.not_mem_nil, or_false, not_or] at hun
  have hcount : (carry t (netFuel x) x).undefTokens = x.undefTokens := by rw [carry_only]
  simp [deliver, hb, harr, actArrived, cellAction, arriveAction, hun, broughtBy, hcount]

/-! ## Rows of the fabric -/

theorem dieStep_onDie_logs (d : Die) (f : DieSt → DieSt) (s : State) : DieStep d s (takeDieLogs d (onDie d f s)) := by
  rw [takeDieLogs_eq]
  refine ⟨rfl, fun e he => ?_⟩
  simp [dieOf, onDie, triGet_triMod_other _ _ he]

theorem dieOf_deliverRow {s : State} {d : Die} (t : Token) (hp : (dieOf s d).phase = phPROPAGATE) :
    dieOf (deliverRow d t s) d = { countOut t (dieOf s d) (deliver (ctxOf s) t (dieOf s d)) with logOut := [] } := by
  unfold deliverRow fabricRow
  rw [dieOf_takeDieLogs, dieOf_onDie_self, if_pos hp]

/-- The row that its TYPE names delivers a token. -/
theorem exec_tokenCommand (d : Die) {t : Token} (s : State) (h1 : 1 ≤ t.typ.toNat) (hA : t.typ.toNat ≤ 0xA) :
    exec (tokenCommand d t) s = .next (deliverRow d t s) := by
  have row : ∀ ty : BitVec 4, t.typ = ty → tokenRow d ty t s = deliverRow d t s := fun ty h => if_pos h
  have hty : t.typ = 1 ∨ t.typ = 2 ∨ t.typ = 3 ∨ t.typ = 4 ∨ t.typ = 5 ∨ t.typ = 6 ∨ t.typ = 7 ∨ t.typ = 8 ∨ t.typ = 9 ∨
      t.typ = 0xA := by
    generalize t.typ = y at h1 hA
    revert y
    decide
  unfold tokenCommand
  rcases hty with h | h | h | h | h | h | h | h | h | h <;>
  · simp only [h, BitVec.reduceEq, if_true, if_false]
    exact congrArg Host.Outcome.next (row _ h)

/-- What counting the tokens adds to a die reads as it did, but for its regions. -/
theorem countOut_reads (t : Token) (x y : DieSt) :
    (countOut t x y).cells = y.cells ∧ (countOut t x y).flights = y.flights ∧ (countOut t x y).credits = y.credits ∧
      (countOut t x y).routes = y.routes ∧ (countOut t x y).work = y.work := by
  rw [countOut_only t x y]
  exact ⟨rfl, rfl, rfl, rfl, rfl⟩

theorem sameCells_of_cells {d : Die} {s t : State} (h : (dieOf t d).cells = (dieOf s d).cells) : SameCells d s t := by
  intro n
  unfold getCell
  rw [h]

/-- Settles O22: the spine drops a token for a halted region in its first clock (`spineClock_halted`), and a token of undefined TYPE
meets no action of Table 3.9 at its cell (`deliver_undefined`). -/
theorem tokensDiscardedWithoutEffect : Obligations.TokensDiscardedWithoutEffect := by
  intro s d t y a
  constructor
  · intro hp hb h1 hA ho ha hf hc hh
    refine ⟨_, exec_tokenCommand d s h1 hA, ?_⟩
    have hdie := dieOf_deliverRow t hp
    rw [deliver_halted _ hb ho hf hc ha hh] at hdie
    obtain ⟨hcells, hfl, hcr, hro, hwo⟩ := countOut_reads t (dieOf s d) (spineClock (dieOf s d) (dieOf s d))
    obtain ⟨hf0, hc0, -⟩ := spineClock_halted hf hc ha hh
    have honly := spineClock_only (dieOf s d) (dieOf s d)
    refine ⟨?_, ?_, sameCells_of_cells ?_, ?_, ?_, dieStep_onDie_logs d _ s⟩ <;> rw [hdie]
    · exact hfl.trans hf0
    · exact hcr.trans hc0
    · exact hcells.trans (by rw [honly])
    · exact hro.trans (by rw [honly])
    · exact hwo.trans (by rw [honly])
  · rintro ⟨hp, hb, harr, rfl⟩ ht
    have hx : exec (.tokenTypeInvalid d t) s = .next (deliverRow d t s) :=
      congrArg Host.Outcome.next (if_neg (by simpa using undefinedType ht))
    refine ⟨_, hx, ?_⟩
    have hdie := dieOf_deliverRow t hp
    rw [deliver_undefined _ hb harr ht] at hdie
    refine ⟨hdie, sameCells_of_cells ?_, dieStep_onDie_logs d _ s⟩
    have hcells := (countOut_reads t (dieOf s d) { broughtBy t (dieOf s d) with undefTokens := (dieOf s d).undefTokens + 1 }).1
    have hcarry : (carry t (netFuel (dieOf s d)) (dieOf s d)).cells = (dieOf s d).cells := by rw [carry_only]
    rw [hdie]
    exact hcells.trans hcarry

end Sys2Proof.Machine


/-!
PROOFS. The start of a cycle in a die (01 R51, 04 R144, R154): O14.
-/

namespace Sys2Proof.Machine

/-! ## Changes of every region -/

theorem mapRegs_only (x : DieSt) (f : Nat → RegionSt → RegionSt) : RegionsOnly x (mapRegs x f) :=
  regionsOnly_foldl (fun y r => modReg y r (f r)) (fun _ _ => rfl) _ x

theorem reg_foldl_modReg (f : Nat → RegionSt → RegionSt) {q : Nat} (hq : q < 16) :
    ∀ (l : List Nat) (x : DieSt), l.Nodup →
      reg (l.foldl (fun y r => modReg y r (f r)) x) q = if q ∈ l then f q (reg x q) else reg x q
  | [], _, _ => rfl
  | r :: l, x, hl => by
    obtain ⟨hr, hl⟩ := List.nodup_cons.mp hl
    rw [List.foldl_cons, reg_foldl_modReg f hq l _ hl]
    by_cases h : q = r
    · subst h
      simp [hr, reg_modReg_self x hq]
    · simp [h, reg_modReg_other x h]

theorem reg_mapRegs (x : DieSt) (f : Nat → RegionSt → RegionSt) {r : Nat} (hr : r < 16) : reg (mapRegs x f) r = f r (reg x r) := by
  exact (reg_foldl_modReg f hr _ x (by decide)).trans (if_pos (mem_numsFrom.mpr ⟨Nat.zero_le r, by omega⟩))

/-! ## One die changes -/

theorem dieStep_onDie (d : Die) (f : DieSt → DieSt) (s : State) : DieStep d s (onDie d f s) :=
  ⟨rfl, fun _ he => dieOf_onDie_other s f he⟩

theorem onDie_eq_self {d : Die} {f : DieSt → DieSt} {s : State} (h : f (dieOf s d) = dieOf s d) : onDie d f s = s := by
  have hd : triMod s.dies d f = s.dies := by
    unfold dieOf at h
    cases d <;> simp only [triGet] at h <;> simp only [triMod, h]
  unfold onDie
  rw [hd]

/-! ## The fast clock and REVERT (04 R148, R161) -/

/-- Two dies differ at most in their regions and in whether the fast clock runs. -/
def RegionsAndClock (x y : DieSt) : Prop := y = { x with regions := y.regions, fastClock := y.fastClock }

theorem RegionsAndClock.refl (x : DieSt) : RegionsAndClock x x := rfl

theorem RegionsAndClock.trans {x y z : DieSt} (h : RegionsAndClock x y) (k : RegionsAndClock y z) : RegionsAndClock x z := by
  unfold RegionsAndClock at *
  rw [k, h]

theorem RegionsOnly.regionsAndClock {x y : DieSt} (h : RegionsOnly x y) : RegionsAndClock x y := by
  unfold RegionsAndClock
  rw [h]

theorem idleClock_only (x : DieSt) : RegionsAndClock x (idleClock x) := by
  unfold idleClock
  split <;> rfl

/-- The fast clock of a die in IDLE rests where neither a slice nor a REVERT run lasts. -/
theorem idleClock_rests {x : DieSt} (hp : x.phase = phIDLE) (hs : x.sliceRun = none) (hr : ∀ r, r < 16 → (reg x r).revert = false) :
    (idleClock x).fastClock = false := by
  have hall : (numsFrom 0 16).all (fun k => !(reg x k).revert) = true := by
    refine List.all_eq_true.mpr fun k hk => ?_
    simp [hr k (by simpa using (mem_numsFrom.mp hk).2)]
  simp [idleClock, hp, hs, hall]

/-- What may differ of a region in which a REVERT run may have started. -/
def RevertStarts (a b : RegionSt) : Prop :=
  b = { a with revert := b.revert, revertPhase := b.revertPhase, revertBank := b.revertBank, rg := b.rg, rcharge := b.rcharge,
               revCur := b.revCur, rpc := b.rpc, pmc := b.pmc, posted := b.posted }

/-- Two dies differ at most in REVERT runs that have started in the second. -/
def RunsStart (x y : DieSt) : Prop :=
  RegionsAndClock x y ∧ (x.fastClock = true → y.fastClock = true) ∧
    ∀ q, RevertStarts (reg x q) (reg y q)

theorem RunsStart.refl (x : DieSt) : RunsStart x x := ⟨RegionsAndClock.refl x, id, fun _ => rfl⟩

theorem RunsStart.trans {x y z : DieSt} (h : RunsStart x y) (k : RunsStart y z) : RunsStart x z := by
  obtain ⟨h1, h2, h3⟩ := h
  obtain ⟨k1, k2, k3⟩ := k
  refine ⟨h1.trans k1, fun hx => k2 (h2 hx), fun q => ?_⟩
  unfold RevertStarts at *
  rw [k3 q, h3 q]

theorem startRevert_starts {r : Nat} (hr : r < 16) (x : DieSt) : RunsStart x (startRevert r x) := by
  unfold startRevert
  dsimp only
  split
  · exact RunsStart.refl x
  · generalize hy : modReg { x with fastClock := true } r _ = y
    obtain ⟨hS, hC⟩ := pmcCount_only hr 0x0B y
    have hreg : RevertStarts (reg x r) (reg y r) := by
      rw [← hy, reg_modReg_self _ hr]
      rfl
    have hxy : RegionsAndClock x y := by
      rw [← hy]
      rfl
    refine ⟨hxy.trans (RegionsOnly.regionsAndClock hS.1), fun _ => by rw [hS.1, ← hy]; rfl, fun q => ?_⟩
    by_cases hq : q = r
    · subst hq
      unfold RevertStarts at *
      rw [hC.1, hreg]
    · rw [hS.2 q hq, ← hy, reg_modReg_other _ hq]
      rfl

theorem wakePairs_starts (was x : DieSt) : RunsStart x (wakePairs was x) := by
  refine List.foldlRecOn _ _ (RunsStart.refl x) fun y hy r hr => hy.trans ?_
  split
  · exact startRevert_starts (by simpa using (mem_numsFrom.mp hr).2) y
  · exact RunsStart.refl y

/-! ## Cells without base derivation (02 R94) -/

theorem getCell_cellsNotClean (x : DieSt) (n : Nat) : getCell (cellsNotClean x) n = { getCell x n with cleanOnce := false } :=
  getA_mapA cellUnused (fun _ c => notClean c) n rfl x.cells

/-! ## The cycle-start message (01 R51, 04 R154) -/

/-- A region at the start of a cycle: charge, task, flags and block are clear; what halts it and its memory stay. -/
def StartsCycle (a b : RegionSt) : Prop :=
  b.charge = 0 ∧ b.task = 0 ∧ b.haltCycle = false ∧ b.sent = [] ∧ b.overIn = false ∧ b.overOut = false ∧ b.halted = a.halted ∧
    b.mem = a.mem

theorem StartsCycle.revertStarts {a b c : RegionSt} (h : StartsCycle a b) (k : RevertStarts b c) : StartsCycle a c := by
  unfold StartsCycle
  rw [k]
  exact h

theorem migrateRegion_only (g : RegionSt) : migrateRegion g = { g with map := (migrateRegion g).map, spare := (migrateRegion g).spare } := by
  unfold migrateRegion
  dsimp only
  split <;> rfl

theorem startsCycle_regionCycleStart (g : RegionSt) (b : Bool) : StartsCycle g (regionCycleStart (if b then migrateRegion g else g)) := by
  cases b
  · exact ⟨rfl, rfl, rfl, rfl, rfl, rfl, rfl, rfl⟩
  · rw [if_pos rfl, migrateRegion_only]
    exact ⟨rfl, rfl, rfl, rfl, rfl, rfl, rfl, rfl⟩

theorem spoolRestart_only (x : DieSt) : spoolRestart x = { x with evSpool := (spoolRestart x).evSpool } := by
  unfold spoolRestart
  split <;> rfl

/-- The cells that a good message finds: those of a cycle that ended before their derivation are not clean. -/
def cellsBefore (x : DieSt) : DieSt := if x.phase = phWAKE || x.phase = phSAMPLE then cellsNotClean x else x

theorem cellsBefore_only (x : DieSt) : cellsBefore x = { x with cells := (cellsBefore x).cells } := by
  unfold cellsBefore
  split <;> rfl

theorem getCell_cellsBefore (x : DieSt) (n : Nat) :
    getCell (cellsBefore x) n = if x.phase = phWAKE ∨ x.phase = phSAMPLE then { getCell x n with cleanOnce := false } else getCell x n := by
  unfold cellsBefore
  simp only [Bool.or_eq_true, decide_eq_true_eq]
  split
  · exact getCell_cellsNotClean x n
  · rfl

/-- The die that a good message of cycle `k` has woken, before its regions start. -/
def wokenDie (k : Word) (x : DieSt) : DieSt :=
  { discardTokens (spoolRestart (cellsBefore x)) with
    abandoned := decide (x.phase ≠ phIDLE), phase := phWAKE, cycleNo := k, fastClock := true, runsPhases := true, wakeLate := false,
    wave := .none, waveCut := false, todo := [], reconcile := [], sliceRun := none }

/-- Of routes, cells and regions the waking changes the clean flags of `cellsBefore` alone. -/
theorem wokenDie_keeps (k : Word) (x : DieSt) :
    (wokenDie k x).routes = x.routes ∧ (wokenDie k x).cells = (cellsBefore x).cells ∧ (wokenDie k x).regions = x.regions := by
  unfold wokenDie discardTokens
  dsimp only
  rw [spoolRestart_only, cellsBefore_only]
  exact ⟨rfl, rfl, rfl⟩

theorem RegionsOnly.migrated {x y : DieSt} (h : RegionsOnly x y) :
    RegionsOnly { x with migrateCopied := [] } { y with migrateCopied := [] } := by
  unfold RegionsOnly at *
  rw [h]

/-- That die with its regions started, where a migration is due on their freshly tested spare. -/
def startedDie (k : Word) (x : DieSt) : DieSt :=
  mapRegs (wokenDie k x) (fun r g => regionCycleStart (if (spoolRestart (cellsBefore x)).migrateCopied.contains r then migrateRegion g else g))

theorem startedDie_starts (k : Word) (x : DieSt) {r : Nat} (hr : r < 16) : StartsCycle (reg x r) (reg (startedDie k x) r) := by
  unfold startedDie
  rw [reg_mapRegs _ _ hr, reg_of_regions (wokenDie_keeps k x).2.2]
  exact startsCycle_regionCycleStart _ _

/-- The regions of a die as a counter setup, where there is one, leaves them (19 R501). -/
def countersSet (setup : Option (List Word)) (x : DieSt) : DieSt :=
  match setup with
  | none => x
  | some ws => mapRegs x (fun _ g => { g with pmc := pmcApply ws g.pmc })

theorem countersSet_only (setup : Option (List Word)) (x : DieSt) : RegionsOnly x (countersSet setup x) := by
  cases setup with
  | none => rfl
  | some ws => exact mapRegs_only _ _

theorem startsCycle_countersSet (setup : Option (List Word)) {x : DieSt} {a : RegionSt} {r : Nat} (hr : r < 16)
    (h : StartsCycle a (reg x r)) : StartsCycle a (reg (countersSet setup x) r) := by
  cases setup with
  | none => exact h
  | some ws =>
    unfold countersSet
    rw [reg_mapRegs _ _ hr]
    exact h

theorem dieCycleStart_eq (k : Word) (setup : Option (List Word)) (x : DieSt) :
    dieCycleStart k setup x = wakePairs (spoolRestart (cellsBefore x)) { countersSet setup (startedDie k x) with migrateCopied := [] } := by
  cases setup <;> rfl

/-- A good message wakes the die and starts its regions; pairs that were halted for the cycle may take their events. -/
theorem dieCycleStart_effect (k : Word) (setup : Option (List Word)) (x : DieSt) :
    RegionsAndClock { wokenDie k x with migrateCopied := [] } (dieCycleStart k setup x) ∧ (dieCycleStart k setup x).fastClock = true ∧
      ∀ r, r < 16 → StartsCycle (reg x r) (reg (dieCycleStart k setup x) r) := by
  have honly : RegionsOnly (wokenDie k x) (countersSet setup (startedDie k x)) := (mapRegs_only _ _).trans (countersSet_only setup _)
  have hregs : ∀ r, r < 16 → StartsCycle (reg x r) (reg (countersSet setup (startedDie k x)) r) := fun r hr =>
    startsCycle_countersSet setup hr (startedDie_starts k x hr)
  rw [dieCycleStart_eq]
  generalize countersSet setup (startedDie k x) = z at honly hregs
  obtain ⟨hy, hclk, hrun⟩ := wakePairs_starts (spoolRestart (cellsBefore x)) { z with migrateCopied := [] }
  exact ⟨honly.migrated.regionsAndClock.trans hy, hclk (by rw [honly]; rfl), fun r hr => (hregs r hr).revertStarts (hrun r)⟩

/-- The die that a bad message leaves without phases, before its regions stop. -/
def skippedDie (x : DieSt) : DieSt :=
  { cellsNotClean (discardTokens x) with abandoned := decide (x.phase ≠ phIDLE), phase := phIDLE, runsPhases := false, wakeLate := false,
                                         wave := .none, waveCut := false, todo := [] }

/-- A bad message leaves the die without phases; every region loses its task, its overrun flags and its block. -/
theorem dieCycleSkip_effect (x : DieSt) :
    RegionsAndClock (skippedDie x) (dieCycleSkip x) ∧ ∀ r, r < 16 → (reg (dieCycleSkip x) r).task = 0 ∧ (reg (dieCycleSkip x) r).sent = [] ∧
      (reg (dieCycleSkip x) r).overIn = false ∧ (reg (dieCycleSkip x) r).overOut = false ∧ (reg (dieCycleSkip x) r).mem = (reg x r).mem := by
  have hz : ∃ f : RegionSt → RegionSt,
      f = (fun g => { g with task := 0, haltCycle := false, overIn := false, overOut := false, sent := [], results := [] }) ∧
      dieCycleSkip x = wakePairs x (idleClock (mapRegs (skippedDie x) (fun _ => f))) := ⟨_, rfl, rfl⟩
  obtain ⟨f, hf, he⟩ := hz
  obtain ⟨hy, -, hrun⟩ := wakePairs_starts x (idleClock (mapRegs (skippedDie x) (fun _ => f)))
  rw [he]
  refine ⟨((mapRegs_only _ _).regionsAndClock.trans (idleClock_only _)).trans hy, fun r hr => ?_⟩
  have hreg : reg (idleClock (mapRegs (skippedDie x) (fun _ => f))) r = f (reg x r) := by
    rw [reg_of_regions (regions_idleClock _), reg_mapRegs _ _ hr]
    rfl
  rw [hrun r, hreg, hf]
  exact ⟨rfl, rfl, rfl, rfl, rfl⟩

/-- Settles O14: the three rows change one die (`dieStep_onDie`), and what it becomes is said by `dieCycleStart_effect`,
`dieCycleSkip_effect` and, where WAKE is late, `idleClock_rests`. -/
theorem cycleStartBeginsWake : Obligations.CycleStartBeginsWake := by
  intro s d
  refine ⟨fun hc => ?_, fun hc => ?_, fun hp => ?_, fun hp => ?_, fun hc ok => ?_⟩
  · -- a good message
    refine ⟨onDie d _ s, congrArg Host.Outcome.next (if_neg (by simp [hc])), ?_⟩
    obtain ⟨hy, hclk, hregs⟩ := dieCycleStart_effect s.cycle s.pmcWith (dieOf s d)
    obtain ⟨hroutes, hcells, -⟩ := wokenDie_keeps s.cycle (dieOf s d)
    dsimp only
    rw [dieOf_onDie_self, if_pos rfl]
    generalize dieCycleStart s.cycle s.pmcWith (dieOf s d) = y at hy hclk hregs
    refine ⟨by rw [hy]; rfl, by rw [hy]; rfl, by rw [hy]; rfl, hclk, by rw [hy]; rfl, by rw [hy]; rfl, by rw [hy]; rfl, by rw [hy]; rfl,
      by rw [hy]; rfl, by rw [hy]; rfl, by rw [hy]; exact hroutes, fun n => ?_, hregs, dieStep_onDie d _ s⟩
    rw [← getCell_cellsBefore, hy]
    exact congrArg (fun m => getA cellUnused m n) hcells
  · -- a bad one
    refine ⟨onDie d _ s, congrArg Host.Outcome.next (if_neg (by simp [hc])), ?_⟩
    obtain ⟨hy, hregs⟩ := dieCycleSkip_effect (dieOf s d)
    dsimp only
    rw [dieOf_onDie_self, if_neg (by decide)]
    generalize dieCycleSkip (dieOf s d) = y at hy hregs
    refine ⟨by rw [hy]; rfl, by rw [hy]; rfl, by rw [hy]; rfl, by rw [hy]; rfl, by rw [hy]; rfl, fun n => ?_, hregs, dieStep_onDie d _ s⟩
    rw [hy]
    exact getCell_cellsNotClean _ n
  · -- WAKE is late
    refine ⟨onDie d _ s, rfl, ?_⟩
    have hy := idleClock_only { cellsNotClean (dieOf s d) with phase := phIDLE, runsPhases := false, wakeLate := true }
    have hregs := regions_idleClock { cellsNotClean (dieOf s d) with phase := phIDLE, runsPhases := false, wakeLate := true }
    have hrest := idleClock_rests (x := { cellsNotClean (dieOf s d) with phase := phIDLE, runsPhases := false, wakeLate := true }) rfl
    dsimp only
    rw [dieOf_onDie_self, if_pos hp]
    generalize idleClock _ = y at hy hregs hrest
    refine ⟨by rw [hy], by rw [hy], by rw [hy], hregs, by rw [hy]; rfl, fun n => ?_, hrest, dieStep_onDie d _ s⟩
    rw [hy]
    exact getCell_cellsNotClean _ n
  · -- late, but the die is not in WAKE
    exact ⟨_, rfl, onDie_eq_self (if_neg hp)⟩
  · -- no cycles run
    exact ⟨_, congrArg Host.Outcome.next (if_pos (by simp [hc])), rfl⟩

end Sys2Proof.Machine


/-!
PROOFS. A trip of the module, and what follows a verdict (06 R209 to R228).
-/

namespace Sys2Proof.Machine

/-! ## Trips (06 R226, R228) -/

theorem setMode_posts (m : Mode) (s : State) (e : Die) : PostsOnly (dieOf s e) (dieOf (setMode m s) e) := by
  unfold setMode
  split
  · exact PostsOnly.refl _
  · exact postEvery_posts 0xC6 { s with mode := m } e

theorem PostsOnly.phase_eq {x y : DieSt} (h : PostsOnly x y) : y.phase = x.phase := by rw [h.1]

/-- SAFE keeps what a trip has done to the drive, and the voter. -/
theorem enterSafe_keeps (s : State) :
    (enterSafe s).ao.pumpRun = s.ao.pumpRun ∧ (enterSafe s).clampOpen = s.clampOpen ∧ (enterSafe s).vote = s.vote := by
  have hstop : ∀ u, (stopCycles u).ao.pumpRun = u.ao.pumpRun ∧ (stopCycles u).clampOpen = u.clampOpen ∧ (stopCycles u).vote = u.vote := by
    intro u
    unfold stopCycles
    rw [abortChange_eq]
    exact ⟨rfl, rfl, rfl⟩
  unfold enterSafe
  rw [setMode_eq]
  exact hstop _

theorem enterSafe_phase (s : State) (d : Die) : (dieOf (enterSafe s) d).phase = phIDLE :=
  (setMode_posts .safe _ d).phase_eq.trans (stopCycles_idle _ d)

/-- With the latch set no pump is fed (06 R223). -/
theorem pumpFed_tripped {s : State} (h : s.ao.tripLatch = true) (o : Nat) (high : Bool) : pumpFed s o high = false := by
  simp [pumpFed, h]

/-- A cause that fires in a module whose latch is clear trips it, and leaves the voter as it is. LOGIC_SUPPLY may find no gate drive (06 R230). -/
theorem tripBy_trips {q : CauseIn} {c : Cause} {s : State} (region : Nat) (detail : BitVec 8) (avail : BitVec 4) (hq : q.line ≠ 2)
    (hc : c ≠ .logicSupply) (hm : s.mode ≠ .dormant) (hl : s.ao.tripLatch = false) :
    TrippedSafe (tripBy q c region detail avail s) ∧ (tripBy q c region detail avail s).vote = s.vote := by
  have hj : joinsTrip q s = false := by simp [joinsTrip, hl]
  unfold tripBy
  simp only [hj, hq, hm, hc, hl, decide_false, Bool.or_self, Bool.false_and, Bool.false_eq_true, if_false]
  generalize hs1 : removeDrive _ = s1
  have hlatch : s1.ao.tripLatch = true := by rw [← hs1]; rfl
  have hpump : s1.ao.pumpRun = false := by rw [← hs1]; rfl
  have hclamp : s1.clampOpen = [] := by rw [← hs1]; rfl
  have hvote : s1.vote = s.vote := by rw [← hs1]; rfl
  obtain ⟨hmode, hclaim, hwd, hlatch', -⟩ := enterSafe_claim s1
  obtain ⟨hpump', hclamp', hvote'⟩ := enterSafe_keeps s1
  have hphase := enterSafe_phase s1
  rw [hlatch] at hlatch'
  rw [hpump] at hpump'
  rw [hclamp] at hclamp'
  rw [hvote] at hvote'
  generalize enterSafe s1 = u at *
  exact ⟨⟨hmode, hlatch', hpump', hclamp', hclaim, hwd, pumpFed_tripped hlatch', hphase⟩, hvote'⟩

/-- No cycles run in SAFE. -/
theorem TrippedSafe.cyclesRun {s : State} (h : TrippedSafe s) : cyclesRun s = false := by
  simp [Machine.cyclesRun, h.1]

theorem not_dormant_of_cyclesRun {s : State} (h : cyclesRun s = true) : s.mode ≠ .dormant := by
  intro hm
  simp [cyclesRun, hm] at h

/-! ## What follows a verdict (06 R209, R215, 04 R156) -/

/-- A copy keeps what has arrived of it, and a miss that has been counted. -/
def CopyKeeps (a b : Copy) : Prop := b.rxH = a.rxH ∧ b.rxL = a.rxL ∧ (a.missNow = true → b.missNow = true)

theorem CopyKeeps.refl (a : Copy) : CopyKeeps a a := ⟨rfl, rfl, id⟩

theorem CopyKeeps.trans {a b c : Copy} (h : CopyKeeps a b) (k : CopyKeeps b c) : CopyKeeps a c :=
  ⟨k.1.trans h.1, k.2.1.trans h.2.1, fun m => k.2.2 (h.2.2 m)⟩

theorem CopyKeeps.present_eq {a b : Copy} (h : CopyKeeps a b) : isPresent b = isPresent a := by
  unfold isPresent
  rw [h.1, h.2.1]

/-- The parts of the module that the vote of a region may change. -/
def VoteFrame (s t : State) : Prop :=
  t = { s with vote := t.vote, dies := t.dies, overlays := t.overlays, change := t.change, forces := t.forces, tail := t.tail, win := t.win,
               tether := { s.tether with hoAsked := t.tether.hoAsked },
               ao := { s.ao with wdArmed := t.ao.wdArmed, wdSlk := t.ao.wdSlk, wdXo := t.ao.wdXo } }

theorem VoteFrame.trans {s t u : State} (h : VoteFrame s t) (k : VoteFrame t u) : VoteFrame s u := by
  unfold VoteFrame at *
  rw [k, h]

/-- What follows the verdict of region `r`: no verdict changes, nor what has arrived, nor a copy of another region. -/
structure VerdictStands (r : Nat) (s t : State) : Prop where
  frame : VoteFrame s t
  voter : t.vote = { s.vote with copies := t.vote.copies, hbSent := t.vote.hbSent }
  others : ∀ d q, q ≠ r → copyOf t.vote d q = copyOf s.vote d q
  copies : ∀ d, CopyKeeps (copyOf s.vote d r) (copyOf t.vote d r)

theorem VerdictStands.of_vote_eq {r : Nat} {s t : State} (h : VoteFrame s t) (hv : t.vote = s.vote) : VerdictStands r s t :=
  ⟨h, by rw [hv], fun _ _ _ => by rw [hv], fun _ => by rw [hv]; exact CopyKeeps.refl _⟩

theorem VerdictStands.refl (r : Nat) (s : State) : VerdictStands r s s := .of_vote_eq rfl rfl

theorem VerdictStands.trans {r : Nat} {s t u : State} (h : VerdictStands r s t) (k : VerdictStands r t u) : VerdictStands r s u :=
  ⟨h.frame.trans k.frame, by rw [k.voter, h.voter], fun d q hq => (k.others d q hq).trans (h.others d q hq),
    fun d => (h.copies d).trans (k.copies d)⟩

theorem VerdictStands.foldl {α : Type} {r : Nat} {f : State → α → State} (h : ∀ s a, VerdictStands r s (f s a)) (l : List α) (s : State) :
    VerdictStands r s (l.foldl f s) :=
  List.foldlRecOn _ _ (VerdictStands.refl r s) fun _ ht a _ => ht.trans (h _ a)

theorem VerdictStands.modCopy {r : Nat} (d : Die) {f : Copy → Copy} (hf : ∀ c, CopyKeeps c (f c)) (s : State) :
    VerdictStands r s (onVote (Machine.modCopy d r f) s) := by
  refine ⟨rfl, rfl, fun e q hq => ?_, fun e => ?_⟩
  · exact (copyOf_modCopy s.vote d e r q f).trans (if_neg fun h => hq h.2.1)
  · show CopyKeeps _ (copyOf (Machine.modCopy d r f s.vote) e r)
    rw [copyOf_modCopy]
    split
    · rename_i h
      rw [h.1]
      exact hf _
    · exact CopyKeeps.refl _

theorem excludeCopy_verdictStands (d : Die) (r : Nat) (c : ExclCause) (s : State) : VerdictStands r s (excludeCopy d r c s) := by
  have hframe : VoteFrame s (excludeCopy d r c s) := by
    unfold VoteFrame
    rw [excludeCopy_eq]
  by_cases h : isExcluded (copyOf s.vote d r) = true
  · exact .of_vote_eq hframe (by rw [excludeCopy_vote, if_pos h])
  · have hv := excludeCopy_vote d r c s
    rw [if_neg h] at hv
    have hmod := VerdictStands.modCopy (r := r) d (f := fun q => { q with excluded := some c, rejoin := .none }) (fun _ => ⟨rfl, rfl, id⟩) s
    exact ⟨hframe, by rw [hv]; rfl, fun e q hq => by rw [hv]; exact hmod.others e q hq, fun e => by rw [hv]; exact hmod.copies e⟩

theorem abandonRejoin_verdictStands (d : Die) (r : Nat) (s : State) : VerdictStands r s (abandonRejoin d r s) :=
  (VerdictStands.modCopy d (f := fun c => { c with rejoin := .none, migrateFirst := true }) (fun _ => ⟨rfl, rfl, id⟩) s).trans
    (.of_vote_eq rfl rfl)

/-- The copy with its miss counted, where its block is missing (06 R209). -/
def missCounted (r : Nat) (s : State) (d : Die) : State :=
  if isPresent (copyOf s.vote d r) then s
  else onVote (modCopy d r (fun c => { c with missNow := true, missWin := setBitOf c.missWin 0 true })) s

theorem missCounted_verdictStands (r : Nat) (s : State) (d : Die) : VerdictStands r s (missCounted r s d) := by
  unfold missCounted
  split
  · exact .refl r s
  · exact .modCopy d (f := fun c => { c with missNow := true, missWin := setBitOf c.missWin 0 true }) (fun _ => ⟨rfl, rfl, fun _ => rfl⟩) s

/-- A copy's consequences come on top of its counted miss. -/
theorem copyAfterVote_missCounted (ws : List Word) (r : Nat) (avail : List Die) (s : State) (d : Die) :
    VerdictStands r (missCounted r s d) (copyAfterVote ws r avail s d) := by
  have hmiss : (if !isPresent (copyOf s.vote d r) then
      onVote (modCopy d r (fun c => { c with missNow := true, missWin := setBitOf c.missWin 0 true })) s else s) = missCounted r s d := by
    unfold missCounted
    cases isPresent (copyOf s.vote d r) <;> rfl
  unfold copyAfterVote
  dsimp only
  rw [hmiss]
  split
  · split
    · rename_i n _ _
      exact .modCopy d (f := fun c => { c with rejoin := .shadow (n + 1) }) (fun _ => ⟨rfl, rfl, id⟩) _
    · exact abandonRejoin_verdictStands d r _
  · split
    · exact .refl r _
    · split
      · split
        · exact excludeCopy_verdictStands d r _ _
        · exact .refl r _
      · split
        · exact excludeCopy_verdictStands d r _ _
        · exact .refl r _

theorem copyAfterVote_verdictStands (ws : List Word) (r : Nat) (avail : List Die) (s : State) (d : Die) :
    VerdictStands r s (copyAfterVote ws r avail s d) :=
  (missCounted_verdictStands r s d).trans (copyAfterVote_missCounted ws r avail s d)

theorem copyAfterVote_missed (ws : List Word) {r : Nat} (hr : r < 16) (avail : List Die) {s : State} {d : Die}
    (hp : isPresent (copyOf s.vote d r) = false) : (copyOf (copyAfterVote ws r avail s d).vote d r).missNow = true := by
  have hnow : (copyOf (missCounted r s d).vote d r).missNow = true := by
    unfold missCounted onVote
    rw [if_neg (by simp [hp]), copyOf_modCopy, if_pos ⟨rfl, rfl, hr⟩]
  exact ((copyAfterVote_missCounted ws r avail s d).copies d).2.2 hnow

/-- Each copy whose block is missing counts a miss in this cycle. -/
theorem foldl_copyAfterVote_missed (ws : List Word) {r : Nat} (hr : r < 16) (avail : List Die) {d : Die} {l : List Die} (hd : d ∈ l) (s : State)
    (hp : isPresent (copyOf s.vote d r) = false) : (copyOf (l.foldl (copyAfterVote ws r avail) s).vote d r).missNow = true := by
  have hstands := copyAfterVote_verdictStands ws r avail
  induction l generalizing s with
  | nil => cases hd
  | cons e l ih =>
    rw [List.foldl_cons]
    rcases List.mem_cons.mp hd with rfl | hd
    · exact ((VerdictStands.foldl hstands l _).copies d).2.2 (copyAfterVote_missed ws hr avail hp)
    · exact ih hd _ (((hstands s e).copies d).present_eq.trans hp)

/-! ## What the bridle reads and publishes (17 R472, R476, 04 R156) -/

theorem setOverlays_frame (o : Overlays) (s : State) : VoteFrame s (setOverlays o s) ∧ (setOverlays o s).vote = s.vote := by
  unfold VoteFrame
  rw [setOverlays_eq]
  exact ⟨rfl, rfl⟩

theorem setForces_frame (l : List ForceEntry) (f : ForceEntry) (s : State) : VoteFrame s (setForces l f s) ∧ (setForces l f s).vote = s.vote := by
  unfold setForces VoteFrame logOpen logPut onTail
  rw [setOverlays_eq]
  exact ⟨rfl, rfl⟩

theorem acceptChange_frame (ws : List Word) (s : State) : VoteFrame s (acceptChange ws s) ∧ (acceptChange ws s).vote = s.vote := by
  unfold acceptChange
  dsimp only
  split
  · exact ⟨rfl, rfl⟩
  · unfold VoteFrame logOpen logPut onTail
    rw [setOverlays_eq]
    exact ⟨rfl, rfl⟩

theorem bridleEffect_frame (q : ReqResult) (s : State) : VoteFrame s (bridleEffect q s) ∧ (bridleEffect q s).vote = s.vote := by
  unfold bridleEffect
  dsimp only
  split
  · split <;> exact ⟨rfl, rfl⟩
  · split
    · exact setForces_frame _ _ s
    · exact setForces_frame _ _ s
    · exact acceptChange_frame _ s
    · exact ⟨rfl, rfl⟩
    · exact ⟨rfl, rfl⟩

theorem readResults_verdictStands (r : Nat) (s : State) : VerdictStands r s (readResults r s) := by
  unfold readResults
  split
  · exact .refl r s
  · dsimp only
    split
    · exact .refl r s
    · refine VerdictStands.trans (.foldl (fun s q => ?_) _ s) (.of_vote_eq rfl rfl)
      obtain ⟨hf, hv⟩ := bridleEffect_frame q s
      exact (VerdictStands.of_vote_eq hf hv).trans (.of_vote_eq rfl rfl)

theorem publishStatus_verdictStands (r : Nat) (s : State) (d : Die) : VerdictStands r s (publishStatus r s d) := by
  have hev : ∀ (b : Bool) (code : BitVec 16) (u p i : Nat) (k : BitVec 64) (t : State),
      VerdictStands r t (if b then logOpen code u p i k t else t) := by
    intro b code u p i k t
    split
    · exact .of_vote_eq rfl rfl
    · exact .refl r t
  unfold publishStatus
  dsimp only
  iterate 6 refine VerdictStands.trans ?_ (hev _ _ _ _ _ _ _)
  have hdie : VerdictStands r s (onDie d (fun x => modReg x r (fun g => { g with revOver := false })) s) := .of_vote_eq rfl rfl
  refine hdie.trans (.modCopy d (fun _ => ?_) _)
  exact ⟨rfl, rfl, id⟩

theorem afterVotes_verdictStands (r : Nat) (s : State) : VerdictStands r s (afterVotes s) := by
  have hbeat : VerdictStands r s (heartbeat s) := by
    unfold heartbeat
    dsimp only
    split <;> exact ⟨rfl, rfl, fun _ _ _ => rfl, fun _ => CopyKeeps.refl _⟩
  unfold afterVotes
  split
  · exact hbeat.trans (.of_vote_eq rfl rfl)
  · exact .refl r s

end Sys2Proof.Machine


/-!
PROOFS. What the vote of a region can do, and the votes at D (06 R207 to R211, 04 R153).
-/

namespace Sys2Proof.Machine

/-! ## The vote of a region (06 R208, R210, R211) -/

/-- What a vote of region `r` may change: its verdict, its copies, and the parts of `VoteFrame`. -/
structure VoteStep (r : Nat) (s t : State) : Prop where
  frame : VoteFrame s t
  deadline : t.vote.deadline = s.vote.deadline
  hw : t.vote.hw = s.vote.hw
  verdicts : ∀ q, q ≠ r → regionVote t.vote q = regionVote s.vote q
  copies : ∀ d q, q ≠ r → copyOf t.vote d q = copyOf s.vote d q

theorem VoteStep.trans {r : Nat} {s t u : State} (h : VoteStep r s t) (k : VoteStep r t u) : VoteStep r s u :=
  ⟨h.frame.trans k.frame, k.deadline.trans h.deadline, k.hw.trans h.hw, fun q hq => (k.verdicts q hq).trans (h.verdicts q hq),
    fun d q hq => (k.copies d q hq).trans (h.copies d q hq)⟩

theorem VerdictStands.regionVote_eq {r : Nat} {s t : State} (h : VerdictStands r s t) (q : Nat) :
    regionVote t.vote q = regionVote s.vote q := by rw [h.voter]; rfl

theorem VerdictStands.voteStep {r : Nat} {s t : State} (h : VerdictStands r s t) : VoteStep r s t :=
  ⟨h.frame, by rw [h.voter], by rw [h.voter], fun q _ => h.regionVote_eq q, h.others⟩

theorem regionVote_storeVote (r q : Nat) (code : BitVec 4) (wh wl : List Word) (v : VoteSt) :
    regionVote (storeVote r code wh wl v) q =
      if q = r ∧ r < 16 then { verdict := some code, h := wh, l := wl.map (~~~·) } else regionVote v q := by
  unfold regionVote storeVote
  by_cases hq : q = r
  · subst hq
    by_cases hr : q < 16 <;> simp [hr]
  · have hq' : r ≠ q := fun h => hq h.symm
    simp [hq, hq']

theorem storeVote_step (r : Nat) (code : BitVec 4) (wh wl : List Word) (s : State) : VoteStep r s (onVote (storeVote r code wh wl) s) :=
  ⟨rfl, rfl, rfl, fun q hq => (regionVote_storeVote r q code wh wl s.vote).trans (if_neg fun h => hq h.1), fun _ _ _ => rfl⟩

/-- A vote has tripped the module, after it has published what it had found. -/
def VoteTrips (r : Nat) (s t : State) : Prop :=
  ∃ q c region detail avail u, q.line ≠ 2 ∧ c ≠ .logicSupply ∧ VoteStep r s u ∧ t = tripBy q c region detail avail u

theorem VoteTrips.trippedSafe {r : Nat} {s t : State} (h : VoteTrips r s t) (hc : cyclesRun s = true) (hl : s.ao.tripLatch = false) :
    TrippedSafe t ∧ t.vote.deadline = s.vote.deadline := by
  obtain ⟨q, c, region, detail, avail, u, hq, hcause, hstep, rfl⟩ := h
  have hm : u.mode ≠ .dormant := by
    rw [hstep.frame]
    exact not_dormant_of_cyclesRun hc
  have hl' : u.ao.tripLatch = false := by
    rw [hstep.frame]
    exact hl
  obtain ⟨htrip, hvote⟩ := tripBy_trips region detail avail hq hcause hm hl'
  exact ⟨htrip, by rw [hvote, hstep.deadline]⟩

theorem publishTripped_verdictStands (r : Nat) (s : State) : VerdictStands r s (publishTripped r s) := by
  refine VerdictStands.trans (.foldl (fun t d => ?_) allDies s) (.foldl (publishStatus_verdictStands r) allDies _)
  exact missCounted_verdictStands r t d

/-- What a verdict that uses a block brings with it, over the copies available before it. -/
def settleVerdict (r : Nat) (vd : Verdict) (avail : List Die) (s : State) : State :=
  let s2 := allDies.foldl (copyAfterVote vd.words r avail) s
  afterVotes (allDies.foldl (publishStatus r) (readResults r (match vd.minority with
    | some d => excludeCopy d r .minority s2
    | none => s2)))

/-- What remains of it once the copies have been judged. -/
theorem settleVerdict_after (r : Nat) (vd : Verdict) (avail : List Die) (s : State) :
    VerdictStands r (allDies.foldl (copyAfterVote vd.words r avail) s) (settleVerdict r vd avail s) := by
  unfold settleVerdict
  refine VerdictStands.trans ?_ (afterVotes_verdictStands r _)
  refine VerdictStands.trans ?_ (.foldl (publishStatus_verdictStands r) allDies _)
  refine VerdictStands.trans ?_ (readResults_verdictStands r _)
  split
  · exact excludeCopy_verdictStands _ r _ _
  · exact .refl r _

theorem settleVerdict_verdictStands (r : Nat) (vd : Verdict) (avail : List Die) (s : State) : VerdictStands r s (settleVerdict r vd avail s) :=
  (VerdictStands.foldl (copyAfterVote_verdictStands vd.words r avail) allDies s).trans (settleVerdict_after r vd avail s)

/-- The voter's own tests before the vote of region `r` pass: the cause lines read healthy and region 0's triplets give their verdicts. -/
def VoterSound (v : VoteSt) (r : Nat) : Prop :=
  v.hw.lineHl = 2 ∧ v.hw.lineMaj = 2 ∧ (r = 0 → tripletsOk v.hw.h v.triplet = true ∧ tripletsOk v.hw.l v.triplet = true)

/-- A vote trips, or both halves give a verdict that uses a block, which is stored and has its consequences. -/
theorem voteRegion_cases (r : Nat) (s : State) :
    VoteTrips r s (voteRegion r s) ∨ ∃ vd vl, vd.code ≠ vdNOMAJ ∧ vd.code ≠ vdTOOFEW ∧
      voteHalf s.vote.hw.h (availDies s.vote r).length (ballots s.vote.hw.h s.vote .h r) = some vd ∧
      voteRegion r s = settleVerdict r vd (availDies s.vote r) (onVote (storeVote r vd.code vd.words vl) s) := by
  have hpub := (publishTripped_verdictStands r s).voteStep
  unfold voteRegion
  dsimp only
  split
  · exact .inl ⟨_, .hlDisagree, _, _, _, _, ‹_›, by decide, hpub, rfl⟩
  split
  · exact .inl ⟨_, .majorityLoss, _, _, _, _, ‹_›, by decide, hpub, rfl⟩
  split
  · exact .inl ⟨causeNow, .hlDisagree, _, _, _, _, by decide, by decide, hpub, rfl⟩
  split
  · rename_i vd vl hh hl
    split
    · exact .inl ⟨causeNow, .majorityLoss, _, _, _, _, by decide, by decide,
        (storeVote_step r _ _ _ s).trans (publishTripped_verdictStands r _).voteStep, rfl⟩
    · rename_i hcode
      simp only [Bool.or_eq_true, decide_eq_true_eq, not_or] at hcode
      exact .inr ⟨vd, vl.words, hcode.1, hcode.2, hh, rfl⟩
  · exact .inl ⟨causeNow, .hlDisagree, _, _, _, _, by decide, by decide, hpub, rfl⟩

/-- Where the voter is sound and both halves agree on a verdict that uses a block, that verdict is stored. -/
theorem voteRegion_of_agree {r : Nat} {s : State} {vd vl : Verdict} (hs : VoterSound s.vote r)
    (hh : voteHalf s.vote.hw.h (availDies s.vote r).length (ballots s.vote.hw.h s.vote .h r) = some vd)
    (hl : voteHalf s.vote.hw.l (availDies s.vote r).length (ballots s.vote.hw.l s.vote .l r) = some vl)
    (ha : halvesAgree s.vote r (some vd) (some vl) = true) (h1 : vd.code ≠ vdNOMAJ) (h2 : vd.code ≠ vdTOOFEW) :
    voteRegion r s = settleVerdict r vd (availDies s.vote r) (onVote (storeVote r vd.code vd.words vl.words) s) := by
  obtain ⟨hlineHl, hlineMaj, htri⟩ := hs
  have htest : (r = 0 && !(tripletsOk s.vote.hw.h s.vote.triplet && tripletsOk s.vote.hw.l s.vote.triplet)) = false := by
    by_cases hr : r = 0
    · simp [hr, htri hr]
    · simp [hr]
  unfold voteRegion
  simp only [hlineHl, hlineMaj, htest, hh, hl, ha, h1, h2, ne_eq, not_true_eq_false, if_false, Bool.not_true, Bool.or_self,
    Bool.false_eq_true, decide_false]
  rfl

theorem voteRegion_step (r : Nat) (s : State) : VoteTrips r s (voteRegion r s) ∨ VoteStep r s (voteRegion r s) := by
  rcases voteRegion_cases r s with h | ⟨vd, vl, -, -, -, h⟩
  · exact .inl h
  · rw [h]
    exact .inr ((storeVote_step r _ _ _ s).trans (settleVerdict_verdictStands r vd _ _).voteStep)

theorem voteHalf_tooFew (w : HalfHw) (n : Nat) {bs : List (Die × List Word)} (h : bs.length < 2) :
    voteHalf w n bs = some { code := vdTOOFEW, words := [], minority := none } := by
  unfold voteHalf
  dsimp only
  split
  · rfl
  · match bs, h with
    | [], _ => rfl
    | [_], _ => rfl

/-- Fewer than two blocks trip (06 Table 6.5). -/
theorem voteRegion_tooFew {r : Nat} {s : State} (h : (ballots s.vote.hw.h s.vote .h r).length < 2) : VoteTrips r s (voteRegion r s) := by
  rcases voteRegion_cases r s with ht | ⟨vd, vl, -, hcode, hhalf, -⟩
  · exact ht
  · rw [voteHalf_tooFew _ _ h] at hhalf
    cases hhalf
    exact absurd rfl hcode

/-! ## Votes that are due (01 R52, 04 R153) -/

theorem voteIfDue_notDue {s : State} {r : Nat} (h : voteDue s.vote r = false) : voteIfDue s r = s := by
  simp [voteIfDue, h]

theorem voteIfDue_voted {s : State} {r : Nat} (h : (regionVote s.vote r).verdict ≠ none) : voteIfDue s r = s :=
  voteIfDue_notDue (by simp [voteDue, h])

theorem voteIfDue_stopped {s : State} (r : Nat) (h : cyclesRun s = false) : voteIfDue s r = s := by
  simp [voteIfDue, h]

/-- At D a region without a verdict is due. -/
theorem voteIfDue_deadline {s : State} {r : Nat} (hc : cyclesRun s = true) (hx : xferHalted s = false) (hd : s.vote.deadline = true)
    (hv : (regionVote s.vote r).verdict = none) : voteIfDue s r = voteRegion r s := by
  simp [voteIfDue, voteDue, hc, hx, hd, hv]

theorem foldl_voteIfDue_voted {l : List Nat} {s : State} (h : ∀ q ∈ l, (regionVote s.vote q).verdict ≠ none) : l.foldl voteIfDue s = s := by
  induction l with
  | nil => rfl
  | cons q l ih =>
    rw [List.foldl_cons, voteIfDue_voted (h q (by simp))]
    exact ih fun p hp => h p (by simp [hp])

/-- Where every other region has its verdict, one region votes. -/
theorem foldl_voteIfDue_one {l : List Nat} {r : Nat} {s : State} (hr : r ∈ l)
    (ho : ∀ q ∈ l, q ≠ r → (regionVote s.vote q).verdict ≠ none)
    (hv : ∀ q ∈ l, (regionVote (voteIfDue s r).vote q).verdict ≠ none) : l.foldl voteIfDue s = voteIfDue s r := by
  induction l with
  | nil => cases hr
  | cons q l ih =>
    rw [List.foldl_cons]
    by_cases hq : q = r
    · rw [hq]
      exact foldl_voteIfDue_voted fun p hp => hv p (by simp [hp])
    · rw [voteIfDue_voted (ho q (by simp) hq)]
      exact ih (by simpa [Ne.symm hq] using hr) (fun p hp => ho p (by simp [hp])) fun p hp => hv p (by simp [hp])

/-- Region `r` awaits the vote at D with fewer than two blocks, in a module that runs with its latch clear. -/
structure ShortOfBlocks (r : Nat) (s : State) : Prop where
  runs : cyclesRun s = true
  free : xferHalted s = false
  deadline : s.vote.deadline = true
  open_ : (regionVote s.vote r).verdict = none
  few : (ballots s.vote.hw.h s.vote .h r).length < 2
  latch : s.ao.tripLatch = false

theorem ballots_congr {v w : VoteSt} {r : Nat} (h : ∀ d, copyOf w d r = copyOf v d r) (hw : HalfHw) (half : Side) :
    ballots hw w half r = ballots hw v half r := by
  unfold ballots availDies isAvail presenceOf
  simp only [h]

/-- The vote of another region leaves it short. -/
theorem ShortOfBlocks.voteStep {r q : Nat} {s t : State} (h : ShortOfBlocks r s) (hq : r ≠ q) (k : VoteStep q s t) : ShortOfBlocks r t := by
  have hf := k.frame
  refine ⟨?_, ?_, k.deadline.trans h.deadline, ?_, ?_, ?_⟩
  · rw [hf]
    exact h.runs
  · rw [hf]
    exact h.free
  · rw [k.verdicts r hq]
    exact h.open_
  · rw [k.hw, ballots_congr fun d => k.copies d r hq]
    exact h.few
  · rw [hf]
    exact h.latch

/-- A region short of blocks trips the module in its turn, unless another has before. -/
theorem foldl_voteIfDue_trips {l : List Nat} {r : Nat} {s : State} (hr : r ∈ l) (h : ShortOfBlocks r s) :
    TrippedSafe (l.foldl voteIfDue s) ∧ (l.foldl voteIfDue s).vote.deadline = true := by
  have hstay : ∀ (l : List Nat) (t : State), TrippedSafe t → l.foldl voteIfDue t = t := fun l t ht =>
    List.foldlRecOn (motive := fun u => u = t) l _ rfl fun u hu q _ => by rw [hu]; exact voteIfDue_stopped q ht.cyclesRun
  have htrip : ∀ (l : List Nat) (q : Nat) (t : State), ShortOfBlocks r t → VoteTrips q t (voteRegion q t) →
      TrippedSafe (l.foldl voteIfDue (voteRegion q t)) ∧ (l.foldl voteIfDue (voteRegion q t)).vote.deadline = true := by
    intro l q t ht hvt
    obtain ⟨hsafe, hd⟩ := hvt.trippedSafe ht.runs ht.latch
    rw [hstay l _ hsafe]
    exact ⟨hsafe, hd.trans ht.deadline⟩
  induction l generalizing s with
  | nil => cases hr
  | cons q l ih =>
    rw [List.foldl_cons]
    by_cases hq : r = q
    · subst hq
      rw [voteIfDue_deadline h.runs h.free h.deadline h.open_]
      exact htrip l r s h (voteRegion_tooFew h.few)
    · have hrl : r ∈ l := by simpa [hq] using hr
      by_cases hv : (regionVote s.vote q).verdict = none
      · rw [voteIfDue_deadline h.runs h.free h.deadline hv]
        rcases voteRegion_step q s with ht | ht
        · exact htrip l q s h ht
        · exact ih hrl (h.voteStep hq ht)
      · rw [voteIfDue_voted hv]
        exact ih hrl h

end Sys2Proof.Machine


/-!
PROOFS. The rows DEADLINE, COMMIT_BLOCK_ARRIVAL and CYCLE_START_ACK (01 R52 to R54, 04 R153, 13 R405): O24.
-/

namespace Sys2Proof.Machine

/-! ## Two equal blocks of three available copies (06 R207, R208) -/

/-- The exchanged presence vector shows the blocks that are there. -/
theorem bitOf_presenceOf (v : VoteSt) (r : Nat) (d : Die) : bitOf (presenceOf halfSound v r) (dieIndex d) = isPresent (copyOf v d r) := by
  have hbits : ∀ a b c : Bool, bitOf (setBitOf (setBitOf (setBitOf (0 : BitVec 3) 0 a) 1 b) 2 c) 0 = a ∧
      bitOf (setBitOf (setBitOf (setBitOf (0 : BitVec 3) 0 a) 1 b) 2 c) 1 = b ∧
      bitOf (setBitOf (setBitOf (setBitOf (0 : BitVec 3) 0 a) 1 b) 2 c) 2 = c := by decide
  obtain ⟨ha, hb, hc⟩ := hbits (isPresent (copyOf v .a r)) (isPresent (copyOf v .b r)) (isPresent (copyOf v .c r))
  cases d
  · exact ha
  · exact hb
  · exact hc

theorem ballot_present {s : State} {e : Die} {r : Nat} {ws : List Word} (h : Ballot s e r ws) : isPresent (copyOf s.vote e r) = true := by
  obtain ⟨-, hH, hL⟩ := h
  simp [isPresent, hH, hL]

theorem eq_of_three_dies {d e f : Die} (hde : d ≠ e) (hdf : d ≠ f) (hef : e ≠ f) (x : Die) : x = d ∨ x = e ∨ x = f := by
  revert hde hdf hef
  cases d <;> cases e <;> cases f <;> cases x <;> decide

/-- One of three dies without a block leaves each half the blocks of the other two, in the dies' order. -/
theorem ballots_two {s : State} {d e f : Die} {r : Nat} {ws : List Word} (hde : d ≠ e) (hdf : d ≠ f) (hef : e ≠ f)
    (he : Ballot s e r ws) (hf : Ballot s f r ws) (hd : isAvail s.vote d r = true) (hp : isPresent (copyOf s.vote d r) = false) :
    availDies s.vote r = allDies ∧ ∃ x y, ∀ half, ballots halfSound s.vote half r = [(x, ws), (y, ws)] := by
  have hcases : ∀ x, x = d ∨ x = e ∨ x = f := eq_of_three_dies hde hdf hef
  have havail : availDies s.vote r = allDies := by
    refine List.filter_eq_self.mpr fun x _ => ?_
    rcases hcases x with rfl | rfl | rfl
    · exact hd
    · exact he.1
    · exact hf.1
  have hblock : ∀ half x, (if bitOf (presenceOf halfSound s.vote r) (dieIndex x) then
      (match half with
        | Side.h => (copyOf s.vote x r).rxH
        | Side.l => (copyOf s.vote x r).rxL).map (fun ws => (x, ws)) else none) = if x = d then none else some (x, ws) := by
    intro half x
    rw [bitOf_presenceOf]
    rcases hcases x with rfl | rfl | rfl
    · simp [hp]
    · rw [ballot_present he, if_pos rfl, if_neg hde.symm]
      cases half <;> simp [he.2.1, he.2.2]
    · rw [ballot_present hf, if_pos rfl, if_neg hdf.symm]
      cases half <;> simp [hf.2.1, hf.2.2]
  have htwo : ∀ half, ballots halfSound s.vote half r = allDies.filterMap (fun x => if x = d then none else some (x, ws)) := by
    intro half
    unfold ballots
    rw [havail]
    exact List.filterMap_congr fun x _ => hblock half x
  refine ⟨havail, ?_⟩
  cases d
  · exact ⟨.b, .c, htwo⟩
  · exact ⟨.a, .c, htwo⟩
  · exact ⟨.a, .b, htwo⟩

theorem pairCmp_halfSound (x y : Die) : pairCmp halfSound x y = none := by cases x <;> cases y <;> rfl

/-- Two equal blocks of three available copies are the majority, with one missing. -/
theorem voteHalf_two (x y : Die) (ws : List Word) :
    voteHalf halfSound 3 [(x, ws), (y, ws)] = some { code := vdMAJMISS, words := ws, minority := none } := by
  simp [voteHalf, pairCmp_halfSound, cmpOut]

/-- Three blocks in a sound half (06 Table 6.5). -/
theorem voteHalf_three (x y z : Die) (u v w : List Word) :
    voteHalf halfSound 3 [(x, u), (y, v), (z, w)] = some (
      if u = v ∧ u = w then { code := vdAGREE3, words := u, minority := none }
      else if u = v then { code := vdMAJEXCL, words := u, minority := some z }
      else if u = w then { code := vdMAJEXCL, words := u, minority := some y }
      else if v = w then { code := vdMAJEXCL, words := v, minority := some x }
      else { code := vdNOMAJ, words := [], minority := none }) := by
  unfold voteHalf
  simp only [pairCmp_halfSound, cmpOut, Option.getD_none, decide_eq_true_eq]
  by_cases huv : u = v <;> by_cases huw : u = w <;> by_cases hvw : v = w <;> simp_all

/-- A sound half gives the verdict of every test triplet (06 R211). -/
theorem tripletsOk_halfSound (t : Nat) : tripletsOk halfSound t = true := by
  have hbit : ∀ k, k < 32 → (1#32 <<< k) ≠ 0#32 ∧ ~~~(1#32 <<< k) ≠ 0#32 ∧ (1#32 <<< k) ≠ ~~~(1#32 <<< k) := by decide
  obtain ⟨h1, h2, h3⟩ := hbit (t % 32) (Nat.mod_lt _ (by decide))
  unfold tripletsOk
  dsimp only
  generalize (1#32 <<< (t % 32) : Word) = b at h1 h2 h3
  simp only [allDies, List.map_cons, List.map_nil, voteHalf_three]
  generalize hodd : (if t / 32 % 3 = 0 then Die.a else if t / 32 % 3 = 1 then Die.b else Die.c) = odd
  cases odd <;> simp [h1, h2, h3, h1.symm, h2.symm, h3.symm, vdMAJEXCL, vdAGREE3, vdNOMAJ]

/-- At D, in a sound voter, the two blocks are voted under code 0x6. -/
theorem voteRegion_two {s : State} {d e f : Die} {r : Nat} {ws : List Word} (hw : s.vote.hw = hwSound) (hde : d ≠ e) (hdf : d ≠ f)
    (hef : e ≠ f) (he : Ballot s e r ws) (hf : Ballot s f r ws) (hd : isAvail s.vote d r = true) (hp : isPresent (copyOf s.vote d r) = false) :
    voteRegion r s = settleVerdict r { code := vdMAJMISS, words := ws, minority := none } allDies (onVote (storeVote r vdMAJMISS ws ws) s) := by
  obtain ⟨havail, x, y, hballots⟩ := ballots_two hde hdf hef he hf hd hp
  have hhalf : ∀ half, voteHalf halfSound (availDies s.vote r).length (ballots halfSound s.vote half r) =
      some { code := vdMAJMISS, words := ws, minority := none } := by
    intro half
    rw [hballots half, havail]
    exact voteHalf_two x y ws
  have hsound : VoterSound s.vote r := by
    unfold VoterSound
    rw [hw]
    exact ⟨rfl, rfl, fun _ => ⟨tripletsOk_halfSound _, tripletsOk_halfSound _⟩⟩
  have hagree : halvesAgree s.vote r (some { code := vdMAJMISS, words := ws, minority := none })
      (some { code := vdMAJMISS, words := ws, minority := none }) = true := by
    simp [halvesAgree, hw, hwSound, cmpOut]
  have hne : vdMAJMISS ≠ vdNOMAJ ∧ vdMAJMISS ≠ vdTOOFEW := by decide
  have hvoted := voteRegion_of_agree hsound (by rw [hw]; exact hhalf .h) (by rw [hw]; exact hhalf .l) hagree hne.1 hne.2
  rwa [havail] at hvoted

/-- Where that region is the last without a verdict, D brings its vote and nothing else. -/
theorem foldl_voteIfDue_two {s : State} {d e f : Die} {r : Nat} {ws : List Word} (hr : r < 16) (hc : cyclesRun s = true)
    (hx : xferHalted s = false) (hdead : s.vote.deadline = true) (hw : s.vote.hw = hwSound) (hde : d ≠ e) (hdf : d ≠ f) (hef : e ≠ f)
    (hv : (regionVote s.vote r).verdict = none) (ho : ∀ q, q < 16 → q ≠ r → (regionVote s.vote q).verdict ≠ none)
    (he : Ballot s e r ws) (hf : Ballot s f r ws) (hd : isAvail s.vote d r = true) (hp : isPresent (copyOf s.vote d r) = false) :
    (numsFrom 0 16).foldl voteIfDue s =
      settleVerdict r { code := vdMAJMISS, words := ws, minority := none } allDies (onVote (storeVote r vdMAJMISS ws ws) s) := by
  have hlt : ∀ q ∈ numsFrom 0 16, q < 16 := fun q hq => by simpa using (mem_numsFrom.mp hq).2
  have hone := (voteIfDue_deadline hc hx hdead hv).trans (voteRegion_two hw hde hdf hef he hf hd hp)
  rw [← hone]
  refine foldl_voteIfDue_one (mem_numsFrom.mpr ⟨Nat.zero_le r, by omega⟩) (fun q hq hqr => ho q (hlt q hq) hqr) fun q hq => ?_
  rw [hone, (settleVerdict_verdictStands r _ allDies _).regionVote_eq]
  simp only [onVote_fields, regionVote_storeVote]
  split
  · exact Option.some_ne_none _
  · rename_i h
    exact ho q (hlt q hq) fun hqr => h ⟨hqr, hr⟩

/-- The vote of the two blocks: their words stand, and the third copy has missed. -/
theorem settleVerdict_two (s : State) {d : Die} {r : Nat} (ws : List Word) (hr : r < 16) (hp : isPresent (copyOf s.vote d r) = false) :
    let t := settleVerdict r { code := vdMAJMISS, words := ws, minority := none } allDies (onVote (storeVote r vdMAJMISS ws ws) s)
    (regionVote t.vote r).verdict = some vdMAJMISS ∧ (regionVote t.vote r).h = ws ∧ (copyOf t.vote d r).missNow = true ∧
      t.mode = s.mode ∧ t.outs = s.outs := by
  have hstands := settleVerdict_verdictStands r { code := vdMAJMISS, words := ws, minority := none } allDies
    (onVote (storeVote r vdMAJMISS ws ws) s)
  have hafter := settleVerdict_after r { code := vdMAJMISS, words := ws, minority := none } allDies
    (onVote (storeVote r vdMAJMISS ws ws) s)
  have hmiss := foldl_copyAfterVote_missed ws hr allDies (d := d) (l := allDies) (by cases d <;> decide)
    (onVote (storeVote r vdMAJMISS ws ws) s) hp
  have hvote := hstands.regionVote_eq r
  simp only [onVote_fields, regionVote_storeVote, true_and, if_pos hr] at hvote
  have hframe := hstands.frame
  refine ⟨by rw [hvote], by rw [hvote], (hafter.copies d).2.2 hmiss, ?_, ?_⟩ <;> rw [hframe] <;> rfl

/-! ## A block that arrives (06 R207) -/

/-- The lane checks touch the check units alone. -/
theorem feedCheck_reads (s : State) (d : Die) (lane : Side) (r : Nat) (rx : LaneRx) (v : VoteSt) :
    (∀ e q, copyOf (feedCheck s d lane r rx v) e q = copyOf v e q) ∧ (∀ q, regionVote (feedCheck s d lane r rx v) q = regionVote v q) ∧
      (feedCheck s d lane r rx v).deadline = v.deadline := by
  unfold feedCheck
  split <;> exact ⟨fun _ _ => rfl, fun _ => rfl, rfl⟩

/-- The voter once a block has arrived: the copy holds what each half can use of it, and the lane check units have been fed. -/
def blockTaken (s : State) (d : Die) (r : Nat) (rxH rxL : LaneRx) (hw : VoteHw) (h l : Option (List Word)) : VoteSt :=
  feedCheck s d .h r rxH (feedCheck s d .l r rxL (modCopy d r (fun c => { c with arrived := true, rxH := h, rxL := l }) { s.vote with hw := hw }))

theorem blockTaken_reads {r : Nat} (hr : r < 16) (s : State) (d : Die) (rxH rxL : LaneRx) (hw : VoteHw) (h l : Option (List Word)) :
    copyOf (blockTaken s d r rxH rxL hw h l) d r = { copyOf s.vote d r with arrived := true, rxH := h, rxL := l } ∧
      regionVote (blockTaken s d r rxH rxL hw h l) r = regionVote s.vote r ∧
      (blockTaken s d r rxH rxL hw h l).deadline = s.vote.deadline := by
  unfold blockTaken
  obtain ⟨hcopyH, hvoteH, hdeadH⟩ := feedCheck_reads s d .h r rxH (feedCheck s d .l r rxL
    (modCopy d r (fun c => { c with arrived := true, rxH := h, rxL := l }) { s.vote with hw := hw }))
  obtain ⟨hcopyL, hvoteL, hdeadL⟩ := feedCheck_reads s d .l r rxL
    (modCopy d r (fun c => { c with arrived := true, rxH := h, rxL := l }) { s.vote with hw := hw })
  refine ⟨?_, (hvoteH r).trans (hvoteL r), hdeadH.trans hdeadL⟩
  rw [hcopyH, hcopyL, copyOf_modCopy, if_pos ⟨rfl, rfl, hr⟩]
  rfl

/-- A block that leaves its region undecided, or finds it decided, has only arrived. -/
theorem blockTaken_notDue {r : Nat} (hr : r < 16) {s : State} {d : Die} {rxH rxL : LaneRx} {hw : VoteHw} {h l : Option (List Word)}
    (hn : h = none ∨ l = none) (hv : s.vote.deadline = false ∨ (regionVote s.vote r).verdict ≠ none) :
    isPresent (copyOf (blockTaken s d r rxH rxL hw h l) d r) = false ∧ voteDue (blockTaken s d r rxH rxL hw h l) r = false := by
  obtain ⟨hcopy, hvote, hdead⟩ := blockTaken_reads hr s d rxH rxL hw h l
  have hp : isPresent (copyOf (blockTaken s d r rxH rxL hw h l) d r) = false := by
    rw [hcopy]
    rcases hn with rfl | rfl <;> simp [isPresent]
  have hall : allDies.all (fun e => isPresent (copyOf (blockTaken s d r rxH rxL hw h l) e r)) = false :=
    List.all_eq_false.mpr ⟨d, by cases d <;> decide, by simp [hp]⟩
  refine ⟨hp, ?_⟩
  unfold voteDue
  rw [hvote, hdead, hall]
  rcases hv with hv | hv
  · simp [hv]
  · simp [hv]

/-! ## A die clock that is off (13 R405) -/

/-- Exclusions of copies of die `d`: other dies, the counts of good clocks, mode and outputs stay, and what is excluded stays so. -/
structure ExcludesOf (d : Die) (s t : State) : Prop where
  mode : t.mode = s.mode
  outs : t.outs = s.outs
  clockGood : t.vote.clockGood = s.vote.clockGood
  others : ∀ e q, e ≠ d → copyOf t.vote e q = copyOf s.vote e q
  stays : ∀ q, isExcluded (copyOf s.vote d q) = true → isExcluded (copyOf t.vote d q) = true

theorem ExcludesOf.refl (d : Die) (s : State) : ExcludesOf d s s := ⟨rfl, rfl, rfl, fun _ _ _ => rfl, fun _ => id⟩

theorem ExcludesOf.trans {d : Die} {s t u : State} (h : ExcludesOf d s t) (k : ExcludesOf d t u) : ExcludesOf d s u :=
  ⟨k.mode.trans h.mode, k.outs.trans h.outs, k.clockGood.trans h.clockGood, fun e q he => (k.others e q he).trans (h.others e q he),
    fun q hq => k.stays q (h.stays q hq)⟩

theorem excludeCopy_excludesOf (d : Die) (r : Nat) (c : ExclCause) (s : State) : ExcludesOf d s (excludeCopy d r c s) := by
  have hv := excludeCopy_vote d r c s
  split at hv
  · refine ⟨by rw [excludeCopy_eq], by rw [excludeCopy_eq], by rw [hv], fun _ _ _ => by rw [hv], fun _ hq => by rwa [hv]⟩
  · refine ⟨by rw [excludeCopy_eq], by rw [excludeCopy_eq], by rw [hv]; rfl, fun e q he => ?_, fun q hq => ?_⟩ <;> rw [hv, copyOf_modCopy]
    · exact if_neg fun h => he h.1
    · split
      · rfl
      · exact hq

theorem foldl_excludeCopy_excludesOf (d : Die) (c : ExclCause) (l : List Nat) (s : State) :
    ExcludesOf d s (l.foldl (fun s r => excludeCopy d r c s) s) :=
  List.foldlRecOn _ _ (ExcludesOf.refl d s) fun _ ht r _ => ht.trans (excludeCopy_excludesOf d r c _)

theorem foldl_excludeCopy_excluded (d : Die) (c : ExclCause) {q : Nat} (hq : q < 16) {l : List Nat} (hl : q ∈ l) (s : State) :
    isExcluded (copyOf (l.foldl (fun s r => excludeCopy d r c s) s).vote d q) = true := by
  induction l generalizing s with
  | nil => cases hl
  | cons r l ih =>
    rw [List.foldl_cons]
    rcases List.mem_cons.mp hl with rfl | hl
    · exact (foldl_excludeCopy_excludesOf d c l _).stays q (excludeCopy_excluded hq d c s)
    · exact ih hl _

/-! ## The three rows -/

theorem exec_deadline {s : State} (hw : VoteHw) (hc : cyclesRun s = true) :
    exec (.deadline hw) s = .next ((numsFrom 0 16).foldl voteIfDue (onVote (fun v => { v with deadline := true, hw := hw }) s)) :=
  congrArg Host.Outcome.next (if_neg (by simp [hc]))

theorem exec_commitBlockArrival {s : State} {d : Die} {r : Nat} (rxH rxL : LaneRx) (hw : VoteHw) (hc : cyclesRun s = true) (hr : r < 16)
    (ha : (copyOf s.vote d r).arrived = false) :
    exec (.commitBlockArrival d r rxH rxL hw) s =
      .next (voteIfDue (onVote (fun _ => blockTaken s d r rxH rxL hw (if s.vote.deadline then none else laneUsable s d .h r rxH)
        (if s.vote.deadline then none else laneUsable s d .l r rxL)) s) r) :=
  congrArg Host.Outcome.next (if_neg (by simp [hc, ha, hr]))

/-- Settles O24: a region short of blocks trips (`foldl_voteIfDue_trips`), two equal blocks are voted under 0x6 (`voteRegion_two`), a
block that makes no vote due has only arrived (`blockTaken_notDue`), and a clock that is off excludes copy after copy
(`foldl_excludeCopy_excluded`). -/
theorem deadlineAndDieClocks : Obligations.DeadlineAndDieClocks := by
  intro s d r c k rxH rxL hw hr
  have hr16 : r ∈ numsFrom 0 16 := mem_numsFrom.mpr ⟨Nat.zero_le r, by omega⟩
  have hlt : ∀ q ∈ numsFrom 0 16, q < 16 := fun q hq => by simpa using (mem_numsFrom.mp hq).2
  refine ⟨fun hc hx hv hb hl => ?_, fun e f ws hc hx hde hdf hef hv ho he hf hd hp => ?_, fun hc hv => ?_, fun hc ha hn => ?_, fun ha => ?_,
    fun hc hk => ?_, fun hc hk => ?_, fun hc => ⟨?_, ?_, ?_⟩⟩
  · -- fewer than two blocks
    have hshort : ShortOfBlocks r (onVote (fun v => { v with deadline := true, hw := hwSound }) s) := ⟨hc, hx, rfl, hv, hb, hl⟩
    obtain ⟨htrip, hdead⟩ := foldl_voteIfDue_trips hr16 hshort
    exact ⟨_, exec_deadline hwSound hc, hdead, htrip⟩
  · -- two equal blocks of three
    refine ⟨_, exec_deadline hwSound hc, ?_⟩
    rw [foldl_voteIfDue_two (s := onVote (fun v => { v with deadline := true, hw := hwSound }) s) hr hc hx rfl rfl hde hdf hef hv ho he hf hd hp]
    exact settleVerdict_two (onVote (fun v => { v with deadline := true, hw := hwSound }) s) ws hr hp
  · -- every verdict stands
    refine ⟨_, exec_deadline hw hc, ?_⟩
    exact foldl_voteIfDue_voted fun q hq => hv q (hlt q hq)
  · -- a block that cannot be used, or is late
    have hnone : (if s.vote.deadline then none else laneUsable s d .h r rxH) = none ∨
        (if s.vote.deadline then none else laneUsable s d .l r rxL) = none := by
      rcases hn with ⟨hd, h⟩ | ⟨hd, -⟩
      · simpa [hd] using h
      · simp [hd]
    refine ⟨_, exec_commitBlockArrival rxH rxL hw hc hr ha, ?_⟩
    generalize (if s.vote.deadline then none else laneUsable s d .h r rxH) = h at hnone
    generalize (if s.vote.deadline then none else laneUsable s d .l r rxL) = l at hnone
    obtain ⟨hcopy, hvote, -⟩ := blockTaken_reads hr s d rxH rxL hw h l
    obtain ⟨hp, hdue⟩ := blockTaken_notDue (rxH := rxH) (rxL := rxL) (hw := hw) hr hnone (hn.imp And.left And.right)
    rw [voteIfDue_notDue hdue]
    exact ⟨congrArg Copy.arrived hcopy, hp, congrArg RegionVote.verdict hvote, rfl⟩
  · -- a second block
    exact ⟨_, congrArg Host.Outcome.next (if_pos (by simp [ha])), rfl⟩
  · -- a die count within the limit
    refine ⟨_, congrArg Host.Outcome.next ((if_neg (by simp [hc])).trans (if_pos hk)), ?_⟩
    exact ⟨triGet_triMod_self _ _ _, fun e he => triGet_triMod_other _ _ he, rfl⟩
  · -- a die count outside it
    refine ⟨_, congrArg Host.Outcome.next ((if_neg (by simp [hc])).trans (if_neg (by simp [hk]))), ?_⟩
    have hex := foldl_excludeCopy_excludesOf d .clock (numsFrom 0 16) (onVote (fun v => { v with clockGood := triMod v.clockGood d (fun _ => 0) }) s)
    have hall := fun q hq => foldl_excludeCopy_excluded d .clock (q := q) hq (l := numsFrom 0 16) (mem_numsFrom.mpr ⟨Nat.zero_le q, by omega⟩)
      (onVote (fun v => { v with clockGood := triMod v.clockGood d (fun _ => 0) }) s)
    refine ⟨?_, hall, hex.others, hex.mode, hex.outs⟩
    exact (congrArg (triGet · d) hex.clockGood).trans (triGet_triMod_self _ _ _)
  · exact ⟨_, congrArg Host.Outcome.next (if_pos (by simp [hc])), rfl⟩
  · exact ⟨_, congrArg Host.Outcome.next (if_pos (by simp [hc])), rfl⟩
  · exact ⟨_, congrArg Host.Outcome.next (if_pos (by simp [hc])), rfl⟩

end Sys2Proof.Machine


/-!
PROOFS. Cells and regions of a die, and the tasks that start once step 5 of RULES_IN is done (05 R179).
-/

namespace Sys2Proof.Machine

/-! ## Cells of a die -/

theorem getCell_setCell (x : DieSt) (n m : Nat) (c : CellRec) : getCell (setCell x n c) m = if n = m then c else getCell x m :=
  getA_putA cellUnused c n m x.cells

theorem getCell_mapCells (x : DieSt) {f : Nat → CellRec → CellRec} {n : Nat} (hf : f n cellUnused = cellUnused) :
    getCell (mapCells x f) n = f n (getCell x n) := getA_mapA cellUnused f n hf x.cells

theorem regionOf_lt (n : Nat) : regionOf n < 16 := Nat.mod_lt _ (by decide)

theorem regHalted_eq_halted (x : DieSt) {r : Nat} (hr : r < 16) : regHalted x r = (reg x r).halted := by
  simp [regHalted, reg, hr]

/-! ## Results (17 R472) -/

theorem putResult_eq (x : DieSt) {r : Nat} (hr : r < 16) (q : ReqResult) :
    putResult r q x = modReg x r (fun g => { g with results := g.results ++ [q] }) := by
  have hget : x.regions.toList[r]? = some (reg x r) := by simp [reg, hr]
  unfold putResult
  rw [hget]
  rfl

theorem giveResult_regions (r n : Nat) (result reason : BitVec 8) (info : Word) (x : DieSt) :
    RegionsOnly x (giveResult r n result reason info x) := by
  unfold giveResult putResult
  split
  · exact RegionsOnly.refl x
  · split <;> rfl

/-- A region that is not halted appends the result and changes nothing else. -/
theorem reg_giveResult {r : Nat} (hr : r < 16) (n : Nat) (result reason : BitVec 8) (info : Word) {x : DieSt}
    (hh : (reg x r).halted = false) :
    reg (giveResult r n result reason info x) r =
      { reg x r with results := (reg x r).results ++ [{ slot := n, result := result, reason := reason, info := info }] } := by
  unfold giveResult
  rw [if_neg (by simp [hh]), putResult_eq x hr, reg_modReg_self x hr]

/-! ## The tasks of RULES_IN (05 R179) -/

/-- A region in which at most a task has started, its forced variables written. -/
def TaskStarts (a b : RegionSt) : Prop :=
  b = { a with mem := b.mem, g := b.g, pc := b.pc, task := b.task, evtCur := b.evtCur, errLeft := b.errLeft,
               sup := { a.sup with initDone := b.sup.initDone } }

/-- Two dies differ at most in tasks that have started in the second. -/
def TasksStart (x y : DieSt) : Prop := RegionsOnly x y ∧ ∀ q, TaskStarts (reg x q) (reg y q)

theorem TasksStart.refl (x : DieSt) : TasksStart x x := ⟨RegionsOnly.refl x, fun _ => rfl⟩

theorem TasksStart.trans {x y z : DieSt} (h : TasksStart x y) (k : TasksStart y z) : TasksStart x z := by
  refine ⟨h.1.trans k.1, fun q => ?_⟩
  have hq := h.2 q
  have kq := k.2 q
  unfold TaskStarts at *
  rw [kq, hq]

theorem tasksStart_modReg (x : DieSt) (r : Nat) {f : RegionSt → RegionSt} (hf : ∀ g, TaskStarts g (f g)) : TasksStart x (modReg x r f) := by
  refine ⟨rfl, fun q => ?_⟩
  rw [reg_modReg]
  split
  · rename_i h
    rw [h.1]
    exact hf _
  · rfl

theorem startTask_starts (r : Nat) (t : BitVec 4) (x : DieSt) : TasksStart x (startTask r t x) :=
  tasksStart_modReg x r fun _ => rfl

theorem runTasksIn_starts (r k : Nat) (x : DieSt) : TasksStart x (runTasksIn r k x) := by
  have cyc : ∀ y, TasksStart y (if decide (entryPoint x r tkCYCIN ≠ 0) then startTask r tkCYCIN y else y) := fun y => by
    split
    · exact startTask_starts r tkCYCIN y
    · exact TasksStart.refl y
  have err : ∀ y, TasksStart y
      (if (errorSources (reg y r).sup.snap).isEmpty || !decide (entryPoint x r tkERROR ≠ 0) then
        if decide (entryPoint x r tkCYCIN ≠ 0) then startTask r tkCYCIN y else y
      else startTask r tkERROR (modReg y r (fun g => { g with errLeft := errorSources (reg y r).sup.snap }))) := fun y => by
    split
    · exact cyc y
    · exact (tasksStart_modReg y r fun _ => by exact rfl).trans (startTask_starts r tkERROR _)
  unfold runTasksIn
  dsimp only
  split
  · exact TasksStart.refl x
  split
  · split
    · exact err x
    split
    · exact startTask_starts r tkINIT x
    · exact (tasksStart_modReg x r fun _ => by exact rfl).trans (err _)
  split
  · exact err x
  split
  · exact cyc x
  · exact TasksStart.refl x

theorem startTasksIn_starts (part : StationPart) (x : DieSt) : TasksStart x (startTasksIn part x) := by
  refine List.foldlRecOn _ _ ?_ fun y hy r _ => hy.trans (runTasksIn_starts r 0 y)
  exact List.foldlRecOn _ _ (TasksStart.refl x) fun y hy r _ => hy.trans (tasksStart_modReg y r fun _ => rfl)

/-! ## The head of the work of step 5 -/

/-- The die whose work of step 5 is `rest`. -/
def withTodo (rest : List Todo) (x : DieSt) : DieSt := { x with todo := rest }

/-- The die `d` has done the head of its work, which gives `y`; its tasks may have started. -/
def HeadTaken (d : Die) (y : DieSt) (s t : State) : Prop :=
  DieStep d s t ∧ ∃ z, TasksStart y z ∧ dieOf t d = { z with logOut := [] }

theorem HeadTaken.keeps {d : Die} {y : DieSt} {s t : State} (h : HeadTaken d y s t) :
    (dieOf t d).cells = y.cells ∧ (dieOf t d).routes = y.routes ∧ (dieOf t d).todo = y.todo ∧
      ∀ q, (reg (dieOf t d) q).results = (reg y q).results ∧ (reg (dieOf t d) q).sup.pendings = (reg y q).sup.pendings := by
  obtain ⟨-, z, ⟨hz, hreg⟩, ht⟩ := h
  rw [ht]
  refine ⟨by rw [hz], by rw [hz], by rw [hz], fun q => ?_⟩
  show (reg z q).results = _ ∧ (reg z q).sup.pendings = _
  rw [hreg q]
  exact ⟨rfl, rfl⟩

theorem todoRow_head {p : Todo → Bool} {d : Die} {s : State} {i : Todo} {rest : List Todo} (hph : (dieOf s d).phase = phRULESIN)
    (htodo : (dieOf s d).todo = i :: rest) (hp : p i = true) :
    HeadTaken d (todoStep s (withTodo rest (dieOf s d)) i) s (todoRow p d s) := by
  have hrow : todoRow p d s = takeDieLogs d (onDie d (fun x =>
      let y := todoStep s (withTodo rest x) i
      if rest.isEmpty then startTasksIn s.part y else y) s) := by
    unfold todoRow
    dsimp only
    rw [htodo]
    exact if_pos (by simp [hph, hp])
  rw [hrow]
  refine ⟨dieStep_onDie_logs d _ s, _, ?_, by rw [dieOf_takeDieLogs, dieOf_onDie_self]⟩
  dsimp only
  split
  · exact startTasksIn_starts s.part _
  · exact TasksStart.refl _

/-- With no change accepted, a request at the head is done as it stands. -/
theorem todoRow_request {p : Todo → Bool} {d : Die} {s : State} {n : Nat} {c : WinCmd} {rest : List Todo} (h : HeadRequest s d n c rest)
    (hp : p (.request n) = true) : HeadTaken d (dieRequest s n (withTodo rest (dieOf s d))) s (todoRow p d s) := by
  obtain ⟨hph, htodo, -, hchange⟩ := h
  have hfree : barredSet s (withTodo rest (dieOf s d)) n = none := by
    have : changeImage s (withTodo rest (dieOf s d)) = none := hchange
    unfold barredSet
    dsimp only
    rw [this]
    split
    · rename_i h
      cases h
    · rfl
  have hstep : todoStep s (withTodo rest (dieOf s d)) (.request n) = dieRequest s n (withTodo rest (dieOf s d)) := by
    unfold todoStep
    simp only [hfree]
  rw [← hstep]
  exact todoRow_head hph htodo hp

end Sys2Proof.Machine


/-!
PROOFS. Cell commands at step 5 of RULES_IN (02 R93, 17 R475): O45.
-/

namespace Sys2Proof.Machine

/-! ## One cell of a die changes -/

/-- Two dies differ at most in their regions and in cell `cell`, which holds `e` in the second. -/
def OnlyCell (cell : Nat) (e : CellRec) (x y : DieSt) : Prop :=
  y = { x with cells := y.cells, dirtyCells := y.dirtyCells, regions := y.regions } ∧ getCell y cell = e ∧
    ∀ m, m ≠ cell → getCell y m = getCell x m

theorem onlyCell_self (cell : Nat) (x : DieSt) : OnlyCell cell (getCell x cell) x x := ⟨rfl, rfl, fun _ _ => rfl⟩

theorem onlyCell_setCell (cell : Nat) (e : CellRec) (x : DieSt) : OnlyCell cell e x (setCell x cell e) :=
  ⟨rfl, (getCell_setCell x cell cell e).trans (if_pos rfl), fun m hm => (getCell_setCell x cell m e).trans (if_neg hm.symm)⟩

theorem OnlyCell.regions {cell : Nat} {e : CellRec} {x y z : DieSt} (h : OnlyCell cell e x y) (k : RegionsOnly y z) :
    OnlyCell cell e x z := by
  obtain ⟨honly, hcell, hother⟩ := h
  have hget : ∀ m, getCell z m = getCell y m := fun m => by rw [k]; rfl
  exact ⟨by rw [k, honly], (hget cell).trans hcell, fun m hm => (hget m).trans (hother m hm)⟩

theorem OnlyCell.todo_routes {cell : Nat} {e : CellRec} {x y : DieSt} (h : OnlyCell cell e x y) : y.todo = x.todo ∧ y.routes = x.routes :=
  ⟨by rw [h.1], by rw [h.1]⟩

/-- That, with a result of region `r` for slot `n`. -/
def Replied (cell r n : Nat) (e : CellRec) (result reason : BitVec 8) (x y : DieSt) : Prop :=
  OnlyCell cell e x y ∧
    ∃ info, (reg y r).results = (reg x r).results ++ [{ slot := n, result := result, reason := reason, info := info }]

theorem giveResult_replied {cell r : Nat} {e : CellRec} {x z : DieSt} (hr : r < 16) (n : Nat) (result reason : BitVec 8) (info : Word)
    (hz : OnlyCell cell e x z) (hh : (reg z r).halted = false) (hres : (reg z r).results = (reg x r).results) :
    Replied cell r n e result reason x (giveResult r n result reason info z) := by
  refine ⟨hz.regions (giveResult_regions r n result reason info z), info, ?_⟩
  rw [reg_giveResult hr n result reason info hh, hres]

/-! ## BLOCK and UNBLOCK -/

theorem dieBlock_halted {x : DieSt} {cell : Nat} (hh : (reg x (regionOf cell)).halted = true) (n : Nat) (from_ to_ : Half) :
    dieBlock n cell from_ to_ x = x := if_pos hh

theorem dieBlock_replied {x : DieSt} {cell : Nat} {c : CellRec} (hc : fabricRead (getCell x cell) = c)
    (hh : (reg x (regionOf cell)).halted = false) (n : Nat) (from_ to_ : Half) :
    (blockable c = true → c.lock = from_ →
      Replied cell (regionOf cell) n { c with lock := to_, checkErr := 0 } rsDONE 0 x (dieBlock n cell from_ to_ x)) ∧
    (blockable c = true → c.lock ≠ from_ → Replied cell (regionOf cell) n c rsREFUSED wrSTATE x (dieBlock n cell from_ to_ x)) ∧
    (blockable c = false → Replied cell (regionOf cell) n (getCell x cell) rsREFUSED wrTARGET x (dieBlock n cell from_ to_ x)) := by
  have hr := regionOf_lt cell
  unfold dieBlock dieCellCmd
  simp only [hc, hh, Bool.false_eq_true, if_false]
  refine ⟨fun hb hl => ?_, fun hb hl => ?_, fun hb => ?_⟩
  · simp only [hb, hl, Bool.not_true, Bool.false_eq_true, if_false, if_true]
    exact giveResult_replied hr n _ _ _ (onlyCell_setCell cell _ x) hh rfl
  · simp only [hb, hl, Bool.not_true, Bool.false_eq_true, if_false]
    exact giveResult_replied hr n _ _ _ (onlyCell_setCell cell c x) hh rfl
  · simp only [hb, Bool.not_false, if_true]
    exact giveResult_replied hr n _ _ _ (onlyCell_self cell x) hh rfl

/-! ## POINT_CALL (02 R79) -/

/-- A command other than NONE that is stored is the command written. -/
theorem cmd_of_appWrite_stored {v : Half} (hv : v ≠ cmdNONE) {pr : CellProf} {c : CellRec} {q : Word × CellRec}
    (hq : appWrite .cmd (v.setWidth 32) pr false false c = q) (h : q.1 = stSTORED) : q.2.cmd = v := by
  have hx : (v.setWidth 32).extractLsb' 0 16 = v := by ext i hi; simp [hi, show i < 32 by omega]
  unfold appWrite at hq
  simp only [hx, hv, if_false] at hq
  split at hq
  · subst hq; cases h
  · subst hq; cases h
  split at hq
  · subst hq; cases h
  split at hq
  · subst hq; cases h
  split at hq
  · subst hq
    by_cases hw : (writeCmdCode pr v (readAll (condFields c) c)).cmd = v
    · exact hw
    · rw [if_neg hw] at h
      cases h
  · subst hq; cases h

theorem diePointCall_halted {x : DieSt} {cell : Nat} (hh : (reg x (regionOf cell)).halted = true) (cx : Ctx) (n : Nat) (pos : BitVec 2) :
    diePointCall cx n cell pos x = x := if_pos hh

theorem diePointCall_replied {x : DieSt} {cx : Ctx} {cell : Nat} {pos : BitVec 2} {c : CellRec} {q : Word × CellRec}
    (hc : fabricRead (getCell x cell) = c)
    (hq : appWrite .cmd ((if pos = 1 then cmdNORMAL else cmdREVERSE).setWidth 32) (cellProf cx x c) false false c = q)
    (hh : (reg x (regionOf cell)).halted = false) (n : Nat) :
    (isPointLike c = true → q.1 = stSTORED → Replied cell (regionOf cell) n q.2 rsDONE 0 x (diePointCall cx n cell pos x)) ∧
    (isPointLike c = true → q.1 ≠ stSTORED → Replied cell (regionOf cell) n q.2 rsREFUSED wrSTATE x (diePointCall cx n cell pos x)) ∧
    (isPointLike c = false →
      Replied cell (regionOf cell) n (getCell x cell) rsREFUSED wrTARGET x (diePointCall cx n cell pos x)) := by
  have hr := regionOf_lt cell
  unfold diePointCall
  simp only [hc, hq, hh, Bool.false_eq_true, if_false]
  refine ⟨fun hb hl => ?_, fun hb hl => ?_, fun hb => ?_⟩
  · simp only [hb, hl, Bool.not_true, Bool.false_eq_true, if_false, if_true]
    exact giveResult_replied hr n _ _ _ (onlyCell_setCell cell _ x) hh rfl
  · simp only [hb, hl, Bool.not_true, Bool.false_eq_true, if_false]
    exact giveResult_replied hr n _ _ _ (onlyCell_setCell cell _ x) hh rfl
  · simp only [hb, Bool.not_false, if_true]
    exact giveResult_replied hr n _ _ _ (onlyCell_self cell x) hh rfl

/-! ## Two-step commands (17 R475) -/

section TwoStep

variable {cx : Ctx} {n r : Nat} {cmd : BitVec 8} {target ticket : Word} {test : DieSt → Option (BitVec 8 × BitVec 8)}
  {act : DieSt → DieSt} {x : DieSt}

theorem twoStep_halted {confirm : Bool} (hh : (reg x r).halted = true) : twoStep cx n r cmd target ticket confirm test act x = x :=
  if_pos hh

/-- The pending entry that a first step leaves. -/
def enterPending (r : Nat) (e : PendEntry) (x : DieSt) : DieSt :=
  modReg x r (fun g => { g with sup := { g.sup with pendings := g.sup.pendings ++ [e] } })

/-- The first step of a command that its own tests let pass. -/
theorem twoStep_first (hh : (reg x r).halted = false) (ht : test x = none) :
    twoStep cx n r cmd target ticket false test act x =
      if (pendingFor x r cmd target).isSome then giveResult r n rsREFUSED wrPENDING 0 x
      else if 16 ≤ (allPendings x).length then giveResult r n rsREFUSED wrFULL 0 x
      else giveResult r n rsPENDING 0 0
        (enterPending r { cmd := cmd, target := target, taken := x.cycleNo, slot := n, ticket := ticket } x) := by
  unfold twoStep
  simp only [hh, ht, Bool.false_eq_true, if_false, Bool.not_false, if_true]
  rfl

/-- A first step that is kept: one entry more, and the result PENDING. -/
theorem enterPending_replied {cell : Nat} (hr : r < 16) (hh : (reg x r).halted = false) (e : PendEntry) :
    Replied cell r n (getCell x cell) rsPENDING 0 x (giveResult r n rsPENDING 0 0 (enterPending r e x)) ∧
      (reg (giveResult r n rsPENDING 0 0 (enterPending r e x)) r).sup.pendings = (reg x r).sup.pendings ++ [e] := by
  have hreg : reg (enterPending r e x) r = _ := reg_modReg_self x hr _
  have hh' : (reg (enterPending r e x) r).halted = false := by rw [hreg]; exact hh
  refine ⟨giveResult_replied hr n _ _ 0 ⟨rfl, rfl, fun _ _ => rfl⟩ hh' (by rw [hreg]), ?_⟩
  rw [reg_giveResult hr n _ _ 0 hh', hreg]

theorem twoStep_refused (hh : (reg x r).halted = false) {q : BitVec 8 × BitVec 8} (ht : test x = some q) :
    twoStep cx n r cmd target ticket false test act x = giveResult r n q.1 q.2 0 x := by
  simp [twoStep, hh, ht]

theorem twoStep_unasked (hh : (reg x r).halted = false) (hp : pendingFor x r cmd target = none) :
    twoStep cx n r cmd target ticket true test act x = giveResult r n rsREFUSED wrNOPENDING 0 x := by
  simp [twoStep, hh, hp]

/-- A confirm takes its pending entry away, whatever becomes of it. -/
theorem twoStep_confirm (hh : (reg x r).halted = false) {p : PendEntry} (hp : pendingFor x r cmd target = some p) :
    let ms := (x.cycleNo - p.taken).toNat * cx.periodMs
    let y := dropPending r cmd target x
    twoStep cx n r cmd target ticket true test act x =
      if ms < 5000 then giveResult r n rsREFUSED wrEARLY 0 y
      else if 60000 < ms then giveResult r n rsREFUSED wrNOPENDING 0 y
      else (test y).elim (act y) (fun q => giveResult r n q.1 q.2 0 y) := by
  unfold twoStep
  simp only [hh, hp, Bool.false_eq_true, if_false, Bool.not_true]
  cases test (dropPending r cmd target x) <;> rfl

theorem pendingFor_congr {y : DieSt} (h : (reg y r).sup.pendings = (reg x r).sup.pendings) :
    pendingFor y r cmd target = pendingFor x r cmd target := by
  unfold pendingFor
  rw [h]

theorem pendingFor_dropPending (hr : r < 16) : pendingFor (dropPending r cmd target x) r cmd target = none := by
  unfold pendingFor dropPending
  rw [reg_modReg_self x hr]
  refine List.find?_eq_none.mpr fun p hp hsame => ?_
  have hother := (List.mem_filter.mp hp).2
  rw [hsame] at hother
  cases hother

end TwoStep

/-! ## SECTION_RESTORE -/

/-- The tests of SECTION_RESTORE. -/
def restoreTest (cell : Nat) (x : DieSt) : Option (BitVec 8 × BitVec 8) :=
  let c := fabricRead (getCell x cell)
  if !restorable c then some (rsREFUSED, wrTARGET) else if c.occ ≠ occDISTURBED then some (rsREFUSED, wrSTATE) else none

/-- What its confirm does. -/
def restoreAct (cx : Ctx) (n cell : Nat) (x : DieSt) : DieSt :=
  giveResult (regionOf cell) n rsDONE 0 0 (setCell x cell (restoreCell cx x (fabricRead (getCell x cell))))

theorem dieSectionRestore_eq (cx : Ctx) (n : Nat) (ws : List Word) {a : Word} (ha : ws.getD 4 0 = a) {b : Bool}
    (hb : bitOf (ws.getD 5 0) 0 = b) (x : DieSt) :
    dieSectionRestore cx n ws x =
      twoStep cx n (regionOf (a.extractLsb' 0 12).toNat) 8 a (ws.getD 1 0) b (restoreTest (a.extractLsb' 0 12).toNat)
        (restoreAct cx n (a.extractLsb' 0 12).toNat) x := by
  subst ha hb
  rfl

theorem restoreTest_eq {cell : Nat} {x : DieSt} {c : CellRec} (hc : fabricRead (getCell x cell) = c) :
    (restorable c = true → c.occ = occDISTURBED → restoreTest cell x = none) ∧
    (restorable c = true → c.occ ≠ occDISTURBED → restoreTest cell x = some (rsREFUSED, wrSTATE)) ∧
    (restorable c = false → restoreTest cell x = some (rsREFUSED, wrTARGET)) := by
  subst hc
  unfold restoreTest
  exact ⟨fun h1 h2 => by simp [h1, h2], fun h1 h2 => by simp [h1, h2], fun h1 => by simp [h1]⟩

/-- The first step of SECTION_RESTORE. -/
theorem restoreFirst_replied {cx : Ctx} {cell : Nat} {a : Word} {x : DieSt} {c : CellRec} (hc : fabricRead (getCell x cell) = c)
    (hh : (reg x (regionOf cell)).halted = false) (n : Nat) (ticket : Word) :
    let y := twoStep cx n (regionOf cell) 8 a ticket false (restoreTest cell) (restoreAct cx n cell) x
    let replied := fun (result reason : BitVec 8) => Replied cell (regionOf cell) n (getCell x cell) result reason x y
    (restorable c = true → c.occ = occDISTURBED → pendingFor x (regionOf cell) 8 a = none → (allPendings x).length < 16 →
      replied rsPENDING 0 ∧ (reg y (regionOf cell)).sup.pendings = (reg x (regionOf cell)).sup.pendings ++
        [{ cmd := 8, target := a, taken := x.cycleNo, slot := n, ticket := ticket }]) ∧
    (restorable c = true → c.occ = occDISTURBED → (pendingFor x (regionOf cell) 8 a).isSome = true → replied rsREFUSED wrPENDING) ∧
    (restorable c = true → c.occ = occDISTURBED → pendingFor x (regionOf cell) 8 a = none → 16 ≤ (allPendings x).length →
      replied rsREFUSED wrFULL) ∧
    (restorable c = true → c.occ ≠ occDISTURBED → replied rsREFUSED wrSTATE) ∧
    (restorable c = false → replied rsREFUSED wrTARGET) := by
  intro y replied
  have hr := regionOf_lt cell
  obtain ⟨hpass, hstate, htarget⟩ := restoreTest_eq hc
  have hgives : ∀ result reason, y = giveResult (regionOf cell) n result reason 0 x → replied result reason := fun result reason hy => by
    show Replied _ _ _ _ _ _ _ y
    rw [hy]
    exact giveResult_replied hr n result reason 0 (onlyCell_self cell x) hh rfl
  refine ⟨fun hb ho hp hl => ?_, fun hb ho hp => ?_, fun hb ho hp hl => ?_, fun hb ho => ?_, fun hb => ?_⟩
  · have hy : y = _ := (twoStep_first hh (hpass hb ho)).trans ((if_neg (by rw [hp]; decide)).trans (if_neg (by omega)))
    show Replied _ _ _ _ _ _ _ y ∧ (reg y _).sup.pendings = _
    rw [hy]
    exact enterPending_replied hr hh _
  · exact hgives _ _ ((twoStep_first hh (hpass hb ho)).trans (if_pos hp))
  · exact hgives _ _ ((twoStep_first hh (hpass hb ho)).trans ((if_neg (by rw [hp]; decide)).trans (if_pos hl)))
  · exact hgives _ _ (twoStep_refused hh (hstate hb ho))
  · exact hgives _ _ (twoStep_refused hh (htarget hb))

/-- A cell senses the image and the FIELD records of its die (02 R521). -/
theorem senseOf_congr (cx : Ctx) {x y : DieSt} (c : CellRec) (hi : y.image = x.image) (hf : y.fields = x.fields)
    (hn : y.cycleNo = x.cycleNo) : senseOf cx y c = senseOf cx x c := by
  have hfresh : fieldFresh cx y = fieldFresh cx x := by
    funext m
    unfold fieldFresh
    rw [hf, hn]
  have hon : inputOn cx y c = inputOn cx x c := by
    funext n
    unfold inputOn
    rw [hfresh, hf, hi]
  have hfault : inputFaulty cx y c = inputFaulty cx x c := by
    funext n
    unfold inputFaulty
    rw [hfresh, hf, hi]
  have hdisc : inputDisc cx y c = inputDisc cx x c := by
    funext n
    unfold inputDisc
    rw [hfresh, hf, hi]
  have hstatus : outStatusOf cx y c = outStatusOf cx x c := by
    funext n
    unfold outStatusOf
    rw [hfresh, hf, hi]
  have hshown : outShown cx y c = outShown cx x c := by
    unfold outShown
    rw [hfresh]
  have hcut : outCut y c = outCut x c := by
    funext n
    unfold outCut
    rw [hf, hi]
  unfold senseOf
  rw [hon, hfault, hdisc, hstatus, hshown, hcut]

theorem restoreCell_congr (cx : Ctx) {x y : DieSt} (c : CellRec) (hi : y.image = x.image) (hf : y.fields = x.fields)
    (hn : y.cycleNo = x.cycleNo) : restoreCell cx y c = restoreCell cx x c := by
  unfold restoreCell
  rw [senseOf_congr cx c hi hf hn]

/-- A confirm of SECTION_RESTORE that has a pending entry. -/
theorem restoreConfirm_ends {cx : Ctx} {n cell : Nat} {a ticket : Word} {x : DieSt} {c : CellRec} {p : PendEntry}
    (hc : fabricRead (getCell x cell) = c) (hh : (reg x (regionOf cell)).halted = false)
    (hp : pendingFor x (regionOf cell) 8 a = some p) :
    let ms := (x.cycleNo - p.taken).toNat * cx.periodMs
    let y := twoStep cx n (regionOf cell) 8 a ticket true (restoreTest cell) (restoreAct cx n cell) x
    let ends := fun (e : CellRec) (result reason : BitVec 8) =>
      Replied cell (regionOf cell) n e result reason x y ∧ pendingFor y (regionOf cell) 8 a = none
    (ms < 5000 → ends (getCell x cell) rsREFUSED wrEARLY) ∧
    (60000 < ms → ends (getCell x cell) rsREFUSED wrNOPENDING) ∧
    (5000 ≤ ms → ms ≤ 60000 → restorable c = true → c.occ = occDISTURBED → ends (restoreCell cx x c) rsDONE 0) := by
  intro ms y ends
  have hr := regionOf_lt cell
  have hy : y = _ := twoStep_confirm hh hp
  -- the entry has gone, and whatever result follows leaves it so
  have hdrop : reg (dropPending (regionOf cell) 8 a x) (regionOf cell) = _ := reg_modReg_self x hr _
  have hgone : ∀ (result reason : BitVec 8) (z : DieSt), z.regions = (dropPending (regionOf cell) 8 a x).regions →
      pendingFor (giveResult (regionOf cell) n result reason 0 z) (regionOf cell) 8 a = none := fun result reason z hz => by
    have hz' := reg_of_regions hz (regionOf cell)
    rw [← pendingFor_dropPending (x := x) hr]
    refine pendingFor_congr ?_
    rw [reg_giveResult hr n result reason 0 (by rw [hz', hdrop]; exact hh), hz']
  have hends : ∀ (e : CellRec) (result reason : BitVec 8) (z : DieSt), z.regions = (dropPending (regionOf cell) 8 a x).regions →
      OnlyCell cell e x z → y = giveResult (regionOf cell) n result reason 0 z → ends e result reason := fun e result reason z hz ho hyz => by
    have hz' := reg_of_regions hz (regionOf cell)
    show Replied _ _ _ _ _ _ _ y ∧ pendingFor y _ _ _ = none
    rw [hyz]
    exact ⟨giveResult_replied hr n result reason 0 ho (by rw [hz', hdrop]; exact hh) (by rw [hz', hdrop]), hgone result reason z hz⟩
  have hkeep : OnlyCell cell (getCell x cell) x (dropPending (regionOf cell) 8 a x) := ⟨rfl, rfl, fun _ _ => rfl⟩
  refine ⟨fun h => ?_, fun h => ?_, fun h1 h2 hres hocc => ?_⟩
  · exact hends _ _ _ _ rfl hkeep (hy.trans (if_pos h))
  · exact hends _ _ _ _ rfl hkeep (hy.trans ((if_neg (by omega)).trans (if_pos h)))
  · have htest : restoreTest cell (dropPending (regionOf cell) 8 a x) = none := (restoreTest_eq hc).1 hres hocc
    refine hends _ _ _ (setCell (dropPending (regionOf cell) 8 a x) cell (restoreCell cx x c)) rfl ?_ ?_
    · obtain ⟨-, hcell, hother⟩ := onlyCell_setCell cell (restoreCell cx x c) (dropPending (regionOf cell) 8 a x)
      exact ⟨rfl, hcell, hother⟩
    · rw [hy, if_neg (by omega), if_neg (by omega), htest,
        ← restoreCell_congr cx (x := x) (y := dropPending (regionOf cell) 8 a x) c rfl rfl rfl, ← hc]
      rfl

/-! ## The rows -/

/-- The commands that take a cell request from the head of the work; the confirm of SECTION_RESTORE is a command of its own. -/
def cellCommands (d : Die) (confirm : Bool) : List (Instr × WinCmd) :=
  [(.block d, .block), (.unblock d, .unblock), (.pointCall d, .pointCall),
    (if confirm then .sectionRestoreConfirm d else .sectionRestore d, .sectionRestore)]

theorem exec_cellCommand {s : State} {d : Die} {n : Nat} {c : WinCmd} {rest : List Todo} {cmd : Instr} (h : HeadRequest s d n c rest)
    (hm : (cmd, c) ∈ cellCommands d (bitOf ((reqWords s.win n).getD 5 0) 0)) :
    ∃ t, exec cmd s = .next t ∧ HeadTaken d (dieRequest s n (withTodo rest (dieOf s d))) s t := by
  have hc := h.2.2.1
  simp only [cellCommands, List.mem_cons, Prod.mk.injEq, List.not_mem_nil, or_false] at hm
  rcases hm with ⟨rfl, rfl⟩ | ⟨rfl, rfl⟩ | ⟨rfl, rfl⟩ | ⟨rfl, rfl⟩
  · exact ⟨_, rfl, todoRow_request h (by simp [isRequest, hc])⟩
  · exact ⟨_, rfl, todoRow_request h (by simp [isRequest, hc])⟩
  · exact ⟨_, rfl, todoRow_request h (by simp [isRequest, hc])⟩
  · cases hb : bitOf ((reqWords s.win n).getD 5 0) 0
    · exact ⟨_, rfl, todoRow_request h (by simp only [isRequest, hc, hb]; rfl)⟩
    · exact ⟨_, rfl, todoRow_request h (by simp only [isRequest, hc, hb]; rfl)⟩

/-- What a cell command leaves unchanged outside its cell and the regions. -/
def CellCommandFrame (d : Die) (cell : Nat) (rest : List Todo) (s t : State) : Prop :=
  (dieOf t d).todo = rest ∧ OtherCells cell d s t ∧ (dieOf t d).routes = (dieOf s d).routes ∧ (∀ o, o ≠ d → dieOf t o = dieOf s o) ∧
    t.mode = s.mode ∧ t.outs = s.outs

theorem HeadTaken.cellFrame {d : Die} {y : DieSt} {s t : State} {rest : List Todo} {cell : Nat} {e : CellRec} (h : HeadTaken d y s t)
    (hy : OnlyCell cell e (withTodo rest (dieOf s d)) y) : CellCommandFrame d cell rest s t ∧ getCell (dieOf t d) cell = e := by
  obtain ⟨hcells, hroutes, htodo, -⟩ := h.keeps
  obtain ⟨⟨hst, hother⟩, -⟩ := h
  obtain ⟨hytodo, hyroutes⟩ := hy.todo_routes
  obtain ⟨-, hcell, hothers⟩ := hy
  have hget : ∀ m, getCell (dieOf t d) m = getCell y m := fun m => congrArg (getA cellUnused · m) hcells
  refine ⟨⟨?_, fun m hm => (hget m).trans (hothers m hm), ?_, hother, by rw [hst], by rw [hst]⟩, (hget cell).trans hcell⟩
  · exact htodo.trans hytodo
  · exact hroutes.trans hyroutes

theorem HeadTaken.reports {d : Die} {y : DieSt} {s t : State} {rest : List Todo} {cell r n : Nat} {e : CellRec} {result reason : BitVec 8}
    (h : HeadTaken d y s t) (hy : Replied cell r n e result reason (withTodo rest (dieOf s d)) y) : Reports d r n result reason s t := by
  obtain ⟨-, -, -, hreg⟩ := h.keeps
  obtain ⟨-, info, hres⟩ := hy
  exact ⟨info, ((hreg r).1.trans hres)⟩

/-- A cell command that gives a result. -/
theorem answers_of_replied {s : State} {d : Die} {n : Nat} {c : WinCmd} {rest : List Todo} {cmd : Instr} {cell r : Nat} {e : CellRec}
    {result reason : BitVec 8} (h : HeadRequest s d n c rest) (hm : (cmd, c) ∈ cellCommands d (bitOf ((reqWords s.win n).getD 5 0) 0))
    (hy : Replied cell r n e result reason (withTodo rest (dieOf s d)) (dieRequest s n (withTodo rest (dieOf s d)))) :
    Answers cmd s (fun t => CellCommandFrame d cell rest s t ∧ getCell (dieOf t d) cell = e ∧ Reports d r n result reason s t) := by
  obtain ⟨t, hx, ht⟩ := exec_cellCommand h hm
  obtain ⟨hframe, hcell⟩ := ht.cellFrame hy.1
  exact ⟨t, hx, hframe, hcell, ht.reports hy⟩

theorem dieRequest_block {s : State} {n : Nat} (hc : reqCmd (reqWords s.win n) = some .block) (x : DieSt) :
    dieRequest s n x = dieBlock n (((reqWords s.win n).getD 4 0).extractLsb' 0 12).toNat lockFREE lockBLOCKED x := by
  unfold dieRequest
  simp only [hc]

theorem dieRequest_unblock {s : State} {n : Nat} (hc : reqCmd (reqWords s.win n) = some .unblock) (x : DieSt) :
    dieRequest s n x = dieBlock n (((reqWords s.win n).getD 4 0).extractLsb' 0 12).toNat lockBLOCKED lockFREE x := by
  unfold dieRequest
  simp only [hc]

theorem dieRequest_pointCall {s : State} {n : Nat} (hc : reqCmd (reqWords s.win n) = some .pointCall) (x : DieSt) :
    dieRequest s n x = diePointCall (ctxOf s) n (((reqWords s.win n).getD 4 0).extractLsb' 0 12).toNat
      (((reqWords s.win n).getD 4 0).extractLsb' 12 2) x := by
  unfold dieRequest
  simp only [hc]

theorem dieRequest_sectionRestore {s : State} {n : Nat} (hc : reqCmd (reqWords s.win n) = some .sectionRestore) {b : Bool}
    (hb : bitOf ((reqWords s.win n).getD 5 0) 0 = b) (x : DieSt) :
    dieRequest s n x =
      twoStep (ctxOf s) n (regionOf (((reqWords s.win n).getD 4 0).extractLsb' 0 12).toNat) 8 ((reqWords s.win n).getD 4 0)
        ((reqWords s.win n).getD 1 0) b (restoreTest (((reqWords s.win n).getD 4 0).extractLsb' 0 12).toNat)
        (restoreAct (ctxOf s) n (((reqWords s.win n).getD 4 0).extractLsb' 0 12).toNat) x := by
  rw [← dieSectionRestore_eq (ctxOf s) n _ rfl hb]
  unfold dieRequest
  simp only [hc]

/-- A halted region takes no cell request. -/
theorem dieRequest_cell_halted {s : State} {n : Nat} {c : WinCmd} {d : Die} {b : Bool} {cmd : Instr} {x : DieSt}
    (hc : reqCmd (reqWords s.win n) = some c) (hm : (cmd, c) ∈ cellCommands d b)
    (hh : (reg x (regionOf (((reqWords s.win n).getD 4 0).extractLsb' 0 12).toNat)).halted = true) : dieRequest s n x = x := by
  simp only [cellCommands, List.mem_cons, Prod.mk.injEq, List.not_mem_nil, or_false] at hm
  rcases hm with ⟨-, rfl⟩ | ⟨-, rfl⟩ | ⟨-, rfl⟩ | ⟨-, rfl⟩
  · exact (dieRequest_block hc x).trans (dieBlock_halted hh n _ _)
  · exact (dieRequest_unblock hc x).trans (dieBlock_halted hh n _ _)
  · exact (dieRequest_pointCall hc x).trans (diePointCall_halted hh _ n _)
  · exact (dieRequest_sectionRestore hc rfl x).trans (twoStep_halted hh)

/-- Settles O45: each command is its operation on the die (`dieBlock_replied`, `diePointCall_replied`, `twoStep_first`,
`restoreConfirm_ends`), which the row carries to the module (`HeadTaken`). -/
theorem cellCommandsChangeTheirCell : Obligations.CellCommandsChangeTheirCell := by
  intro s d n rest x cx a cell r old c confirm frame gives
  have hr : r < 16 := regionOf_lt cell
  refine ⟨fun hh cmd q h hm => ?_, fun hh => ⟨fun h => ?_, fun h => ?_, fun h => ?_, fun h hcf => ?_, fun h hcf => ?_⟩⟩
  · -- a halted region
    obtain ⟨t, hx, ht⟩ := exec_cellCommand h hm
    rw [dieRequest_cell_halted (x := withTodo rest x) h.2.2.1 hm hh] at ht
    obtain ⟨hframe, hcell⟩ := ht.cellFrame (onlyCell_self cell _)
    exact ⟨t, hx, hframe, hcell, (ht.keeps.2.2.2 r).1⟩
  · -- BLOCK
    obtain ⟨hdone, hstate, htarget⟩ := dieBlock_replied (x := withTodo rest x) (cell := cell) (c := c) rfl hh n lockFREE lockBLOCKED
    rw [← dieRequest_block h.2.2.1] at hdone hstate htarget
    have hm : (Instr.block d, WinCmd.block) ∈ cellCommands d confirm := by simp [cellCommands]
    exact ⟨fun hb hl => answers_of_replied h hm (hdone hb hl), fun hb hl => answers_of_replied h hm (hstate hb hl),
      fun hb => answers_of_replied h hm (htarget hb)⟩
  · -- UNBLOCK
    obtain ⟨hdone, hstate, htarget⟩ := dieBlock_replied (x := withTodo rest x) (cell := cell) (c := c) rfl hh n lockBLOCKED lockFREE
    rw [← dieRequest_unblock h.2.2.1] at hdone hstate htarget
    have hm : (Instr.unblock d, WinCmd.unblock) ∈ cellCommands d confirm := by simp [cellCommands]
    exact ⟨fun hb hl => answers_of_replied h hm (hdone hb hl), fun hb hl => answers_of_replied h hm (hstate hb hl),
      fun hb => answers_of_replied h hm (htarget hb)⟩
  · -- POINT_CALL
    intro v q
    obtain ⟨hdone, hstate, htarget⟩ :=
      diePointCall_replied (x := withTodo rest x) (cx := cx) (cell := cell) (pos := a.extractLsb' 12 2) (c := c) (q := q) rfl rfl hh n
    rw [← dieRequest_pointCall h.2.2.1] at hdone hstate htarget
    have hm : (Instr.pointCall d, WinCmd.pointCall) ∈ cellCommands d confirm := by simp [cellCommands]
    have hv : v ≠ cmdNONE := by
      show (if a.extractLsb' 12 2 = 1 then cmdNORMAL else cmdREVERSE) ≠ cmdNONE
      split <;> decide
    exact ⟨fun hb hl => ⟨cmd_of_appWrite_stored hv rfl hl, answers_of_replied h hm (hdone hb hl)⟩,
      fun hb hl => answers_of_replied h hm (hstate hb hl), fun hb => answers_of_replied h hm (htarget hb)⟩
  · -- SECTION_RESTORE, the first step
    have hm : (Instr.sectionRestore d, WinCmd.sectionRestore) ∈ cellCommands d confirm := by simp [cellCommands, hcf]
    obtain ⟨hpend, hagain, hfull, hstate, htarget⟩ :=
      restoreFirst_replied (cx := cx) (a := a) (x := withTodo rest x) (cell := cell) (c := c) rfl hh n ((reqWords s.win n).getD 1 0)
    rw [← dieRequest_sectionRestore h.2.2.1 hcf] at hpend hagain hfull hstate htarget
    refine ⟨fun hb ho hp hl => ?_, fun hb ho hp => answers_of_replied h hm (hagain hb ho hp),
      fun hb ho hp hl => answers_of_replied h hm (hfull hb ho hp hl), fun hb ho => answers_of_replied h hm (hstate hb ho),
      fun hb => answers_of_replied h hm (htarget hb)⟩
    obtain ⟨t, hx, ht⟩ := exec_cellCommand h hm
    obtain ⟨hrep, hentry⟩ := hpend hb ho hp hl
    obtain ⟨hframe, hcell⟩ := ht.cellFrame hrep.1
    exact ⟨t, hx, hframe, hcell, ht.reports hrep, (ht.keeps.2.2.2 r).2.trans hentry⟩
  · -- its confirm
    have hh' : (reg (withTodo rest x) r).halted = false := hh
    have hy := dieRequest_sectionRestore h.2.2.1 hcf (withTodo rest x)
    have hm : (Instr.sectionRestoreConfirm d, WinCmd.sectionRestore) ∈ cellCommands d confirm := by simp [cellCommands, hcf]
    refine ⟨fun hp => ?_, fun p hp => ?_⟩
    · rw [twoStep_unasked hh' hp] at hy
      exact answers_of_replied h hm (hy ▸ giveResult_replied hr n _ _ 0 (onlyCell_self cell _) hh' rfl)
    · intro ms ends
      obtain ⟨hearly, hlate, hdone⟩ := restoreConfirm_ends (cx := cx) (n := n) (ticket := (reqWords s.win n).getD 1 0)
        (x := withTodo rest x) (cell := cell) (c := c) rfl hh hp
      rw [← hy] at hearly hlate hdone
      rw [restoreCell_congr cx (x := x) (y := withTodo rest x) c rfl rfl rfl] at hdone
      have hends : ∀ (e : CellRec) (result reason : BitVec 8),
          Replied cell r n e result reason (withTodo rest x) (dieRequest s n (withTodo rest x)) ∧
            pendingFor (dieRequest s n (withTodo rest x)) r 8 a = none → ends e result reason := fun e result reason ⟨hrep, hgone⟩ => by
        obtain ⟨t, hx, ht⟩ := exec_cellCommand h hm
        obtain ⟨hframe, hcell⟩ := ht.cellFrame hrep.1
        exact ⟨t, hx, hframe, hcell, ht.reports hrep, (pendingFor_congr (ht.keeps.2.2.2 r).2).trans hgone⟩
      exact ⟨fun hms => hends _ _ _ (hearly hms), fun hms => hends _ _ _ (hlate hms),
        fun h1 h2 h3 h4 => hends _ _ _ (hdone h1 h2 h3 h4)⟩

end Sys2Proof.Machine


/-!
PROOFS. What the steps of RULES_IN leave of a cell (02 R73, R76, R83, R94, R101, R521).
-/

namespace Sys2Proof.Machine

/-! ## What a cell keeps -/

/-- The second record has the class and every fault of the first, and a point without a call still has none. -/
def KeepsFaults (c e : CellRec) : Prop :=
  e.cls = c.cls ∧ (∀ f, hasFault c f = true → hasFault e f = true) ∧ (isPointLike c = true → c.cmd = cmdNONE → e.cmd = cmdNONE)

/-- Its timers stand as in the first, where T0 is not a LEVEL_CROSSING's (02 R97). -/
def KeepsTimers (c e : CellRec) : Prop := ∀ k, k ≠ 0 ∨ isCls .levelCrossing c = false → timerOf e k = timerOf c k

/-- Both. -/
def CellKeeps (c e : CellRec) : Prop := KeepsFaults c e ∧ KeepsTimers c e

theorem isCls_of_cls {c e : CellRec} (h : e.cls = c.cls) (k : Cls) : isCls k e = isCls k c := by
  unfold isCls
  rw [h]

theorem isPointLike_of_cls {c e : CellRec} (h : e.cls = c.cls) : isPointLike e = isPointLike c := by
  unfold isPointLike
  rw [isCls_of_cls h, isCls_of_cls h]

theorem KeepsFaults.refl (c : CellRec) : KeepsFaults c c := ⟨rfl, fun _ => id, fun _ => id⟩

theorem KeepsFaults.trans {a b c : CellRec} (h : KeepsFaults a b) (k : KeepsFaults b c) : KeepsFaults a c := by
  obtain ⟨hcls, hfault, hcmd⟩ := h
  obtain ⟨kcls, kfault, kcmd⟩ := k
  exact ⟨kcls.trans hcls, fun f hf => kfault f (hfault f hf), fun hp hn => kcmd ((isPointLike_of_cls hcls).trans hp) (hcmd hp hn)⟩

theorem CellKeeps.refl (c : CellRec) : CellKeeps c c := ⟨KeepsFaults.refl c, fun _ _ => rfl⟩

theorem CellKeeps.trans {a b c : CellRec} (h : CellKeeps a b) (k : CellKeeps b c) : CellKeeps a c :=
  ⟨h.1.trans k.1, fun n hn => (k.2 n (hn.imp_right ((isCls_of_cls h.1.1 .levelCrossing).trans ·))).trans (h.2 n hn)⟩

/-- A change of fields that no timer, fault, command or class is among. -/
theorem cellKeeps_of_fields {c e : CellRec} (hcls : e.cls = c.cls) (hfault : e.fault = c.fault) (hcmd : e.cmd = c.cmd)
    (ht : ∀ k, timerOf e k = timerOf c k) : CellKeeps c e :=
  ⟨⟨hcls, fun f hf => by unfold hasFault; rwa [hfault], fun _ hn => hcmd.trans hn⟩, fun k _ => ht k⟩

theorem bitOf_setBitOf_true {w : Nat} (x : BitVec w) {n : Nat} (hn : n < w) : bitOf (setBitOf x n true) n = true := by
  simp [bitOf, setBitOf, hn]

theorem hasFault_addFault_self (c : CellRec) {n : Nat} (hn : n < 16) : hasFault (addFault n c) n = true :=
  bitOf_setBitOf_true c.fault hn

theorem addFault_keeps (n : Nat) (c : CellRec) : CellKeeps c (addFault n c) := by
  refine ⟨⟨rfl, fun f hf => ?_, fun _ => id⟩, fun k _ => by unfold timerOf; rfl⟩
  by_cases h : f = n
  · subst h
    refine hasFault_addFault_self c (Nat.lt_of_not_le fun hge => ?_)
    simp [hasFault, bitOf, BitVec.getLsbD_of_ge _ _ hge] at hf
  · exact (bitOf_setBitOf_other c.fault true h).trans hf

theorem addFaultIf_keeps (b : Bool) (n : Nat) (c : CellRec) : CellKeeps c (addFaultIf b n c) := by
  unfold addFaultIf
  split
  · exact addFault_keeps n c
  · exact CellKeeps.refl c

/-! ## Reads of coded fields (02 R76, R77) -/

theorem restrictive_cmd {c : CellRec} (h : isPointLike c = true) : restrictive .cmd c = cmdNONE := by
  simp only [isPointLike, isCls, Bool.or_eq_true, decide_eq_true_eq] at h
  rcases h with h | h <;> simp [restrictive, validOf, codeCls, isCls, h, validFor]

theorem putRestrictive_keeps (f : Coded) (c : CellRec) : CellKeeps c (putCoded f (restrictive f c) c) := by
  cases f with
  | cmd => exact ⟨⟨rfl, fun _ => id, fun hp _ => restrictive_cmd hp⟩, fun k _ => by unfold timerOf; rfl⟩
  | occ | pos | lock | aspect => exact cellKeeps_of_fields rfl rfl rfl fun k => by unfold timerOf; rfl

/-- A write of a coded field other than CMD_CODE. -/
theorem putCoded_keeps {f : Coded} (hf : f ≠ .cmd) (v : Half) (c : CellRec) : CellKeeps c (putCoded f v c) := by
  cases f with
  | cmd => exact absurd rfl hf
  | occ | pos | lock | aspect => exact cellKeeps_of_fields rfl rfl rfl fun k => by unfold timerOf; rfl

theorem clearOwner_keeps (c : CellRec) : CellKeeps c (clearOwner c) := cellKeeps_of_fields rfl rfl rfl fun k => by unfold timerOf; rfl

theorem restrictCoded_keeps (c : CellRec) : CellKeeps c (restrictCoded c) :=
  ⟨⟨rfl, fun _ => id, fun hp _ => restrictive_cmd hp⟩, fun k _ => by unfold timerOf; rfl⟩

theorem readCoded_keeps (f : Coded) (c : CellRec) : CellKeeps c (readCoded f c).2 := by
  unfold readCoded
  dsimp only
  split
  · exact CellKeeps.refl c
  split
  · split
    · exact CellKeeps.refl c
    split
    · exact CellKeeps.refl c
    · exact ((putCoded_keeps (by decide) _ c).trans (clearOwner_keeps _)).trans (addFault_keeps _ _)
  · split
    · exact CellKeeps.refl c
    split
    · exact (restrictCoded_keeps c).trans (addFault_keeps _ _)
    · exact (putRestrictive_keeps f c).trans (addFault_keeps _ _)

theorem readAll_keeps (fs : List Coded) (c : CellRec) : CellKeeps c (readAll fs c) :=
  List.foldlRecOn _ _ (CellKeeps.refl c) fun e he f _ => he.trans (readCoded_keeps f e)

theorem settle_keeps (c : CellRec) : CellKeeps c (settle c) := readAll_keeps _ c

/-! ## Base derivation, mirrors and start release (02 R94, R101, R521) -/

theorem deriveFaults_keeps (s : Sense) (c : CellRec) : CellKeeps c (deriveFaults s c) := by
  unfold deriveFaults
  exact (addFaultIf_keeps _ _ c).trans <| (addFaultIf_keeps _ _ _).trans <| (addFaultIf_keeps _ _ _).trans <|
    (addFaultIf_keeps _ _ _).trans <| (addFaultIf_keeps _ _ _).trans (addFaultIf_keeps _ _ _)

/-- A stop of T0 of a LEVEL_CROSSING. -/
theorem putTimer_zero_keeps {c : CellRec} (h : isCls .levelCrossing c = true) (t : Timer) : CellKeeps c (putTimer 0 t c) := by
  refine ⟨⟨rfl, fun _ => id, fun _ => id⟩, fun k hk => ?_⟩
  have hk0 : k ≠ 0 := hk.resolve_right (by simp [h])
  match k, hk0 with
  | 1, _ | 2, _ | _ + 3, _ => rfl

theorem deriveOccPos_keeps {k : Cls} {c : CellRec} (hk : clsOf c.cls = some k) (s : Sense) : CellKeeps c (deriveOccPos k s c) := by
  have put : ∀ o p, CellKeeps c (putCoded .occ o (putCoded .pos p c)) := fun o p =>
    (putCoded_keeps (by decide) p c).trans (putCoded_keeps (by decide) o _)
  cases k with
  | trackSection | diamond | virtual | point | switchedDiamond | buffer | powerSection | zone | keyLock | lineBlock => exact put _ _
  | boundary | unused => exact CellKeeps.refl c
  | mainSignal | shuntSignal =>
    unfold deriveOccPos
    dsimp only
    split
    · exact put _ _
    split
    · exact put _ _
    · exact (put _ _).trans (addFault_keeps _ _)
  | levelCrossing =>
    unfold deriveOccPos
    dsimp only
    split
    · split
      · exact put _ _
      · exact (put _ _).trans (putTimer_zero_keeps (by simp [isCls, putCoded, hk]) _)
    split
    · exact put _ _
    split
    · exact put _ _
    · exact put _ _

theorem derive_keeps (s : Sense) (c : CellRec) : CellKeeps c (derive s c) := by
  have h := (settle_keeps c).trans (deriveFaults_keeps s (settle c))
  unfold derive
  split
  · exact CellKeeps.refl c
  · exact CellKeeps.refl c
  · exact CellKeeps.refl c
  · rename_i k _ _ _ hk
    exact h.trans (deriveOccPos_keeps (by rw [h.1.1]; exact hk) s)

theorem mirrorCell_keeps (m : Option Mirror) (lost : Bool) (c : CellRec) : CellKeeps c (mirrorCell m lost c) := by
  have h := addFaultIf_keeps lost fREMOTE c
  unfold mirrorCell
  dsimp only
  split
  · exact h.trans ((restrictCoded_keeps _).trans (clearOwner_keeps _))
  · exact h.trans ⟨⟨rfl, fun _ => id, fun _ _ => rfl⟩, fun k _ => by unfold timerOf; rfl⟩

theorem cleanOnce_keeps (b : Bool) (c : CellRec) : CellKeeps c { c with cleanOnce := b } :=
  cellKeeps_of_fields rfl rfl rfl fun k => by unfold timerOf; rfl

theorem startRelease_keeps (c : CellRec) : CellKeeps c (startRelease c) := by
  unfold startRelease
  split
  · refine (readAll_keeps [.lock, .occ, .pos] c).trans ?_
    dsimp only
    split
    · split
      · exact (putCoded_keeps (by decide) _ _).trans (cleanOnce_keeps false _)
      · exact cleanOnce_keeps true _
    · exact cleanOnce_keeps false _
  · exact cleanOnce_keeps false c

/-! ## The timer step (02 R83) -/

theorem timerOf_putTimer_self (k : Nat) (t : Timer) (c : CellRec) : timerOf (putTimer k t c) k = t := by
  match k with
  | 0 | 1 | 2 | _ + 3 => rfl

theorem timerOf_putTimer {j k : Nat} (hj : j < 4) (hk : k < 4) (t : Timer) (c : CellRec) :
    timerOf (putTimer j t c) k = if j = k then t else timerOf c k := by
  match j, k, hj, hk with
  | 0, 0, _, _ | 0, 1, _, _ | 0, 2, _, _ | 0, 3, _, _ | 1, 0, _, _ | 1, 1, _, _ | 1, 2, _, _ | 1, 3, _, _
  | 2, 0, _, _ | 2, 1, _, _ | 2, 2, _, _ | 2, 3, _, _ | 3, 0, _, _ | 3, 1, _, _ | 3, 2, _, _ | 3, 3, _, _ => rfl

theorem putTimer_keeps (k : Nat) (t : Timer) (c : CellRec) : KeepsFaults c (putTimer k t c) := by
  match k with
  | 0 | 1 | 2 | _ + 3 => exact KeepsFaults.refl c

theorem onT0Expired_keeps (c : CellRec) : KeepsFaults c (onT0Expired c) ∧ ∀ k, timerOf (onT0Expired c) k = timerOf c k := by
  unfold onT0Expired
  split
  · have h : KeepsFaults c (putCoded .cmd cmdNONE c) := ⟨rfl, fun _ => id, fun _ _ => rfl⟩
    exact ⟨h.trans (addFault_keeps _ _).1, fun k => by unfold timerOf; rfl⟩
  split
  · exact ⟨(addFault_keeps _ _).1, fun k => by unfold timerOf; rfl⟩
  · exact ⟨KeepsFaults.refl c, fun _ => rfl⟩

/-- The record of a cell after the step of timer `k`, before what follows its expiry. -/
def timerStepped (p k : Nat) (c : CellRec) : CellRec :=
  let r := stepTimer p (timerOf c k)
  addFaultIf r.2.2 fTIMER (if r.1 = timerOf c k then c else putTimer k r.1 c)

theorem stepCellTimer_eq (p k : Nat) (c : CellRec) :
    stepCellTimer p k c =
      if (stepTimer p (timerOf c k)).2.1 && k = 0 then onT0Expired (timerStepped p k c) else timerStepped p k c := rfl

theorem timerOf_addFaultIf (b : Bool) (n : Nat) (c : CellRec) (k : Nat) : timerOf (addFaultIf b n c) k = timerOf c k := by
  unfold addFaultIf
  split
  · unfold timerOf; rfl
  · rfl

theorem timerStepped_keeps (p k : Nat) (c : CellRec) : KeepsFaults c (timerStepped p k c) := by
  unfold timerStepped
  refine KeepsFaults.trans ?_ (addFaultIf_keeps _ _ _).1
  split
  · exact KeepsFaults.refl c
  · exact putTimer_keeps k _ c

theorem stepCellTimer_keeps (p k : Nat) (c : CellRec) : KeepsFaults c (stepCellTimer p k c) := by
  rw [stepCellTimer_eq]
  split
  · exact (timerStepped_keeps p k c).trans (onT0Expired_keeps _).1
  · exact timerStepped_keeps p k c

theorem timerOf_stepCellTimer (p k j : Nat) (c : CellRec) : timerOf (stepCellTimer p k c) j = timerOf (timerStepped p k c) j := by
  rw [stepCellTimer_eq]
  split
  · exact (onT0Expired_keeps _).2 j
  · rfl

/-- The step of a timer gives it the value of the step. -/
theorem timerOf_stepCellTimer_self (p k : Nat) (c : CellRec) : timerOf (stepCellTimer p k c) k = (stepTimer p (timerOf c k)).1 := by
  rw [timerOf_stepCellTimer]
  unfold timerStepped
  rw [timerOf_addFaultIf]
  split
  · rename_i h
    exact h.symm
  · exact timerOf_putTimer_self k _ c

theorem timerOf_stepCellTimer_other (p : Nat) {j k : Nat} (hj : j < 4) (hk : k < 4) (h : k ≠ j) (c : CellRec) :
    timerOf (stepCellTimer p j c) k = timerOf c k := by
  rw [timerOf_stepCellTimer]
  unfold timerStepped
  rw [timerOf_addFaultIf]
  split
  · rfl
  · exact (timerOf_putTimer hj hk _ c).trans (if_neg (Ne.symm h))

/-- The step of a live cell steps each of the four timers once. -/
theorem timerOf_stepTimers (p : Nat) {c : CellRec} (hl : isLive c = true) {k : Nat} (hk : k < 4) :
    timerOf (stepTimers p c) k = (stepTimer p (timerOf c k)).1 := by
  have other : ∀ {j}, j < 4 → k ≠ j → ∀ e, timerOf (stepCellTimer p j e) k = timerOf e k := fun hj h e =>
    timerOf_stepCellTimer_other p hj hk h e
  unfold stepTimers
  rw [if_pos hl]
  have hcases : k = 0 ∨ k = 1 ∨ k = 2 ∨ k = 3 := by omega
  rcases hcases with rfl | rfl | rfl | rfl
  · rw [other (j := 3) (by decide) (by decide), other (j := 2) (by decide) (by decide), other (j := 1) (by decide) (by decide),
      timerOf_stepCellTimer_self]
  · rw [other (j := 3) (by decide) (by decide), other (j := 2) (by decide) (by decide), timerOf_stepCellTimer_self,
      other (j := 0) (by decide) (by decide)]
  · rw [other (j := 3) (by decide) (by decide), timerOf_stepCellTimer_self, other (j := 1) (by decide) (by decide),
      other (j := 0) (by decide) (by decide)]
  · rw [timerOf_stepCellTimer_self, other (j := 2) (by decide) (by decide), other (j := 1) (by decide) (by decide),
      other (j := 0) (by decide) (by decide)]

/-- The consequences of the expiry of T0 are those of `onT0Expired`, and the steps of the other timers keep them. -/
theorem stepTimers_keeps_expired (p : Nat) {c : CellRec} (hl : isLive c = true) (he : (stepTimer p (timerOf c 0)).2.1 = true) :
    ∃ e, e.cls = c.cls ∧ KeepsFaults (onT0Expired e) (stepTimers p c) := by
  refine ⟨timerStepped p 0 c, (timerStepped_keeps p 0 c).1, ?_⟩
  have h0 : stepCellTimer p 0 c = onT0Expired (timerStepped p 0 c) := by
    rw [stepCellTimer_eq]
    exact if_pos (by simp [he])
  unfold stepTimers
  rw [if_pos hl, h0]
  exact ((stepCellTimer_keeps p 1 _).trans (stepCellTimer_keeps p 2 _)).trans (stepCellTimer_keeps p 3 _)

theorem onT0Expired_point {c : CellRec} (h : isPointLike c = true) :
    hasFault (onT0Expired c) fCALL = true ∧ (onT0Expired c).cmd = cmdNONE := by
  unfold onT0Expired
  rw [if_pos h]
  exact ⟨hasFault_addFault_self _ (by decide), rfl⟩

theorem onT0Expired_crossing {c : CellRec} (h : isCls .levelCrossing c = true) : hasFault (onT0Expired c) fCLOSE = true := by
  have hp : isPointLike c = false := by
    simp only [isCls, decide_eq_true_eq] at h
    simp [isPointLike, isCls, h]
  unfold onT0Expired
  rw [if_neg (by simp [hp]), if_pos h]
  exact hasFault_addFault_self _ (by decide)

/-- A running timer whose rest is within the period expires. -/
theorem stepTimer_expires {p : Nat} {t : Timer} (hs : t.tstate = tRUNNING) (hf : t.fresh = false) (hr : t.trem.toNat ≤ p) :
    stepTimer p t = ({ tstate := tEXPIRED, fresh := false, trem := 0 }, true, false) := by
  unfold stepTimer
  rw [if_neg (by rw [hs]; decide), if_pos hs, if_neg (by simp [hf]), if_pos hr, hf]

/-! ## Steps 1 to 4 at a cell -/

theorem verifyCell_checked {c : CellRec} (h : CheckedCell c) : verifyCell c = c := if_pos (by simp [h.1, h.2])

/-- After the timer step a cell in a region that runs keeps timers and faults. -/
theorem cellStepsIn_keeps (cx : Ctx) {x : DieSt} {n : Nat} {c : CellRec} (hh : regHalted x (regionOf n) = false) (hc : CheckedCell c) :
    CellKeeps (stepTimers cx.periodMs c) (cellStepsIn cx x n c) := by
  unfold cellStepsIn
  rw [if_neg (by simp [hh]), verifyCell_checked hc]
  refine CellKeeps.trans ?_ (startRelease_keeps _)
  split
  · exact (settle_keeps _).trans (mirrorCell_keeps _ _ _)
  · exact derive_keeps _ _

theorem cellStepsIn_unused (cx : Ctx) (x : DieSt) (n : Nat) : cellStepsIn cx x n cellUnused = cellUnused := by
  unfold cellStepsIn
  split
  · rfl
  · rfl

theorem cls_stepTimers (p : Nat) (c : CellRec) : (stepTimers p c).cls = c.cls := by
  unfold stepTimers
  split
  · exact ((((stepCellTimer_keeps p 0 _).trans (stepCellTimer_keeps p 1 _)).trans (stepCellTimer_keeps p 2 _)).trans
      (stepCellTimer_keeps p 3 _)).1
  · rfl

/-- A timer that is due has expired after the steps of its cell; a call ends with T0 of a point, and T0 of a LEVEL_CROSSING leaves
its fault (02 R83, Table 2.21, R97). -/
theorem cellStepsIn_expires (cx : Ctx) {x : DieSt} {n k : Nat} {c : CellRec} (hh : regHalted x (regionOf n) = false) (hc : CheckedCell c)
    (hl : isLive c = true) (hs : (timerOf c k).tstate = tRUNNING) (hf : (timerOf c k).fresh = false)
    (hr : (timerOf c k).trem.toNat ≤ cx.periodMs) (hk : k < 4) :
    let e := cellStepsIn cx x n c
    (k ≠ 0 ∨ isCls .levelCrossing c = false → timerOf e k = { tstate := tEXPIRED, fresh := false, trem := 0 }) ∧
    (k = 0 → isPointLike c = true → hasFault e fCALL = true ∧ e.cmd = cmdNONE) ∧
    (k = 0 → isCls .levelCrossing c = true → hasFault e fCLOSE = true) := by
  intro e
  have hstep := stepTimer_expires hs hf hr
  obtain ⟨hkeeps, htimers⟩ := cellStepsIn_keeps cx hh hc
  refine ⟨fun h => ?_, fun h0 hp => ?_, fun h0 hlc => ?_⟩
  · rw [show timerOf e k = _ from htimers k (h.imp_right ((isCls_of_cls (cls_stepTimers _ c) _).trans ·)),
      timerOf_stepTimers cx.periodMs hl hk, hstep]
  · subst h0
    obtain ⟨w, hw, hexp⟩ := stepTimers_keeps_expired cx.periodMs hl (congrArg (·.2.1) hstep)
    have hwp : isPointLike w = true := (isPointLike_of_cls hw).trans hp
    obtain ⟨hcall, hnone⟩ := onT0Expired_point hwp
    obtain ⟨-, hfaults, hcmd⟩ := hexp.trans hkeeps
    exact ⟨hfaults _ hcall, hcmd ((isPointLike_of_cls (onT0Expired_keeps w).1.1).trans hwp) hnone⟩
  · subst h0
    obtain ⟨w, hw, hexp⟩ := stepTimers_keeps_expired cx.periodMs hl (congrArg (·.2.1) hstep)
    exact (hexp.trans hkeeps).2.1 _ (onT0Expired_crossing ((isCls_of_cls hw _).trans hlc))

end Sys2Proof.Machine


/-!
PROOFS. RULES_IN at a die: which cells its phase leaves as they are, and which it steps (02 Table 2.19).
-/

namespace Sys2Proof.Machine

/-! ## RULES_IN at a die -/

/-- Two dies hold the same cells in the same phase. -/
def SameCellsPhase (x y : DieSt) : Prop := y.cells = x.cells ∧ y.phase = x.phase

theorem SameCellsPhase.refl (x : DieSt) : SameCellsPhase x x := ⟨rfl, rfl⟩

theorem SameCellsPhase.trans {x y z : DieSt} (h : SameCellsPhase x y) (k : SameCellsPhase y z) : SameCellsPhase x z :=
  ⟨k.1.trans h.1, k.2.trans h.2⟩

theorem RegionsOnly.sameCellsPhase {x y : DieSt} (h : RegionsOnly x y) : SameCellsPhase x y := ⟨by rw [h], by rw [h]⟩

theorem SameCellsPhase.getCell_eq {x y : DieSt} (h : SameCellsPhase x y) (n : Nat) : getCell y n = getCell x n :=
  congrArg (getA cellUnused · n) h.1

/-- Reconciliation moves routes alone. -/
theorem reconcileTerr_cells (cx : Ctx) (es : List TerrEntry) (x : DieSt) (t : Nat) : SameCellsPhase x (reconcileTerr cx es x t) := by
  unfold reconcileTerr
  refine List.foldlRecOn _ _ (SameCellsPhase.refl x) fun y hy i _ => hy.trans ?_
  dsimp only
  split
  · exact SameCellsPhase.refl y
  split
  · split
    · exact SameCellsPhase.refl y
    split
    · exact ⟨rfl, rfl⟩
    · exact ⟨rfl, rfl⟩
  · exact ⟨rfl, rfl⟩

/-- The sources that RULES_IN posts to each region, for cells newly lost and for the first cycle (05 R183). -/
def postedIn (s : State) (old x : DieSt) : DieSt :=
  (numsFrom 0 16).foldl (fun y r =>
    let y1 := if newlyLost old y r && !regHalted y r then postEvent r 0xC1 y else y
    if s.boundaries = 1 && !regHalted y r then postEvent r 0xC0 y1 else y1) x

theorem postedIn_cells (s : State) (old x : DieSt) : SameCellsPhase x (postedIn s old x) := by
  refine List.foldlRecOn _ _ (SameCellsPhase.refl x) fun y hy r _ => hy.trans ?_
  dsimp only
  split
  · split
    · exact ⟨rfl, rfl⟩
    · exact ⟨rfl, rfl⟩
  · split
    · exact ⟨rfl, rfl⟩
    · exact SameCellsPhase.refl y

/-- RULES_IN has begun at a die. -/
def rulesInBegun (s : State) (x : DieSt) : DieSt :=
  { x with phase := phRULESIN, restoredRun := restoredCount (ctxOf s) x, accepted := 0, rank := 0 }

/-- The die whose cells take steps 1 to 4 of RULES_IN: its phase has begun, and variables are carried over where banks have switched. -/
def steppingDie (s : State) (x : DieSt) : DieSt :=
  mapRegs (rulesInBegun s x) (fun r g =>
    let g1 := { g with dacc := crc64Ones, daccN := 0, charge := 8000 }
    if decide (s.change.carryAt = some x.cycleNo) && !g.halted && !g.haltCycle then
      (carryRegion x.image.read s.change.oldImage s.part r g1).1 else g1)

theorem regHalted_steppingDie (s : State) (x : DieSt) {r : Nat} (hr : r < 16) : regHalted (steppingDie s x) r = regHalted x r := by
  rw [regHalted_eq_halted _ hr, regHalted_eq_halted _ hr]
  unfold steppingDie
  rw [reg_mapRegs _ _ hr]
  dsimp only
  split <;> rfl

/-- Every territory whose reconciliation waits has been taken up. -/
def reconciled (s : State) (x : DieSt) : DieSt :=
  { x.reconcile.foldl (reconcileTerr (ctxOf s) (todoTerrs x.todo)) x with reconcile := [] }

theorem reconciled_cells (s : State) (x : DieSt) : SameCellsPhase x (reconciled s x) := by
  have h := List.foldlRecOn x.reconcile (reconcileTerr (ctxOf s) (todoTerrs x.todo)) (SameCellsPhase.refl x)
    fun z hz t _ => hz.trans (reconcileTerr_cells _ _ z t)
  exact ⟨h.1, h.2⟩

/-- The tasks of RULES_IN start where step 5 has no work. -/
def tasksIfIdle (s : State) (x : DieSt) : DieSt := if x.todo.isEmpty then startTasksIn s.part x else x

theorem tasksIfIdle_cells (s : State) (x : DieSt) : SameCellsPhase x (tasksIfIdle s x) := by
  unfold tasksIfIdle
  split
  · exact (startTasksIn_starts s.part x).1.sameCellsPhase
  · exact SameCellsPhase.refl x

theorem dieRulesIn_eq (s : State) (x : DieSt) :
    dieRulesIn s x = tasksIfIdle s (reconciled s
      (postedIn s (steppingDie s x) (mapCells (steppingDie s x) (cellStepsIn (ctxOf s) (steppingDie s x))))) := rfl

theorem getCell_rulesInBegun (s : State) (x : DieSt) (n : Nat) : getCell (rulesInBegun s x) n = getCell x n := rfl

theorem phase_rulesInBegun (s : State) (x : DieSt) : (rulesInBegun s x).phase = phRULESIN := rfl

theorem phase_mapCells (x : DieSt) (f : Nat → CellRec → CellRec) : (mapCells x f).phase = x.phase := rfl

theorem steppingDie_cells (s : State) (x : DieSt) : SameCellsPhase (rulesInBegun s x) (steppingDie s x) :=
  (mapRegs_only (rulesInBegun s x) _).sameCellsPhase

/-- RULES_IN steps every cell; what follows in the phase moves none. -/
theorem dieRulesIn_cells (s : State) (x : DieSt) :
    (dieRulesIn s x).phase = phRULESIN ∧ ∀ n, getCell (dieRulesIn s x) n = cellStepsIn (ctxOf s) (steppingDie s x) n (getCell x n) := by
  have hbegun := steppingDie_cells s x
  have hrest := ((postedIn_cells s (steppingDie s x) (mapCells (steppingDie s x) (cellStepsIn (ctxOf s) (steppingDie s x)))).trans
    (reconciled_cells s _)).trans (tasksIfIdle_cells s _)
  rw [dieRulesIn_eq]
  refine ⟨?_, fun n => ?_⟩
  · rw [hrest.2, phase_mapCells, hbegun.2, phase_rulesInBegun]
  · rw [hrest.getCell_eq, getCell_mapCells _ (cellStepsIn_unused _ _ n), hbegun.getCell_eq, getCell_rulesInBegun]

end Sys2Proof.Machine


/-!
PROOFS. Timers and telegram ages: what an expiry that is due does to its cell, and what SUBSTITUTE shows of it (02 R83, R101; 11 R349;
13 Table 13.3).
-/

namespace Sys2Proof.Machine

/-! ## SUBSTITUTE (13 Table 13.3) -/

theorem setOverlays_overlays (q : Overlays) (s : State) : (setOverlays q s).overlays = overlaysIn s.mode s.overlays q := by
  unfold setOverlays
  dsimp only
  split
  · rename_i h
    exact h.symm
  · rw [logOpen_tail]
    rfl

theorem overlaysIn_substitute {m : Mode} (hsafe : m ≠ .safe) (hshut : m ≠ .shutdown) (a b : Overlays) :
    (overlaysIn m a b).substitute = b.substitute := by
  cases m with
  | safe => exact absurd rfl hsafe
  | shutdown => exact absurd rfl hshut
  | dormant | wake | active | standby => rfl

theorem noteSubstitute_posts (d : Die) (s : State) (e : Die) : PostsOnly (dieOf s e) (dieOf (noteSubstitute d s) e) := by
  unfold noteSubstitute
  split
  · exact setOverlays_posts _ s e
  · exact PostsOnly.refl _

theorem noteSubstitute_mode (d : Die) (s : State) : (noteSubstitute d s).mode = s.mode := by
  unfold noteSubstitute
  split
  · exact setOverlays_mode _ s
  · rfl

theorem noteSubstitute_shown {d : Die} {s : State} (h : substCause (ctxOf s) (dieOf s d) = true) (hsafe : s.mode ≠ .safe)
    (hshut : s.mode ≠ .shutdown) : (noteSubstitute d s).overlays.substitute = true := by
  unfold noteSubstitute
  rw [if_pos h, setOverlays_overlays, overlaysIn_substitute hsafe hshut]

theorem PostsOnly.getCell_eq {x y : DieSt} (h : PostsOnly x y) (n : Nat) : getCell y n = getCell x n := h.1.sameCellsPhase.getCell_eq n

/-- A value other than the default is listed. -/
theorem mem_of_getA_ne {V : Type} {d : V} {n : Nat} : ∀ {m : Assoc V}, getA d m n ≠ d → (n, getA d m n) ∈ m
  | [], h => absurd rfl h
  | (k, v) :: t, h => by
    by_cases hk : k = n
    · simp [getA, hk]
    · simp only [getA, if_neg hk] at h ⊢
      exact List.mem_cons_of_mem _ (mem_of_getA_ne h)

/-- A live cell that is a cause is one of its die. -/
theorem substCause_of_cell {cx : Ctx} {x : DieSt} {n : Nat} (h : substCell cx x n (getCell x n) = true) : substCause cx x = true := by
  refine List.any_eq_true.mpr ⟨(n, getCell x n), mem_of_getA_ne fun hunused => ?_, h⟩
  have hnone : substCell cx x n cellUnused = false := rfl
  rw [show getCell x n = cellUnused from hunused, hnone] at h
  cases h

/-! ## The timer step (02 R83) -/

theorem timerDue_iff {p n k : Nat} {x : DieSt} :
    timerDue p n k x = true ↔ x.phase = phSAMPLE ∧ isLive (getCell x n) = true ∧ regHalted x (regionOf n) = false ∧
      (timerOf (getCell x n) k).tstate = tRUNNING ∧ (timerOf (getCell x n) k).fresh = false ∧ (timerOf (getCell x n) k).trem.toNat ≤ p := by
  simp [timerDue, and_assoc]

/-- The module in which RULES_IN has run on die `d`. -/
def afterRulesIn (d : Die) (s : State) : State := noteSubstitute d (takeDieLogs d (onDie d (dieRulesIn s) s))

theorem execRulesIn_sample {d : Die} {s : State} (h : (dieOf s d).phase = phSAMPLE) : execRulesIn d s = .next (afterRulesIn d s) :=
  congrArg Host.Outcome.next (if_pos h)

theorem afterRulesIn_die (d : Die) (s : State) : PostsOnly { dieRulesIn s (dieOf s d) with logOut := [] } (dieOf (afterRulesIn d s) d) := by
  have h := noteSubstitute_posts d (takeDieLogs d (onDie d (dieRulesIn s) s)) d
  rwa [dieOf_takeDieLogs, dieOf_onDie_self] at h

theorem afterRulesIn_phase (d : Die) (s : State) : (dieOf (afterRulesIn d s) d).phase = phRULESIN :=
  (afterRulesIn_die d s).phase_eq.trans (dieRulesIn_cells s (dieOf s d)).1

theorem afterRulesIn_getCell (d : Die) (s : State) (n : Nat) :
    getCell (dieOf (afterRulesIn d s) d) n = cellStepsIn (ctxOf s) (steppingDie s (dieOf s d)) n (getCell (dieOf s d) n) :=
  ((afterRulesIn_die d s).getCell_eq n).trans ((dieRulesIn_cells s (dieOf s d)).2 n)

/-! ## The age of telegrams (02 R101; 11 R349) -/

/-- The module in which cell `n` of die `d` has become `e`, and SUBSTITUTE shows what it causes. -/
def agedCell (d : Die) (n : Nat) (e : CellRec) (s : State) : State := noteSubstitute d (onDie d (fun x => setCell x n e) s)

theorem agedCell_getCell (d : Die) (n : Nat) (e : CellRec) (s : State) (m : Nat) :
    getCell (dieOf (agedCell d n e s) d) m = if n = m then e else getCell (dieOf s d) m := by
  have h := noteSubstitute_posts d (onDie d (fun x => setCell x n e) s) d
  rw [dieOf_onDie_self] at h
  exact (h.getCell_eq m).trans (getCell_setCell _ n m e)

theorem agedCell_self (d : Die) (n : Nat) (e : CellRec) (s : State) : getCell (dieOf (agedCell d n e s) d) n = e :=
  (agedCell_getCell d n e s n).trans (if_pos rfl)

theorem agedCell_others (d : Die) (n : Nat) (e : CellRec) (s : State) : OtherCells n d s (agedCell d n e s) := fun m hm =>
  (agedCell_getCell d n e s m).trans (if_neg (Ne.symm hm))

theorem agedCell_mode (d : Die) (n : Nat) (e : CellRec) (s : State) : (agedCell d n e s).mode = s.mode := noteSubstitute_mode _ _

/-- A BOUNDARY cell without fresh data is shown by SUBSTITUTE. -/
theorem agedCell_substitute {d : Die} {n : Nat} {e : CellRec} {s : State} (hl : isLive e = true) (hb : isCls .boundary e = true)
    (hf : freshMirror (ctxOf s) (dieOf s d) n = none) (hsafe : s.mode ≠ .safe) (hshut : s.mode ≠ .shutdown) :
    (agedCell d n e s).overlays.substitute = true := by
  refine noteSubstitute_shown ?_ hsafe hshut
  rw [dieOf_onDie_self]
  refine substCause_of_cell (n := n) ?_
  rw [getCell_setCell, if_pos rfl]
  have hfresh : freshMirror (ctxOf (onDie d (fun x => setCell x n e) s)) (setCell (dieOf s d) n e) n = none := hf
  unfold substCell
  rw [hfresh, hl, hb]
  simp

/-- A change of a die depends on what it makes of the die it meets. -/
theorem onDie_congr {d : Die} {s : State} {f g : DieSt → DieSt} (h : f (dieOf s d) = g (dieOf s d)) : onDie d f s = onDie d g s := by
  have hd : triMod s.dies d f = triMod s.dies d g := by
    unfold dieOf at h
    cases d <;> simp only [triGet] at h <;> simp only [triMod, h]
  unfold onDie
  rw [hd]

theorem exec_telegramAgeExpired {d : Die} {n : Nat} {s : State} (hph : (dieOf s d).phase = phRULESIN)
    (hc : substCell (ctxOf s) (dieOf s d) n (getCell (dieOf s d) n) = true) (hh : regHalted (dieOf s d) (regionOf n) = false) :
    exec (.telegramAgeExpired d n) s = .next (agedCell d n
      (let c := getCell (dieOf s d) n
       if isCls .boundary c then mirrorCell (freshMirror (ctxOf s) (dieOf s d) n) (ownerLost (ctxOf s) c) c
       else derive (senseOf (ctxOf s) (dieOf s d) c) c) s) := by
  refine congrArg Host.Outcome.next ((if_pos (by simp [hph, hc, hh])).trans ?_)
  exact congrArg (noteSubstitute d) (onDie_congr rfl)

theorem exec_telegramAgeExpired_none {d : Die} {n : Nat} {s : State}
    (h : (dieOf s d).phase ≠ phRULESIN ∨ substCell (ctxOf s) (dieOf s d) n (getCell (dieOf s d) n) = false ∨
      regHalted (dieOf s d) (regionOf n) = true) : exec (.telegramAgeExpired d n) s = .next s :=
  congrArg Host.Outcome.next (if_neg (by rcases h with h | h | h <;> simp [h]))

theorem isLive_of_cls {c e : CellRec} (h : e.cls = c.cls) : isLive e = isLive c := by
  unfold isLive
  rw [h]

/-- Without fresh data a BOUNDARY cell takes its restrictive values (02 R101). -/
theorem mirrorCell_none (lost : Bool) (c : CellRec) : mirrorCell none lost c = clearOwner (restrictCoded (addFaultIf lost fREMOTE c)) := by
  unfold mirrorCell
  dsimp only
  rw [ite_self]

end Sys2Proof.Machine


/-!
PROOFS. Proxies, remote waits and two-step entries: the marks and the table entry of a route that goes (11 R341, R345; 17 R475).
-/

namespace Sys2Proof.Machine

/-! ## Marks of a route that goes -/

theorem numsFrom_four : numsFrom 0 4 = [0, 1, 2, 3] := rfl

/-- Ports of a cell are 0 to 3; a mark is written at its own. -/
theorem markOf_putMark (p q : Nat) (m : Half) (c : CellRec) (hp : p < 4) (hq : q < 4) :
    markOf (putMark p m c) q = if p = q then m else markOf c q := by
  match p, q, hp, hq with
  | 0, 0, _, _ | 0, 1, _, _ | 0, 2, _, _ | 0, 3, _, _ | 1, 0, _, _ | 1, 1, _, _ | 1, 2, _, _ | 1, 3, _, _
  | 2, 0, _, _ | 2, 1, _, _ | 2, 2, _, _ | 2, 3, _, _ | 3, 0, _, _ | 3, 1, _, _ | 3, 2, _, _ | 3, 3, _, _ => rfl

theorem lock_putMark (p : Nat) (m : Half) (c : CellRec) : (putMark p m c).lock = c.lock := by
  match p with
  | 0 | 1 | 2 | _ + 3 => rfl

/-- The record after the mark of the route on port `p` has been cleared. -/
def clearMarkAt (fg : Bool) (r : BitVec 13) (c : CellRec) (p : Nat) : CellRec :=
  if markOfRoute fg r (markOf c p) then putMark p 0 c else c

theorem clearMarks_eq (fg : Bool) (r : BitVec 13) (c : CellRec) : clearMarks fg r c = (numsFrom 0 4).foldl (clearMarkAt fg r) c := rfl

theorem lock_clearMarks (fg : Bool) (r : BitVec 13) (c : CellRec) : (clearMarks fg r c).lock = c.lock := by
  rw [clearMarks_eq]
  refine List.foldlRecOn (motive := fun e : CellRec => e.lock = c.lock) _ _ rfl fun e he p _ => ?_
  unfold clearMarkAt
  split
  · exact (lock_putMark p 0 e).trans he
  · exact he

theorem markOfRoute_zero (fg : Bool) (r : BitVec 13) : markOfRoute fg r 0 = false := rfl

theorem clearMarkAt_self (fg : Bool) (r : BitVec 13) (c : CellRec) {p : Nat} (hp : p < 4) :
    markOfRoute fg r (markOf (clearMarkAt fg r c p) p) = false := by
  unfold clearMarkAt
  split
  · rw [markOf_putMark p p 0 c hp hp, if_pos rfl, markOfRoute_zero]
  · rename_i h
    exact Bool.eq_false_of_not_eq_true h

/-- A port that shows no mark of the route shows none once another is cleared. -/
theorem clearMarkAt_keeps {fg : Bool} {r : BitVec 13} {c : CellRec} {p q : Nat} (hp : p < 4) (hq : q < 4)
    (h : markOfRoute fg r (markOf c q) = false) : markOfRoute fg r (markOf (clearMarkAt fg r c p) q) = false := by
  unfold clearMarkAt
  split
  · rw [markOf_putMark p q 0 c hp hq]
    split
    · exact markOfRoute_zero fg r
    · exact h
  · exact h

/-- No port shows a mark of the route afterwards. -/
theorem clearMarks_unmarked (fg : Bool) (r : BitVec 13) (c : CellRec) {q : Nat} (hq : q < 4) :
    markOfRoute fg r (markOf (clearMarks fg r c) q) = false := by
  have keep : ∀ (l : List Nat), (∀ p ∈ l, p < 4) → ∀ e, markOfRoute fg r (markOf e q) = false →
      markOfRoute fg r (markOf (l.foldl (clearMarkAt fg r) e) q) = false := fun l hl e he =>
    List.foldlRecOn (motive := fun e => markOfRoute fg r (markOf e q) = false) _ _ he fun e he p hp => clearMarkAt_keeps (hl p hp) hq he
  have reach : ∀ (l : List Nat), (∀ p ∈ l, p < 4) → q ∈ l → ∀ e,
      markOfRoute fg r (markOf (l.foldl (clearMarkAt fg r) e) q) = false := by
    intro l
    induction l with
    | nil => exact fun _ h => absurd h List.not_mem_nil
    | cons p l ih =>
      intro hl hmem e
      have htail : ∀ p ∈ l, p < 4 := fun a ha => hl a (List.mem_cons_of_mem p ha)
      rcases List.mem_cons.mp hmem with rfl | hmem
      · exact keep l htail _ (clearMarkAt_self fg r e hq)
      · exact ih htail hmem _
  rw [clearMarks_eq, numsFrom_four]
  exact reach _ (by decide) (by simp; omega) c

theorem markOf_unused (p : Nat) : markOf cellUnused p = 0 := by
  match p with
  | 0 | 1 | 2 | _ + 3 => rfl

theorem clearMarks_unused (fg : Bool) (r : BitVec 13) : clearMarks fg r cellUnused = cellUnused := by
  rw [clearMarks_eq]
  refine List.foldlRecOn (motive := fun e => e = cellUnused) _ _ rfl fun e he p _ => ?_
  rw [he, clearMarkAt, markOf_unused, markOfRoute_zero]
  rfl

theorem getCell_cancelMarks (e : RouteEntry) (x : DieSt) (n : Nat) :
    getCell (cancelMarks e x) n = if regHalted x (regionOf n) then getCell x n else clearMarks (isProxy e) e.routeId (getCell x n) := by
  refine getCell_mapCells x (f := fun n c => if regHalted x (regionOf n) then c else clearMarks (isProxy e) e.routeId c) ?_
  rw [clearMarks_unused, ite_self]

/-! ## Entries that return to IDLE -/

theorem getRoute_setRoute (x : DieSt) (i j : Nat) (e : RouteEntry) : getRoute (setRoute x i e) j = if i = j then e else getRoute x j :=
  getA_putA routeIdle e i j x.routes

/-- Entry `i` is IDLE for the reason, none of its marks is left, and no other entry has changed. -/
def RouteEnded (i : Nat) (why : BitVec 8) (x y : DieSt) : Prop :=
  (getRoute y i).state = rsIDLE ∧ (getRoute y i).reason = why ∧ (∀ j, j ≠ i → getRoute y j = getRoute x j) ∧
    (∀ m p, p < 4 → regHalted x (regionOf m) = false →
      markOfRoute (isProxy (getRoute x i)) (getRoute x i).routeId (markOf (getCell y m) p) = false) ∧
    ∀ m, (getCell y m).lock = (getCell x m).lock

/-- The die differs from the one before at most in entry `i` and in what it sends. -/
def EntryMoved (i : Nat) (x y : DieSt) : Prop :=
  y.cells = x.cells ∧ y.regions = x.regions ∧ ∀ j, j ≠ i → getRoute y j = getRoute x j

/-- With its marks cancelled, the entry returns to IDLE. -/
theorem toIdle_cancelMarks {i : Nat} {x y : DieSt} (why : BitVec 8) (h : EntryMoved i x y) :
    RouteEnded i why x (toIdle i why (cancelMarks (getRoute x i) y)) := by
  obtain ⟨hcells, hregions, hroutes⟩ := h
  have hhalted : ∀ r, regHalted y r = regHalted x r := fun r => by
    unfold regHalted
    rw [hregions]
  have hcell : ∀ m, getCell (toIdle i why (cancelMarks (getRoute x i) y)) m =
      if regHalted x (regionOf m) then getCell x m else clearMarks (isProxy (getRoute x i)) (getRoute x i).routeId (getCell x m) := fun m => by
    have hm : getCell y m = getCell x m := congrArg (getA cellUnused · m) hcells
    rw [← hhalted, ← hm]
    exact getCell_cancelMarks (getRoute x i) y m
  have hroute : ∀ j, getRoute (toIdle i why (cancelMarks (getRoute x i) y)) j =
      if i = j then { getRoute y i with state := rsIDLE, reason := why } else getRoute y j := fun j =>
    getRoute_setRoute (cancelMarks (getRoute x i) y) i j _
  refine ⟨?_, ?_, fun j hj => ?_, fun m p hp hh => ?_, fun m => ?_⟩
  · rw [hroute, if_pos rfl]
  · rw [hroute, if_pos rfl]
  · rw [hroute, if_neg (Ne.symm hj), hroutes j hj]
  · rw [hcell, if_neg (by simp [hh])]
    exact clearMarks_unmarked _ _ _ hp
  · rw [hcell]
    split
    · rfl
    · exact lock_clearMarks _ _ _

theorem EntryMoved.refl (i : Nat) (x : DieSt) : EntryMoved i x x := ⟨rfl, rfl, fun _ _ => rfl⟩

theorem EntryMoved.setRoute {i : Nat} (x : DieSt) (e : RouteEntry) : EntryMoved i x (setRoute x i e) :=
  ⟨rfl, rfl, fun j hj => (getRoute_setRoute x i j e).trans (if_neg (Ne.symm hj))⟩

/-- The CANCEL entry for the other territory changes no entry, cell or region. -/
theorem cancelRemote_moved {i : Nat} {x y : DieSt} (cx : Ctx) (h : EntryMoved i x y) : EntryMoved i x (cancelRemote cx i y) := by
  unfold cancelRemote
  dsimp only
  split
  · split
    · exact h
    · exact h
  · exact h

/-! ## Proxies unheard of (11 R341) -/

/-- No entry for the key has come for 4 cycles. -/
def Unheard (x : DieSt) (h : Option TerrEntry) : Prop := ∀ u, h = some u → 4 ≤ (x.cycleNo - u.taken).toNat

/-- What `terrAbsent` asks of the entry it holds. -/
theorem unheard_iff (x : DieSt) (h : Option TerrEntry) :
    (match h with | some t => decide (4 ≤ (x.cycleNo - t.taken).toNat) | none => true) = true ↔ Unheard x h := by
  unfold Unheard
  cases h with
  | none => simp
  | some t => simp

theorem terrAbsent_ends {cx : Ctx} {i : Nat} {x : DieSt} (hph : x.phase = phRULESIN) (hp : isProxy (getRoute x i) = true)
    (hst : (getRoute x i).state = rsPROBING ∨ (getRoute x i).state = rsPROBED)
    (hlost : cx.lostTerr.contains (entryDesc cx x (getRoute x i)).reqTerr = false)
    (hu : Unheard x (proxyHeard x (entryDesc cx x (getRoute x i)) (getRoute x i).key)) : terrAbsent cx i x = cancelProxy i x := by
  have hheard := (unheard_iff x _).mpr hu
  unfold terrAbsent
  dsimp only
  refine if_pos ?_
  rw [Bool.and_eq_true]
  refine ⟨?_, hheard⟩
  rw [hlost]
  simp [hph, hp, hst]

theorem terrAbsent_nothing {cx : Ctx} {i : Nat} {x : DieSt}
    (h : isProxy (getRoute x i) = false ∨ cx.lostTerr.contains (entryDesc cx x (getRoute x i)).reqTerr = true ∨
      ¬ Unheard x (proxyHeard x (entryDesc cx x (getRoute x i)) (getRoute x i).key)) : terrAbsent cx i x = x := by
  unfold terrAbsent
  dsimp only
  refine if_neg fun hc => ?_
  rw [Bool.and_eq_true] at hc
  obtain ⟨hc, hheard⟩ := hc
  simp only [Bool.and_eq_true, Bool.not_eq_true'] at hc
  obtain ⟨⟨⟨-, hp⟩, -⟩, hlost⟩ := hc
  rcases h with h | h | h
  · rw [h] at hp
    cases hp
  · rw [h] at hlost
    cases hlost
  · exact h ((unheard_iff x _).mp hheard)

theorem cancelProxy_ended (i : Nat) (x : DieSt) : RouteEnded i rnNONE x (cancelProxy i x) :=
  toIdle_cancelMarks rnNONE (EntryMoved.refl i x)

/-! ## Remote waits (11 R345) -/

theorem countWait_ended {cx : Ctx} {i : Nat} {x : DieSt} (hw : (getWork x i).waiting = true) (hr : (getWork x i).remote = true)
    (hp : isProxy (getRoute x i) = false) (hst : (getRoute x i).state = rsPROBING) (h4 : (getRoute x i).wait = 4) :
    RouteEnded i rnREMOTETIMEOUT x (countWait cx i x) := by
  have hcount : countWait cx i x =
      toIdle i rnREMOTETIMEOUT (cancelMarks (getRoute x i) (cancelRemote cx i (setRoute x i { getRoute x i with wait := 5 }))) := by
    unfold countWait
    dsimp only
    rw [if_pos (by simp [hst, hr, hp]), if_neg (by simp [hw]), if_neg (by rw [h4]; decide)]
  rw [hcount]
  exact toIdle_cancelMarks _ (cancelRemote_moved cx (EntryMoved.setRoute x _))

/-! ## Two-step entries (17 R475) -/

theorem pendingOver_iff {n : Word} {p : Nat} {e : PendEntry} : pendingOver n p e = true ↔ 60000 < (n - e.taken).toNat * p := decide_eq_true_iff

/-- A region written as it stands leaves the die as it is. -/
theorem modReg_eq_self {x : DieSt} {r : Nat} {f : RegionSt → RegionSt} (h : f (reg x r) = reg x r) : modReg x r f = x := by
  have hset : x.regions.setIfInBounds r (reg x r) = x.regions := by
    refine Vector.ext fun q hq => ?_
    rw [Vector.getElem_setIfInBounds]
    split
    · rename_i hr
      subst hr
      simp [reg, hq]
    · rfl
  unfold modReg setReg
  rw [h, hset]

/-- The region once an entry without its confirm has gone. -/
def pendingExpired (s : State) (e : PendEntry) (g : RegionSt) : RegionSt :=
  if pendingOver s.cycle (periodOf s) e && !g.halted then
    { g with sup := { g.sup with pendings := g.sup.pendings.filter (· ≠ e) } } else g

theorem exec_pendingExpiry (d : Die) (r : Nat) (e : PendEntry) (s : State) :
    exec (.pendingExpiry d r e) s = .next (onDie d (fun x => modReg x r (pendingExpired s e)) s) := rfl

end Sys2Proof.Machine


/-!
PROOFS. What ends with its time, and nothing before: O35.
-/

namespace Sys2Proof.Machine

/-! ## The time of each -/

/-- An expiry that is due runs RULES_IN on its die, which ends the timer. -/
theorem timerExpired_due {s : State} {d : Die} {n k : Nat} (hdue : timerDue (periodOf s) n k (dieOf s d) = true)
    (hc : CheckedCell (getCell (dieOf s d) n)) (hk : k < 4) :
    Answers (.timerExpired d n k) s (fun t =>
      exec (.rulesIn d) s = .next t ∧ (dieOf t d).phase = phRULESIN ∧
      (k ≠ 0 ∨ isCls .levelCrossing (getCell (dieOf s d) n) = false →
        timerOf (getCell (dieOf t d) n) k = { tstate := tEXPIRED, fresh := false, trem := 0 }) ∧
      (k = 0 → isPointLike (getCell (dieOf s d) n) = true →
        hasFault (getCell (dieOf t d) n) fCALL = true ∧ (getCell (dieOf t d) n).cmd = cmdNONE) ∧
      (k = 0 → isCls .levelCrossing (getCell (dieOf s d) n) = true → hasFault (getCell (dieOf t d) n) fCLOSE = true)) := by
  obtain ⟨hph, hl, hh, hs, hf, hr⟩ := timerDue_iff.mp hdue
  have hrun : execRulesIn d s = .next (afterRulesIn d s) := execRulesIn_sample hph
  refine ⟨afterRulesIn d s, (if_pos hdue : execTimerExpired d n k s = execRulesIn d s).trans hrun, hrun, afterRulesIn_phase d s, ?_⟩
  rw [afterRulesIn_getCell]
  exact cellStepsIn_expires (ctxOf s) ((regHalted_steppingDie s _ (regionOf_lt n)).trans hh) hc hl hs hf hr hk

theorem timerExpired_early {s : State} {d : Die} {n k : Nat} (h : ¬ timerDue (periodOf s) n k (dieOf s d) = true) :
    exec (.timerExpired d n k) s = .next s := if_neg h

/-- A BOUNDARY cell whose data is past T_max. -/
theorem telegramAge_boundary {s : State} {d : Die} {n : Nat} (hph : (dieOf s d).phase = phRULESIN)
    (hl : isLive (getCell (dieOf s d) n) = true) (hb : isCls .boundary (getCell (dieOf s d) n) = true)
    (hf : freshMirror (ctxOf s) (dieOf s d) n = none) (hh : regHalted (dieOf s d) (regionOf n) = false) (hsafe : s.mode ≠ .safe)
    (hshut : s.mode ≠ .shutdown) :
    Answers (.telegramAgeExpired d n) s (fun t =>
      getCell (dieOf t d) n =
        clearOwner (restrictCoded (addFaultIf (ownerLost (ctxOf s) (getCell (dieOf s d) n)) fREMOTE (getCell (dieOf s d) n))) ∧
      OtherCells n d s t ∧ t.overlays.substitute = true ∧ t.mode = s.mode) := by
  have hcause : substCell (ctxOf s) (dieOf s d) n (getCell (dieOf s d) n) = true := by
    unfold substCell
    rw [hf, hl, hb]
    simp
  have hexec := exec_telegramAgeExpired hph hcause hh
  dsimp only at hexec
  rw [if_pos hb, hf, mirrorCell_none] at hexec
  generalize he : clearOwner (restrictCoded (addFaultIf (ownerLost (ctxOf s) (getCell (dieOf s d) n)) fREMOTE (getCell (dieOf s d) n))) = e
    at hexec
  have hcls : e.cls = (getCell (dieOf s d) n).cls := by
    rw [← he]
    exact ((addFaultIf_keeps _ _ _).trans ((restrictCoded_keeps _).trans (clearOwner_keeps _))).1.1
  exact ⟨_, hexec, agedCell_self d n e s, agedCell_others d n e s,
    agedCell_substitute ((isLive_of_cls hcls).trans hl) ((isCls_of_cls hcls _).trans hb) hf hsafe hshut, agedCell_mode d n e s⟩

/-- A remote binding whose data is past T_max. -/
theorem telegramAge_remote {s : State} {d : Die} {n : Nat} (hph : (dieOf s d).phase = phRULESIN)
    (hb : isCls .boundary (getCell (dieOf s d) n) = false) (hc : substCell (ctxOf s) (dieOf s d) n (getCell (dieOf s d) n) = true)
    (hh : regHalted (dieOf s d) (regionOf n) = false) :
    Answers (.telegramAgeExpired d n) s (fun t =>
      getCell (dieOf t d) n = derive (senseOf (ctxOf s) (dieOf s d) (getCell (dieOf s d) n)) (getCell (dieOf s d) n) ∧
      OtherCells n d s t ∧ t.mode = s.mode) := by
  have hexec := exec_telegramAgeExpired hph hc hh
  dsimp only at hexec
  rw [if_neg (by simp [hb])] at hexec
  exact ⟨_, hexec, agedCell_self d n _ s, agedCell_others d n _ s, agedCell_mode d n _ s⟩

theorem exec_terrAbsent (d : Die) (i : Nat) (s : State) : exec (.terrAbsent d i) s = .next (onDie d (terrAbsent (ctxOf s) i) s) := rfl

theorem exec_remoteTimeout {d : Die} {i : Nat} {s : State} (hph : (dieOf s d).phase = phPROPAGATE)
    (hw : (getWork (dieOf s d) i).waiting = true) (h4 : (getRoute (dieOf s d) i).wait = 4) :
    exec (.remoteTimeout d i) s = .next (onDie d (countWait (ctxOf s) i) s) :=
  congrArg Host.Outcome.next (onDie_congr (if_pos (by simp [hph, hw, h4])))

theorem exec_remoteTimeout_none {d : Die} {i : Nat} {s : State}
    (h : (getWork (dieOf s d) i).waiting = false ∨ (getRoute (dieOf s d) i).wait ≠ 4) : exec (.remoteTimeout d i) s = .next s :=
  congrArg Host.Outcome.next (onDie_eq_self (if_neg (by
    rcases h with h | h
    · rw [h]
      simp
    · rw [decide_eq_false h]
      simp)))

/-- A two-step entry goes after its 60 s, and nothing else of the module does. -/
theorem pendingExpiry_over {s : State} {d : Die} {r : Nat} {e : PendEntry} (ht : 60000 < (s.cycle - e.taken).toNat * periodOf s)
    (hr : r < 16) (hh : (reg (dieOf s d) r).halted = false) :
    Answers (.pendingExpiry d r e) s (fun t =>
      (reg (dieOf t d) r).sup =
        { (reg (dieOf s d) r).sup with pendings := (reg (dieOf s d) r).sup.pendings.filter (· ≠ e) } ∧
      (reg (dieOf t d) r).mem = (reg (dieOf s d) r).mem ∧ (∀ p, p ≠ r → reg (dieOf t d) p = reg (dieOf s d) p) ∧
      t = { s with dies := t.dies }) := by
  have hover : pendingOver s.cycle (periodOf s) e && !(reg (dieOf s d) r).halted := by simp [pendingOver_iff.mpr ht, hh]
  refine ⟨_, exec_pendingExpiry d r e s, ?_, ?_, fun p hp => ?_, rfl⟩
  · rw [dieOf_onDie_self, reg_modReg_self _ hr, pendingExpired, if_pos hover]
  · rw [dieOf_onDie_self, reg_modReg_self _ hr, pendingExpired, if_pos hover]
  · rw [dieOf_onDie_self, reg_modReg_other _ hp]

theorem pendingExpiry_early {s : State} {d : Die} {r : Nat} {e : PendEntry}
    (h : (s.cycle - e.taken).toNat * periodOf s ≤ 60000 ∨ (reg (dieOf s d) r).halted = true) :
    exec (.pendingExpiry d r e) s = .next s := by
  have hnot : ¬ (pendingOver s.cycle (periodOf s) e && !(reg (dieOf s d) r).halted) = true := by
    rw [Bool.and_eq_true, pendingOver_iff, Bool.not_eq_true']
    rintro ⟨hover, hrun⟩
    rcases h with h | h
    · omega
    · rw [h] at hrun
      cases hrun
  exact congrArg Host.Outcome.next (onDie_eq_self (modReg_eq_self (if_neg hnot)))

/-- Settles O35: each instruction has its effect where its time has passed and none before. -/
theorem timeEndsWhatWaits : Obligations.TimeEndsWhatWaits := by
  unfold Obligations.TimeEndsWhatWaits
  intro s d n k i r e x c q due unheard unmarked nothing
  refine ⟨fun hdue hc hk => timerExpired_due (timerDue_iff.mpr hdue) hc hk,
    fun h => ⟨s, timerExpired_early fun hd => h (timerDue_iff.mp hd), rfl⟩,
    fun hph hl hb hf hh hsafe hshut => telegramAge_boundary hph hl hb hf hh hsafe hshut,
    fun hph hb hc hh => telegramAge_remote hph hb hc hh,
    fun h => ⟨s, exec_telegramAgeExpired_none h, rfl⟩,
    fun hph hp hst hlost hu => ⟨_, exec_terrAbsent d i s, ?_⟩, fun h => ⟨s, ?_, rfl⟩,
    fun hph hw hr hp hst h4 => ⟨_, exec_remoteTimeout hph hw h4, ?_⟩,
    fun h => ⟨s, exec_remoteTimeout_none h, rfl⟩,
    fun ht hr hh => pendingExpiry_over ht hr hh, fun h => ⟨s, pendingExpiry_early h, rfl⟩⟩
  · obtain ⟨hidle, -, hothers, hmarks, hlocks⟩ := cancelProxy_ended i x
    have hdie : dieOf (onDie d (terrAbsent (ctxOf s) i) s) d = cancelProxy i x :=
      (dieOf_onDie_self s d _).trans (terrAbsent_ends hph hp hst hlost hu)
    simp only [unmarked, hdie]
    exact ⟨hidle, hothers, hmarks, hlocks, rfl⟩
  · exact (exec_terrAbsent d i s).trans (congrArg Host.Outcome.next (onDie_eq_self (terrAbsent_nothing h)))
  · obtain ⟨hidle, hwhy, hothers, hmarks, -⟩ := countWait_ended (cx := ctxOf s) hw hr hp hst h4
    simp only [unmarked, dieOf_onDie_self]
    exact ⟨hidle, hwhy, hmarks, hothers, rfl⟩

end Sys2Proof.Machine


/-!
PROOFS. A token that acts at its cell, and what cells emit (01 R30, 03 Table 3.9).
-/

namespace Sys2Proof.Machine

/-! ## A die as an addressed token meets it -/

theorem Arrives.getCell_eq {s : State} {d : Die} {t : Token} {y : DieSt} (h : Arrives s d t y) (n : Nat) :
    getCell y n = getCell (dieOf s d) n := by
  obtain ⟨-, -, -, rfl⟩ := h
  unfold broughtBy getCell
  rw [carry_only]

theorem getCell_modCell (x : DieSt) (n m : Nat) (f : CellRec → CellRec) :
    getCell (modCell x n f) m = if n = m then f (getCell x n) else getCell x m := getCell_setCell x n m _

/-- A live record has a class of 02 Table 2.1. -/
theorem clsOf_isNone_of_isLive {c : CellRec} (h : isLive c = true) : (clsOf c.cls).isNone = false := by
  unfold isLive at h
  cases hc : clsOf c.cls with
  | none => simp [hc] at h
  | some k => rfl

/-- Two dies hold the same cells but for cell `n`, which holds `e` in the second. -/
def CellBecomes (n : Nat) (e : CellRec) (x y : DieSt) : Prop := getCell y n = e ∧ ∀ m, m ≠ n → getCell y m = getCell x m

theorem CellBecomes.setCell {n : Nat} {e : CellRec} {x y : DieSt} (h : CellBecomes n e x y) (f : CellRec) :
    CellBecomes n f x (setCell y n f) :=
  ⟨(getCell_setCell y n n f).trans (if_pos rfl), fun m hm => ((getCell_setCell y n m f).trans (if_neg hm.symm)).trans (h.2 m hm)⟩

/-- The fabric's read of a sound cell leaves every cell as it is. -/
theorem Arrives.fabricRead_sound {s : State} {d : Die} {t : Token} {y : DieSt} {n : Nat} (h : Arrives s d t y) (hc : SoundCell s d n) :
    CellBecomes n (getCell (dieOf s d) n) (dieOf s d) (modCell y n fabricRead) := by
  refine ⟨?_, fun m hm => ?_⟩
  · rw [getCell_modCell, if_pos rfl, h.getCell_eq, hc.2.2]
  · rw [getCell_modCell, if_neg hm.symm, h.getCell_eq]

/-- What the fabric reads of cell `n`: the die after the read, and the cell's record, which has a class. -/
def ReadAs (y : DieSt) (n : Nat) (z : DieSt) (c : CellRec) : Prop :=
  modCell y n fabricRead = z ∧ getCell z n = c ∧ (clsOf c.cls).isNone = false

theorem Arrives.readAs {s : State} {d : Die} {t : Token} {y : DieSt} {n : Nat} (h : Arrives s d t y) (hc : SoundCell s d n) :
    ReadAs y n (modCell y n fabricRead) (getCell (dieOf s d) n) :=
  ⟨rfl, (h.fabricRead_sound hc).1, clsOf_isNone_of_isLive hc.1⟩

/-! ## What flies -/

/-- Token `q` rests in the outbox of physical cell `k`, or waits for it. -/
def HeldIn (k : Nat) (q : Token) (x : DieSt) : Prop :=
  q ∈ (getA (spEmpty tokenZero) x.outboxes k).items ++ (getA (spEmpty tokenZero) x.outboxes k).stalled

/-- A token in an outbox has not acted. -/
theorem HeldIn.mem_tokensOf {k : Nat} {q : Token} {x : DieSt} (h : HeldIn k q x) : q ∈ tokensOf x := by
  unfold HeldIn at h
  refine List.mem_append_left _ (List.mem_flatMap.mpr ⟨(k, getA (spEmpty tokenZero) x.outboxes k), mem_of_getA_ne fun hempty => ?_, h⟩)
  rw [hempty] at h
  exact absurd h (by simp [spEmpty])

/-- What a cell emits rests in its outbox, or waits for it. -/
theorem emitFrom_holds (n : Nat) {ts : List Token} {q : Token} (hq : q ∈ ts) (x : DieSt) : HeldIn (physCell x n) q (emitFrom n ts x) := by
  have hne : ts.isEmpty = false := by cases ts <;> simp_all
  unfold HeldIn emitFrom putOutbox
  simp only [hne, Bool.false_eq_true, if_false, getA_putA_self]
  exact foldl_spBack_held outboxDepth outboxWm ts (outboxOf x n) q (Or.inl hq)

/-- What rests in an outbox stays there while cells emit. -/
theorem HeldIn.emitFrom {k : Nat} {q : Token} {x : DieSt} (h : HeldIn k q x) (n : Nat) (ts : List Token) : HeldIn k q (emitFrom n ts x) := by
  unfold Machine.emitFrom
  split
  · exact h
  · unfold HeldIn putOutbox
    rw [getA_putA]
    split
    · rename_i hk
      subst hk
      exact foldl_spBack_held outboxDepth outboxWm ts (outboxOf x n) q (Or.inr h)
    · exact h

theorem getCell_emitFrom (n : Nat) (ts : List Token) (x : DieSt) (m : Nat) : getCell (emitFrom n ts x) m = getCell x m := by
  unfold emitFrom putOutbox
  split <;> rfl

/-! ## The row of a token -/

/-- Delivery leaves the cells and tokens that the token's action leaves; the count of tokens touches regions alone. -/
theorem deliverRow_reads {s : State} {d : Die} (t : Token) (hp : (dieOf s d).phase = phPROPAGATE) :
    (∀ n, getCell (dieOf (deliverRow d t s) d) n = getCell (deliver (ctxOf s) t (dieOf s d)) n) ∧
      ∀ q, Flies (deliverRow d t s) d q ↔ q ∈ tokensOf (deliver (ctxOf s) t (dieOf s d)) := by
  have hdie := dieOf_deliverRow t hp
  rw [countOut_only] at hdie
  refine ⟨fun n => ?_, fun q => ?_⟩
  · rw [hdie]
    rfl
  · unfold Flies
    rw [hdie]
    exact Iff.rfl

/-- A token that acts at a cell which is not stalled: its action, and the tokens that the cell emits for it. -/
theorem deliver_acts {s : State} {d : Die} {t : Token} {y : DieSt} {r : DieSt × List Token} (h : Arrives s d t y)
    (hs : cellStalled y t.dest.toNat = false) (ha : cellAction (ctxOf s) t y = some r) :
    deliver (ctxOf s) t (dieOf s d) = emitFrom t.dest.toNat r.2 r.1 := by
  obtain ⟨-, hb, harr, rfl⟩ := h
  unfold deliver
  simp only [hb, harr, Bool.false_eq_true, if_false, if_true]
  unfold actArrived
  unfold broughtBy at ha hs
  simp only [ha]
  exact if_neg (by simpa [destCell] using hs)

/-- A stalled cell takes no token whose action would emit (01 R30). -/
theorem deliver_stalled {s : State} {d : Die} {t : Token} {y : DieSt} {r : DieSt × List Token} (h : Arrives s d t y)
    (hs : cellStalled y t.dest.toNat = true) (ha : cellAction (ctxOf s) t y = some r) :
    deliver (ctxOf s) t (dieOf s d) = carry t (netFuel (dieOf s d)) (dieOf s d) := by
  obtain ⟨-, hb, harr, rfl⟩ := h
  unfold deliver
  simp only [hb, harr, Bool.false_eq_true, if_false, if_true]
  unfold actArrived
  unfold broughtBy at ha hs
  simp only [ha]
  exact if_pos (by simpa [destCell] using hs)

/-- The command answers where the token's action makes `e` of its cell, leaves every other cell, and emits `ts`. -/
theorem answers_of_action {s : State} {d : Die} {t : Token} {y z : DieSt} {ts : List Token} {e : CellRec} {cmd : Instr} {P : State → Prop}
    (hx : exec cmd s = .next (deliverRow d t s)) (h : Arrives s d t y) (hs : cellStalled y t.dest.toNat = false)
    (ha : cellAction (ctxOf s) t y = some (z, ts)) (hz : CellBecomes t.dest.toNat e (dieOf s d) z)
    (hP : ∀ u, getCell (dieOf u d) t.dest.toNat = e → OtherCells t.dest.toNat d s u → (∀ q ∈ ts, Flies u d q) → P u) : Answers cmd s P := by
  obtain ⟨hcells, hflies⟩ := deliverRow_reads t h.1
  rw [deliver_acts h hs ha] at hcells hflies
  have hcell : ∀ m, getCell (dieOf (deliverRow d t s) d) m = getCell z m := fun m => (hcells m).trans (getCell_emitFrom _ _ _ _)
  exact ⟨_, hx, hP _ ((hcell _).trans hz.1) (fun m hm => (hcell m).trans (hz.2 m hm)) fun q hq =>
    (hflies q).mpr (emitFrom_holds _ hq z).mem_tokensOf⟩

end Sys2Proof.Machine


/-!
PROOFS. Marks that a token clears and writes (02 Table 2.3, 03 Table 3.11).
-/

namespace Sys2Proof.Machine

/-! ## Records that differ in their marks -/

/-- The second record differs from the first at most in its marks; CHECK may have been recomputed. -/
def MarksOnly (c e : CellRec) : Prop :=
  e = { c with mark0 := e.mark0, mark1 := e.mark1, mark2 := e.mark2, mark3 := e.mark3, checkErr := e.checkErr }

theorem MarksOnly.refl (c : CellRec) : MarksOnly c c := rfl

theorem MarksOnly.trans {a b c : CellRec} (h : MarksOnly a b) (k : MarksOnly b c) : MarksOnly a c := by
  unfold MarksOnly at *
  rw [k, h]

theorem MarksOnly.keeps {c e : CellRec} (h : MarksOnly c e) :
    e.lock = c.lock ∧ e.owned = c.owned ∧ e.foreign = c.foreign ∧ e.ownerRoute = c.ownerRoute ∧ e.occ = c.occ := by
  rw [h]
  exact ⟨rfl, rfl, rfl, rfl, rfl⟩

theorem putMark_marksOnly (p : Nat) (m : Half) (c : CellRec) : MarksOnly c (putMark p m c) := by
  match p with
  | 0 | 1 | 2 | _ + 3 => rfl

theorem marksOnly_foldl {α : Type} {f : CellRec → α → CellRec} (h : ∀ c a, MarksOnly c (f c a)) (l : List α) (c : CellRec) :
    MarksOnly c (l.foldl f c) :=
  List.foldlRecOn _ _ (MarksOnly.refl c) fun _ he a _ => he.trans (h _ a)

/-! ## Clearing marks -/

/-- The record after the mark on port `p` has been cleared, where `P` holds of it. -/
def clearWhereAt (P : Half → Bool) (c : CellRec) (p : Nat) : CellRec := if P (markOf c p) then putMark p 0 c else c

/-- The record after every mark that meets `P` has been cleared. -/
def clearWhere (P : Half → Bool) (c : CellRec) : CellRec := (numsFrom 0 4).foldl (clearWhereAt P) c

theorem clearMarks_eq_clearWhere (fg : Bool) (r : BitVec 13) (c : CellRec) : clearMarks fg r c = clearWhere (markOfRoute fg r) c := rfl

theorem clearMarksKind_eq_clearWhere (fg : Bool) (r : BitVec 13) (k : BitVec 2) (c : CellRec) :
    clearMarksKind fg r k c = clearWhere (fun m => markOfRoute fg r m && decide (markKind m = k)) c := rfl

theorem clearWhere_marksOnly (P : Half → Bool) (c : CellRec) : MarksOnly c (clearWhere P c) := by
  refine marksOnly_foldl (fun e p => ?_) _ c
  unfold clearWhereAt
  split
  · exact putMark_marksOnly p 0 e
  · exact MarksOnly.refl e

theorem clearMarks_marksOnly (fg : Bool) (r : BitVec 13) (c : CellRec) : MarksOnly c (clearMarks fg r c) := by
  rw [clearMarks_eq_clearWhere]
  exact clearWhere_marksOnly _ c

theorem markOf_clearWhereAt (P : Half → Bool) (c : CellRec) {p q : Nat} (hp : p < 4) (hq : q < 4) :
    markOf (clearWhereAt P c p) q = if p = q ∧ P (markOf c q) = true then 0 else markOf c q := by
  unfold clearWhereAt
  by_cases hpq : p = q
  · subst hpq
    split
    · rename_i h
      rw [markOf_putMark p p 0 c hp hp, if_pos rfl, if_pos ⟨rfl, h⟩]
    · rename_i h
      rw [if_neg fun hc => h hc.2]
  · have hno : ¬ (p = q ∧ P (markOf c q) = true) := fun hc => hpq hc.1
    rw [if_neg hno]
    split
    · exact (markOf_putMark p q 0 c hp hq).trans (if_neg hpq)
    · rfl

/-- Each port loses the mark that meets `P`, and keeps any other. -/
theorem markOf_clearWhere (P : Half → Bool) (c : CellRec) {q : Nat} (hq : q < 4) :
    markOf (clearWhere P c) q = if P (markOf c q) then 0 else markOf c q := by
  have fold : ∀ (l : List Nat), (∀ p ∈ l, p < 4) → ∀ e,
      markOf (l.foldl (clearWhereAt P) e) q = if q ∈ l ∧ P (markOf e q) = true then 0 else markOf e q := by
    intro l
    induction l with
    | nil => exact fun _ e => by simp
    | cons p l ih =>
      intro hl e
      rw [List.foldl_cons, ih (fun a ha => hl a (List.mem_cons_of_mem p ha)), markOf_clearWhereAt P e (hl p List.mem_cons_self) hq]
      by_cases hpq : q = p
      · subst hpq
        by_cases hP : P (markOf e q) = true <;> simp [hP]
      · simp [hpq, Ne.symm hpq]
  rw [clearWhere, numsFrom_four, fold _ (by decide)]
  have hmem : q ∈ [0, 1, 2, 3] := by simp; omega
  simp [hmem]

theorem clearWhere_unused {P : Half → Bool} (hP : P 0 = false) : clearWhere P cellUnused = cellUnused := by
  refine List.foldlRecOn (motive := fun e => e = cellUnused) _ _ rfl fun e he p _ => ?_
  rw [he, clearWhereAt, markOf_unused, hP]
  rfl

/-! ## Marks of other routes (03 Table 3.11) -/

/-- The route whose mark this is: its side and its ID. -/
def routeOfMark (m : Half) : Bool × BitVec 13 := (decide (markKind m = kFOREIGN), markRoute m)

theorem markOfRoute_routeOfMark {m : Half} (h : markValid m = true) : markOfRoute (routeOfMark m).1 (routeOfMark m).2 m = true := by
  simp [markOfRoute, routeOfMark, h]

theorem mem_otherMarks {c : CellRec} {fg : Bool} {r : BitVec 13} {p : Nat} (hp : p < 4) (hv : markValid (markOf c p) = true)
    (ho : markOfRoute fg r (markOf c p) = false) : routeOfMark (markOf c p) ∈ otherMarks c fg r := by
  refine List.mem_map.mpr ⟨markOf c p, List.mem_filter.mpr ⟨List.mem_map.mpr ⟨p, mem_numsFrom.mpr ⟨Nat.zero_le p, by omega⟩, rfl⟩, ?_⟩, rfl⟩
  rw [hv, ho]
  rfl

/-- Once the marks of several routes have been cleared, a port shows none, or a mark of none of them that it showed before. -/
theorem markOf_foldl_clearMarks (os : List (Bool × BitVec 13)) (c : CellRec) {p : Nat} (hp : p < 4) :
    markOf (os.foldl (fun c o => clearMarks o.1 o.2 c) c) p = 0 ∨
      (markOf (os.foldl (fun c o => clearMarks o.1 o.2 c) c) p = markOf c p ∧ ∀ o ∈ os, markOfRoute o.1 o.2 (markOf c p) = false) := by
  induction os generalizing c with
  | nil => exact .inr ⟨rfl, fun _ h => absurd h List.not_mem_nil⟩
  | cons o os ih =>
    rw [List.foldl_cons]
    have hclear : markOf (clearMarks o.1 o.2 c) p = if markOfRoute o.1 o.2 (markOf c p) then 0 else markOf c p :=
      markOf_clearWhere _ c hp
    rcases ih (clearMarks o.1 o.2 c) with h | ⟨h, hos⟩
    · exact .inl h
    · rw [hclear] at h hos
      by_cases hm : markOfRoute o.1 o.2 (markOf c p) = true
      · exact .inl (h.trans (if_pos hm))
      · rw [if_neg hm] at h hos
        exact .inr ⟨h, List.forall_mem_cons.mpr ⟨Bool.eq_false_of_not_eq_true hm, hos⟩⟩

theorem foldl_clearMarks_marksOnly (os : List (Bool × BitVec 13)) (c : CellRec) :
    MarksOnly c (os.foldl (fun c o => clearMarks o.1 o.2 c) c) := by
  induction os generalizing c with
  | nil => exact MarksOnly.refl c
  | cons o os ih =>
    rw [List.foldl_cons]
    exact (clearMarks_marksOnly o.1 o.2 c).trans (ih _)

theorem ousted_fst (x : DieSt) (n : Nat) (fg : Bool) (r : BitVec 13) (c : CellRec) :
    (ousted x n fg r c).1 = (otherMarks c fg r).eraseDups.foldl (fun c o => clearMarks o.1 o.2 c) c := rfl

theorem ousted_marksOnly (x : DieSt) (n : Nat) (fg : Bool) (r : BitVec 13) (c : CellRec) : MarksOnly c (ousted x n fg r c).1 := by
  rw [ousted_fst]
  exact foldl_clearMarks_marksOnly _ c

/-- The marks that are left after the others have been overwritten are the route's own. -/
theorem ousted_marks (x : DieSt) (n : Nat) (fg : Bool) (r : BitVec 13) (c : CellRec) {p : Nat} (hp : p < 4)
    (hv : markValid (markOf (ousted x n fg r c).1 p) = true) : markOfRoute fg r (markOf (ousted x n fg r c).1 p) = true := by
  rw [ousted_fst] at hv ⊢
  rcases markOf_foldl_clearMarks (otherMarks c fg r).eraseDups c hp with h | ⟨h, hos⟩
  · rw [h] at hv
    exact absurd hv (by decide)
  · rw [h] at hv ⊢
    by_contra hm
    have hmem := mem_otherMarks hp hv (Bool.eq_false_of_not_eq_true hm)
    have hnot := hos _ (List.mem_eraseDups.mpr hmem)
    rw [markOfRoute_routeOfMark hv] at hnot
    cases hnot

/-- A mark of a token's KIND and route is one of its route. -/
theorem markOfRoute_mkMark (k : BitVec 2) (r : BitVec 13) : markOfRoute (decide (k = kFOREIGN)) r (mkMark k r) = true := by
  have hvalid : markValid (mkMark k r) = true := by
    unfold markValid mkMark bitOf
    rw [BitVec.getLsbD_append, BitVec.getLsbD_append]
    rfl
  have hkind : markKind (mkMark k r) = k := by
    unfold markKind mkMark
    rw [BitVec.extractLsb'_append_eq_of_le (by decide), BitVec.extractLsb'_append_eq_of_add_le (by decide), BitVec.extractLsb'_eq_self]
  have hroute : markRoute (mkMark k r) = r := by
    unfold markRoute mkMark
    rw [BitVec.extractLsb'_append_eq_of_add_le (by decide), BitVec.extractLsb'_eq_self]
  simp [markOfRoute, hvalid, hkind, hroute]

end Sys2Proof.Machine


/-!
PROOFS. PROBE at the cell that it reaches (03 R114, R115, Table 3.11): O17.
-/

namespace Sys2Proof.Machine

/-! ## The mark of a PROBE -/

theorem probeOusts_marksOnly (cx : Ctx) (x : DieSt) (n : Nat) (t : Token) (st : StepRec) (c : CellRec) :
    MarksOnly c (probeOusts cx x n t st c).1 := by
  unfold probeOusts
  split
  · split <;> exact MarksOnly.refl c
  · exact ousted_marksOnly x n _ _ c

/-- The record that a PROBE leaves where it is not refused. -/
def probeMarked (cx : Ctx) (x : DieSt) (n : Nat) (t : Token) (st : StepRec) (c : CellRec) : CellRec :=
  putMark t.dport.toNat (mkMark t.kind t.route) (probeOusts cx x n t st c).1

theorem probeMarked_keeps (cx : Ctx) (x : DieSt) (n : Nat) (t : Token) (st : StepRec) (c : CellRec) :
    markOf (probeMarked cx x n t st c) t.dport.toNat = mkMark t.kind t.route ∧ (probeMarked cx x n t st c).lock = c.lock ∧
      (probeMarked cx x n t st c).owned = c.owned := by
  have hp := t.dport.isLt
  have hmarks := (probeOusts_marksOnly cx x n t st c).trans (putMark_marksOnly t.dport.toNat (mkMark t.kind t.route) _)
  exact ⟨(markOf_putMark _ _ _ _ hp hp).trans (if_pos rfl), hmarks.keeps.1, hmarks.keeps.2.1⟩

/-- On a cell outside the rows whose action is Mark alone no mark of another route is left. -/
theorem probeMarked_marks {cx : Ctx} {x : DieSt} {n : Nat} {t : Token} {st : StepRec} {c : CellRec} (h : markOnly x t st c = false) {p : Nat}
    (hp : p < 4) (hv : markValid (markOf (probeMarked cx x n t st c) p) = true) :
    markOfRoute (isForeign t) t.route (markOf (probeMarked cx x n t st c) p) = true := by
  have hmark : markOf (probeMarked cx x n t st c) p =
      if t.dport.toNat = p then mkMark t.kind t.route else markOf (ousted x n (isForeign t) t.route c).1 p := by
    unfold probeMarked probeOusts
    rw [if_neg (by simp [h])]
    exact markOf_putMark _ _ _ _ t.dport.isLt hp
  rw [hmark] at hv ⊢
  split at hv
  · rename_i hq
    rw [if_pos hq]
    exact markOfRoute_mkMark t.kind t.route
  · rename_i hq
    rw [if_neg hq]
    exact ousted_marks x n _ _ c hp hv

/-! ## The rows of Table 3.11 -/

/-- The tokens that a marking PROBE makes its cell emit: NACKs to the routes it ousts, the PROBE that goes on, and flank searches. -/
def probeTokens (cx : Ctx) (x : DieSt) (n : Nat) (t : Token) (st : StepRec) (c : CellRec) : List Token :=
  (probeOusts cx x n t st c).2 ++
    [forwardProbe x n t st (t.reason ||| (if isPointLike c && !inPos c st.pos then (if st.kind = 1 then 5 else 1) else 0))] ++
    (if st.kind = 0 && !st.noflank then (unusedLegs c st.pos t.dport.toNat).map (fun p => seekOut x n c t p 1 0) else [])

theorem forwardProbe_mem_probeTokens (cx : Ctx) (x : DieSt) (n : Nat) (t : Token) (st : StepRec) (c : CellRec) :
    forwardProbe x n t st (t.reason ||| (if isPointLike c && !inPos c st.pos then (if st.kind = 1 then 5 else 1) else 0)) ∈
      probeTokens cx x n t st c :=
  List.mem_append_left _ (List.mem_append_right _ (List.mem_singleton_self _))

/-- A point on the path sends a flank search through each unused leg (03 R120). -/
theorem seekOut_mem_probeTokens (cx : Ctx) (x : DieSt) (n : Nat) (t : Token) {st : StepRec} {c : CellRec} (hk : st.kind = 0)
    (hf : st.noflank = false) {p : Nat} (hp : p ∈ unusedLegs c st.pos t.dport.toNat) :
    seekOut x n c t p 1 0 ∈ probeTokens cx x n t st c := by
  refine List.mem_append_right _ ?_
  rw [if_pos (by simp [hk, hf])]
  exact List.mem_map.mpr ⟨p, hp, rfl⟩

theorem probeAt_noStep {cx : Ctx} {n : Nat} {t : Token} {y z : DieSt} {c : CellRec} (h : ReadAs y n z c)
    (hf : findStep z (isForeign t) t.route n t.alt = none) : probeAt cx n t y = (z, [replyTok z n t tyNACK rnTOPOLOGY]) := by
  obtain ⟨rfl, rfl, hcls⟩ := h
  simp [probeAt, hcls, hf]

theorem probeAt_step {cx : Ctx} {n : Nat} {t : Token} {y z : DieSt} {c : CellRec} {st : StepRec} (h : ReadAs y n z c)
    (hf : findStep z (isForeign t) t.route n t.alt = some st) :
    probeAt cx n t y =
      if !topologyOk c st t.dport then (z, [replyTok z n t tyNACK rnTOPOLOGY])
      else if isCls .boundary c then (z, [replyTok z n t tyHOLD (t.reason ||| 2)])
      else if st.exit && !isCls .lineBlock c then (z, [forwardProbe z n t st t.reason])
      else (probeRefusal cx z n t st c).elim (setCell z n (probeMarked cx z n t st c), probeTokens cx z n t st c)
        (fun r => (z, [replyTok z n t tyNACK r])) := by
  obtain ⟨rfl, rfl, hcls⟩ := h
  unfold probeAt
  simp only [hcls, hf, Bool.false_eq_true, if_false]
  cases probeRefusal cx (modCell y n fabricRead) n t st (getCell (modCell y n fabricRead) n) <;> rfl

/-- Where the walk goes on from an entry (03 R114): HOLD to the entrance, or PROBE to the next entry. -/
theorem forwardProbe_goesOn (z : DieSt) (n : Nat) (t : Token) (st : StepRec) (flags : BitVec 8) (ht : t.typ = 1) :
    (st.next = none → forwardProbe z n t st flags = replyTok z n t 2 flags) ∧
      ∀ m p pos, st.next = some (m, p, pos) →
        (forwardProbe z n t st flags).typ = 1 ∧ (forwardProbe z n t st flags).route = t.route ∧
          (forwardProbe z n t st flags).dest = BitVec.ofNat 12 m ∧ (forwardProbe z n t st flags).dport = p ∧
          (forwardProbe z n t st flags).pos = pos ∧ (forwardProbe z n t st flags).reason = flags := by
  unfold forwardProbe
  refine ⟨fun h => by rw [h]; rfl, fun m p pos h => ?_⟩
  rw [h]
  exact ⟨ht, rfl, rfl, rfl, rfl, rfl⟩

/-! ## The row -/

theorem exec_probe {d : Die} {t : Token} {s : State} (ht : t.typ = 1) : exec (.probe d t) s = .next (deliverRow d t s) :=
  congrArg Host.Outcome.next (if_pos ht)

theorem cellAction_probe {t : Token} (ht : t.typ = 1) (cx : Ctx) (y : DieSt) : cellAction cx t y = some (probeAt cx t.dest.toNat t y) :=
  if_pos ht

/-- Settles O17: a PROBE acts as one row of Table 3.11 (`probeAt_step`), and what it marks is `probeMarked`. -/
theorem probeMarksOrRefuses : Obligations.ProbeMarksOrRefuses := by
  intro s d t y harr ht hsound n cx c z moves keeps goesOn
  have hx := exec_probe (d := d) (s := s) ht
  have hact := cellAction_probe ht cx y
  have hz : CellBecomes n c (dieOf s d) z := harr.fabricRead_sound hsound
  have hread : ReadAs y n z c := harr.readAs hsound
  refine ⟨fun hs => ?_, fun hs => ?_⟩
  · -- a stalled cell
    obtain ⟨hcells, hflies⟩ := deliverRow_reads t harr.1
    rw [deliver_stalled harr hs hact] at hcells hflies
    refine ⟨_, hx, (hflies t).mpr ?_, fun m => (hcells m).trans (by unfold getCell; rw [carry_only])⟩
    obtain ⟨f, hf, hft⟩ := List.any_eq_true.mp harr.2.2.1
    exact List.mem_append_right _ (List.mem_map.mpr ⟨f, hf, by rw [of_decide_eq_true hft]⟩)
  -- an answer that leaves the cell as it is
  have hkeeps : ∀ q, probeAt cx n t y = (z, [q]) → keeps q := fun q hq =>
    answers_of_action hx harr hs (hact.trans (congrArg some hq)) hz fun u hc ho hfl => ⟨hc, ho, hfl q (List.mem_singleton_self q)⟩
  -- the walk goes on
  have hgoes : ∀ st flags u, Flies u d (forwardProbe z n t st flags) → goesOn st flags u := fun st flags u hfl => by
    obtain ⟨hend, hnext⟩ := forwardProbe_goesOn z n t st flags ht
    exact ⟨fun h => hend h ▸ hfl, fun m p pos h => ⟨_, hfl, hnext m p pos h⟩⟩
  refine ⟨fun hf => hkeeps _ (probeAt_noStep hread hf), fun st hf => ?_⟩
  have hrow := probeAt_step (cx := cx) hread hf
  refine ⟨fun htop => ?_, fun htop => ?_⟩
  · exact hkeeps _ (hrow.trans (if_pos (by simp [htop])))
  replace hrow := hrow.trans (if_neg (by simp [htop]))
  refine ⟨fun hb => ?_, fun hb hexit hline => ?_, fun hb hpath => ?_⟩
  · exact hkeeps _ (hrow.trans (if_pos hb))
  · replace hrow := (hrow.trans (if_neg (by simp [hb]))).trans (if_pos (by simp [hexit, hline]))
    exact answers_of_action hx harr hs (hact.trans (congrArg some hrow)) hz fun u hc ho hfl =>
      ⟨hc, ho, hgoes st t.reason u (hfl _ (List.mem_singleton_self _))⟩
  · replace hrow := (hrow.trans (if_neg (by simp [hb]))).trans (if_neg (by rcases hpath with h | h <;> simp [h]))
    refine ⟨fun reason hr => ?_, fun hr => ?_⟩
    · rw [hr] at hrow
      exact hkeeps _ hrow
    · rw [hr] at hrow
      refine answers_of_action hx harr hs (hact.trans (congrArg some hrow)) (hz.setCell (probeMarked cx z n t st c)) fun u hc ho hfl => ?_
      obtain ⟨hmark, hlock, howned⟩ := probeMarked_keeps cx z n t st c
      rw [← hc] at hmark hlock howned
      refine ⟨hmark, hlock, howned, ho, fun hm p hp hv => ?_, ?_, fun hk hleg p hp => ?_⟩
      · rw [hc] at hv ⊢
        exact probeMarked_marks hm hp hv
      · exact hgoes st _ u (hfl _ (forwardProbe_mem_probeTokens cx z n t st c))
      · exact hfl _ (seekOut_mem_probeTokens cx z n t hk hleg hp)

end Sys2Proof.Machine


/-!
PROOFS. FLANK_SEEK at the cell that it reaches (03 R121, R523, Table 3.12): O18.
-/

namespace Sys2Proof.Machine

/-! ## The call that a lock writes (03 R127) -/

/-- The second record differs from the first at most in its command, its faults and T0. -/
def CallOnly (c e : CellRec) : Prop :=
  e = { c with cmd := e.cmd, fault := e.fault, t0 := e.t0, checkErr := e.checkErr } ∧ (c.checkErr = 0 → e.checkErr = 0)

theorem CallOnly.refl (c : CellRec) : CallOnly c c := ⟨rfl, id⟩

theorem CallOnly.trans {a b c : CellRec} (h : CallOnly a b) (k : CallOnly b c) : CallOnly a c := by
  obtain ⟨h, hcheck⟩ := h
  obtain ⟨k, kcheck⟩ := k
  exact ⟨by rw [k, h], fun hc => kcheck (hcheck hc)⟩

theorem CallOnly.keeps {c e : CellRec} (h : CallOnly c e) :
    e.lock = c.lock ∧ e.owned = c.owned ∧ e.foreign = c.foreign ∧ e.ownerRoute = c.ownerRoute ∧ ∀ p, markOf e p = markOf c p := by
  rw [h.1]
  exact ⟨rfl, rfl, rfl, rfl, fun p => by unfold markOf; rfl⟩

theorem addFault_callOnly (n : Nat) (c : CellRec) : CallOnly c (addFault n c) := ⟨rfl, fun _ => rfl⟩

theorem addFaultIf_callOnly (b : Bool) (n : Nat) (c : CellRec) : CallOnly c (addFaultIf b n c) := by
  unfold addFaultIf
  split
  · exact addFault_callOnly n c
  · exact CallOnly.refl c

theorem putCmd_callOnly (v : Half) (c : CellRec) : CallOnly c (putCoded .cmd v c) := ⟨rfl, fun _ => rfl⟩

theorem putT0_callOnly (t : Timer) (c : CellRec) : CallOnly c (putTimer 0 t c) := ⟨rfl, fun _ => rfl⟩

theorem callTimeout_callOnly (c : CellRec) : CallOnly c (callTimeout c) := by
  unfold callTimeout
  split
  · exact (putCmd_callOnly _ c).trans (addFault_callOnly _ _)
  · exact CallOnly.refl c

theorem writeCmdCode_callOnly (pr : CellProf) (v : Half) (c : CellRec) : CallOnly c (writeCmdCode pr v c) := by
  have hput := putCmd_callOnly v c
  unfold writeCmdCode
  dsimp only
  split
  · split
    · split
      · exact hput
      · exact ((hput.trans (putT0_callOnly _ _)).trans (addFaultIf_callOnly _ _ _)).trans (callTimeout_callOnly _)
    · split
      · exact hput
      · exact hput.trans (putT0_callOnly _ _)
  · split
    · exact ((hput.trans (putT0_callOnly _ _)).trans (addFaultIf_callOnly _ _ _)).trans (addFaultIf_callOnly _ _ _)
    · exact hput

theorem lockCall_callOnly (cx : Ctx) (x : DieSt) (pos : BitVec 2) (c : CellRec) : CallOnly c (lockCall cx x pos c) := by
  unfold lockCall
  dsimp only
  split
  · split
    · exact writeCmdCode_callOnly _ _ c
    · generalize (if pos = 1 then cmdNORMAL else cmdREVERSE) = v
      split
      · exact (putCmd_callOnly _ c).trans (writeCmdCode_callOnly _ _ _)
      · exact writeCmdCode_callOnly _ _ c
  · exact CallOnly.refl c

/-! ## The rows of Table 3.12 -/

/-- Fork depth of a search (03 Table 3.12). -/
def seekDepth (t : Token) : BitVec 8 := (t.reason.extractLsb' 0 3).setWidth 8

/-- FLANK_FOUND of a cell that protects: its depth, whether it must be called, and that it is marked. -/
def seekLit (t : Token) (call : Bool) : BitVec 8 := seekDepth t ||| (if call then 0x80 else 0) ||| 0x40

/-- The record that a FREE cell takes as flank protection in REFRESH. -/
def flankLocked (cx : Ctx) (x : DieSt) (n : Nat) (t : Token) (c : CellRec) (away : BitVec 2) : CellRec :=
  lockCall cx x away (putMark t.dport.toNat (flankMark (isForeign t) t.route)
    (ownCell (isForeign t) (moduleOf x (isForeign t) t.route) t.route lockFLANK (ousted x n (isForeign t) t.route c).1))

/-- The record that a FREE cell takes as flank protection in the other waves. -/
def flankMarked (x : DieSt) (n : Nat) (t : Token) (c : CellRec) : CellRec :=
  putMark t.dport.toNat (flankMark (isForeign t) t.route) (ousted x n (isForeign t) t.route c).1

/-- What a cell that can protect does. -/
def seekProtect (cx : Ctx) (x : DieSt) (n : Nat) (t : Token) (c : CellRec) (call : Bool) (away : BitVec 2) : DieSt × List Token :=
  let nacks := (ousted x n (isForeign t) t.route c).2
  if x.wave = .refresh then
    if c.lock = lockFREE then (setCell x n (flankLocked cx x n t c away), nacks ++ [replyTok x n t tyFOUND (seekLit t call)])
    else (setCell x n (putMark t.dport.toNat (flankMark (isForeign t) t.route) c), [replyTok x n t tyFOUND (seekDepth t ||| 0x40)])
  else if c.lock ≠ lockFREE then (x, [replyTok x n t tyFOUND (seekDepth t)])
  else if barred cx x (isForeign t) t.route c then (x, [replyTok x n t tyNONE rnCONFLICT])
  else (setCell x n (flankMarked x n t c), nacks ++ [replyTok x n t tyFOUND (seekLit t call)])

section Seek

variable {cx : Ctx} {n : Nat} {t : Token} {y z : DieSt} {c : CellRec}

theorem seekAt_start (h : ReadAs y n z c) (h0 : t.hop = 0) :
    seekAt cx n t y = (z, [seekOut z n c t t.dport.toNat 1 (seekDepth t).toNat]) := by
  obtain ⟨rfl, rfl, hcls⟩ := h
  have hdepth : (seekDepth t).toNat = (t.reason.extractLsb' 0 3).toNat := BitVec.toNat_setWidth_of_le (by decide)
  simp [seekAt, hcls, h0, hdepth]

/-- A search that has left its start cell acts as its result of Table 3.12 says. -/
theorem seekAt_res (h : ReadAs y n z c) (h0 : t.hop ≠ 0) {res : SeekRes}
    (hr : seekRes z n c t (stopEntry cx z (isForeign t) t.route n t.dport.toNat) = res) :
    (∀ r, res = .fail r → seekAt cx n t y = (z, [replyTok z n t tyNONE r])) ∧
    (res = .found → seekAt cx n t y = (z, [replyTok z n t tyFOUND (seekDepth t)])) ∧
    (∀ qs, res = .onward qs → seekAt cx n t y = (z, qs.map (fun q => seekOut z n c t q.1 (t.hop.toNat + 1) q.2))) ∧
    (∀ call away, res = .mark call away → seekAt cx n t y = seekProtect cx z n t c call away) := by
  obtain ⟨rfl, rfl, hcls⟩ := h
  have hdepth : BitVec.ofNat 8 (t.reason.extractLsb' 0 3).toNat = seekDepth t := BitVec.ofNat_toNat _ _
  unfold seekAt
  simp only [hcls, h0, hr, hdepth, Bool.false_eq_true, if_false]
  refine ⟨?_, ?_, ?_, ?_⟩
  · rintro r rfl
    rfl
  · rintro rfl
    rfl
  · rintro qs rfl
    rfl
  · rintro call away rfl
    rfl

end Seek

/-! ## The FLANK mark -/

theorem flankMarked_keeps (x : DieSt) (n : Nat) (t : Token) (c : CellRec) :
    markOf (flankMarked x n t c) t.dport.toNat = flankMark (isForeign t) t.route ∧ (flankMarked x n t c).lock = c.lock :=
  ⟨(markOf_putMark _ _ _ _ t.dport.isLt t.dport.isLt).trans (if_pos rfl),
    ((ousted_marksOnly x n (isForeign t) t.route c).trans (putMark_marksOnly _ _ _)).keeps.1⟩

theorem flankLocked_owned (cx : Ctx) (x : DieSt) (n : Nat) (t : Token) (c : CellRec) (away : BitVec 2) :
    let e := flankLocked cx x n t c away
    markOf e t.dport.toNat = flankMark (isForeign t) t.route ∧ e.lock = lockFLANK ∧ e.owned = true ∧ e.foreign = isForeign t ∧
      e.ownerRoute = t.route := by
  intro e
  obtain ⟨hlock, howned, hforeign, howner, hmark⟩ := (lockCall_callOnly cx x away (putMark t.dport.toNat (flankMark (isForeign t) t.route)
    (ownCell (isForeign t) (moduleOf x (isForeign t) t.route) t.route lockFLANK (ousted x n (isForeign t) t.route c).1))).keeps
  obtain ⟨klock, kowned, kforeign, kowner, -⟩ := (putMark_marksOnly t.dport.toNat (flankMark (isForeign t) t.route)
    (ownCell (isForeign t) (moduleOf x (isForeign t) t.route) t.route lockFLANK (ousted x n (isForeign t) t.route c).1)).keeps
  exact ⟨(hmark _).trans ((markOf_putMark _ _ _ _ t.dport.isLt t.dport.isLt).trans (if_pos rfl)), hlock.trans klock, howned.trans kowned,
    hforeign.trans kforeign, howner.trans kowner⟩

/-- A search that leaves through a TRACK port is a FLANK_SEEK to the neighbour (03 R121). -/
theorem seekOut_track {c : CellRec} {p : Nat} (h : adjLink (portOf c p) = 1) (x : DieSt) (n : Nat) (t : Token) (hop depth : Nat) :
    let q := seekOut x n c t p hop depth
    q.typ = 6 ∧ q.dest = BitVec.ofNat 12 (adjCell (portOf c p)) ∧ q.dport = BitVec.ofNat 2 (adjPort (portOf c p)) ∧
      q.hop = BitVec.ofNat 6 hop ∧ q.reason = BitVec.ofNat 8 depth := by
  intro q
  have hq : q = _ := if_pos h
  rw [hq]
  exact ⟨rfl, rfl, rfl, rfl, rfl⟩

/-! ## The row -/

theorem exec_flankSeek {d : Die} {t : Token} {s : State} (ht : t.typ = 6) : exec (.flankSeek d t) s = .next (deliverRow d t s) :=
  congrArg Host.Outcome.next (if_pos ht)

theorem cellAction_flankSeek {t : Token} (ht : t.typ = 6) (cx : Ctx) (y : DieSt) :
    cellAction cx t y = some (seekAt cx t.dest.toNat t y) := by
  simp [cellAction, ht, tyPROBE, tyCOMMIT, tySEEK, destCell]

/-- Settles O18: a search acts as its result of Table 3.12 says (`seekAt_res`), and a cell that protects takes the mark (`flankMarked_keeps`,
`flankLocked_owned`). -/
theorem flankSeekAnswersOrGoesOn : Obligations.FlankSeekAnswersOrGoesOn := by
  intro s d t y harr ht hsound hs n cx c z depth res keeps
  have hx := exec_flankSeek (d := d) (s := s) ht
  have hact := cellAction_flankSeek ht cx y
  have hz : CellBecomes n c (dieOf s d) z := harr.fabricRead_sound hsound
  have hread : ReadAs y n z c := harr.readAs hsound
  -- an answer that leaves the cell as it is
  have hkeeps : ∀ q, seekAt cx n t y = (z, [q]) → keeps q := fun q hq =>
    answers_of_action hx harr hs (hact.trans (congrArg some hq)) hz fun u hc ho hfl => ⟨hc, ho, hfl q (List.mem_singleton_self q)⟩
  refine ⟨fun h0 => hkeeps _ (seekAt_start hread h0), fun h0 => ?_⟩
  obtain ⟨hfail, hfound, honward, hmark⟩ := seekAt_res hread h0 (res := res) rfl
  refine ⟨fun h => hkeeps _ (hfound h), fun reason h => hkeeps _ (hfail reason h), fun qs h => ?_, fun call away h => ?_⟩
  · refine answers_of_action hx harr hs (hact.trans (congrArg some (honward qs h))) hz fun u hc ho hfl => ⟨hc, ho, fun p k hp hlink => ?_⟩
    exact ⟨_, hfl _ (List.mem_map.mpr ⟨(p, k), hp, rfl⟩), seekOut_track hlink z n t _ k⟩
  · have hrow := hmark call away h
    unfold seekProtect at hrow
    dsimp only at hrow
    refine ⟨fun hw hl => ?_, fun hw hl hb => ?_, fun hw hl hb => ?_, fun hw hl => ?_, fun hw hl => ?_⟩
    · exact hkeeps _ (hrow.trans ((if_neg hw).trans (if_pos hl)))
    · exact hkeeps _ (hrow.trans ((if_neg hw).trans ((if_neg (by simp [hl])).trans (if_pos hb))))
    · replace hrow := hrow.trans ((if_neg hw).trans ((if_neg (by simp [hl])).trans (if_neg (by simp [hb]))))
      refine answers_of_action hx harr hs (hact.trans (congrArg some hrow)) (hz.setCell (flankMarked z n t c)) fun u hc ho hfl => ?_
      obtain ⟨hm, hlock⟩ := flankMarked_keeps z n t c
      rw [← hc] at hm hlock
      exact ⟨hm, hlock.trans hl, ho, hfl _ (List.mem_append_right _ (List.mem_singleton_self _))⟩
    · replace hrow := hrow.trans ((if_pos hw).trans (if_neg hl))
      exact answers_of_action hx harr hs (hact.trans (congrArg some hrow)) (hz.setCell _) fun u hc ho hfl =>
        ⟨hc, ho, hfl _ (List.mem_singleton_self _)⟩
    · replace hrow := hrow.trans ((if_pos hw).trans (if_pos hl))
      refine answers_of_action hx harr hs (hact.trans (congrArg some hrow)) (hz.setCell (flankLocked cx z n t c away)) fun u hc ho hfl => ?_
      obtain ⟨hm, hlock, howned, hforeign, howner⟩ := flankLocked_owned cx z n t c away
      rw [← hc] at hm hlock howned hforeign howner
      exact ⟨hm, hlock, howned, hforeign, howner, ho, hfl _ (List.mem_append_right _ (List.mem_singleton_self _))⟩

end Sys2Proof.Machine


/-!
PROOFS. COMMIT of a route (03 R126 to R128): O19.
-/

namespace Sys2Proof.Machine

/-! ## A die as a broadcast meets it (03 R109) -/

theorem Broadcasts.transport {s : State} {d : Die} {t : Token} {y : DieSt} (h : Broadcasts s d t y) : TransportOnly (dieOf s d) y := by
  obtain ⟨-, -, rest, -, rfl⟩ := h
  exact TransportOnly.trans (y := { dieOf s d with flights := rest }) rfl (unstall_only _ _)

theorem Broadcasts.deliver_eq {s : State} {d : Die} {t : Token} {y : DieSt} (h : Broadcasts s d t y) :
    deliver (ctxOf s) t (dieOf s d) = actBroadcast (ctxOf s) t y := by
  obtain ⟨-, hb, rest, hrest, rfl⟩ := h
  unfold deliver
  simp only [hb, hrest, if_true]

theorem TransportOnly.getCell_eq {x y : DieSt} (h : TransportOnly x y) (n : Nat) : getCell y n = getCell x n := by
  rw [h]
  rfl

theorem TransportOnly.regHalted_eq {x y : DieSt} (h : TransportOnly x y) (r : Nat) : regHalted y r = regHalted x r := by
  rw [h]
  rfl

theorem TransportOnly.findStep_eq {x y : DieSt} (h : TransportOnly x y) (fg : Bool) (r : BitVec 13) (n : Nat) (alt : BitVec 2) :
    findStep y fg r n alt = findStep x fg r n alt := by
  rw [h]
  rfl

/-! ## A cell that a broadcast COMMIT converts (03 R126) -/

theorem mem_marksOf {c : CellRec} {fg : Bool} {r : BitVec 13} {p : Nat} :
    p ∈ marksOf c fg r ↔ p < 4 ∧ markOfRoute fg r (markOf c p) = true := by
  unfold marksOf
  rw [List.mem_filter, mem_numsFrom]
  simp

/-- A mark that is to become a path lock: PATH of the route itself, FOREIGN on an entry of a proxy's path. -/
theorem convertTo_route {st : StepRec} {fg : Bool} {r : BitVec 13} {c : CellRec} {p : Nat} (hp : p < 4)
    (hm : markOfRoute fg r (markOf c p) = true) (hk : if fg then st.kind = 0 else markKind (markOf c p) = kPATH) :
    (convertTo (some st) fg c (marksOf c fg r)).1 = lockROUTE := by
  unfold convertTo
  cases fg with
  | true =>
    have hpath : st.kind = 0 := hk
    simp [hpath]
  | false =>
    have hpath : ((marksOf c false r).map (fun p => markKind (markOf c p))).contains kPATH = true := by
      rw [List.contains_iff_mem]
      exact List.mem_map.mpr ⟨p, mem_marksOf.mpr ⟨hp, hm⟩, hk⟩
    simp only [hpath, Bool.false_eq_true, if_false, if_true]

/-- A FREE cell with a mark of the route that is to become a path lock is locked by the route and answers LOCKED_ACK. -/
theorem commitCell_locks (cx : Ctx) {x : DieSt} {n : Nat} {t : Token} {c : CellRec} {st : StepRec} (hc : fabricRead c = c)
    (ho : c.owned = false) (hl : coded .lock c = lockFREE) (hf : findStep x (isForeign t) t.route n t.alt = some st)
    (hm : ∃ p, p < 4 ∧ markOfRoute (isForeign t) t.route (markOf c p) = true ∧
      if isForeign t then st.kind = 0 else markKind (markOf c p) = kPATH) :
    ∃ pos q, commitCell cx x n t c =
        (lockCall cx x pos (ownCell (isForeign t) (moduleOf x (isForeign t) t.route) t.route lockROUTE (clearMarks (isForeign t) t.route c)), [q]) ∧
      q.typ = 5 ∧ q.route = t.route ∧ q.origin = BitVec.ofNat 12 n := by
  obtain ⟨p, hp, hmark, hk⟩ := hm
  have hports : (marksOf c (isForeign t) t.route).isEmpty = false := by
    rw [List.isEmpty_eq_false_iff]
    exact List.ne_nil_of_mem (mem_marksOf.mpr ⟨hp, hmark⟩)
  have hlock : lockedBy c (isForeign t) t.route = false := by simp [lockedBy, ho]
  have htake : takeoverOf x (isForeign t) t.route c = false := by simp [takeoverOf, ho]
  have hfree : lockFREE ≠ lockBLOCKED ∧ lockFREE ≠ lockUNKNOWN := by decide
  unfold commitCell
  simp only [hc, hports, hf, hl, hlock, htake, ho, hfree, convertTo_route hp hmark hk, Bool.false_eq_true, if_false, Bool.false_and,
    Bool.or_self]
  exact ⟨_, _, rfl, rfl, rfl, rfl⟩

/-- The lock of a COMMIT: owned by the route, with none of its marks left. -/
theorem routeLocked_owned (cx : Ctx) (x : DieSt) (pos : BitVec 2) (fg : Bool) (m : BitVec 6) (r : BitVec 13) (lk : Half) (c : CellRec) :
    let e := lockCall cx x pos (ownCell fg m r lk (clearMarks fg r c))
    e.lock = lk ∧ e.owned = true ∧ e.foreign = fg ∧ e.ownerRoute = r ∧ e.checkErr = 0 ∧
      ∀ p, p < 4 → markOfRoute fg r (markOf e p) = false := by
  intro e
  have hcall := lockCall_callOnly cx x pos (ownCell fg m r lk (clearMarks fg r c))
  obtain ⟨hlock, howned, hforeign, howner, hmark⟩ := hcall.keeps
  refine ⟨hlock, howned, hforeign, howner, hcall.2 rfl, fun p hp => ?_⟩
  have hown : markOf (ownCell fg m r lk (clearMarks fg r c)) p = markOf (clearMarks fg r c) p := by
    unfold markOf
    rfl
  rw [hmark p, hown]
  exact clearMarks_unmarked fg r c hp

/-! ## Every cell of the die in turn -/

theorem nodup_eraseDups {α : Type} [BEq α] [LawfulBEq α] : ∀ l : List α, l.eraseDups.Nodup
  | [] => by simp
  | a :: l => by
    rw [List.eraseDups_cons, List.nodup_cons]
    refine ⟨fun h => ?_, nodup_eraseDups (l.filter fun b => !b == a)⟩
    simp [List.mem_eraseDups] at h
termination_by l => l.length
decreasing_by
  have := List.length_filter_le (fun b => !b == a) l
  simp
  omega

/-- What a broadcast COMMIT does at one cell. -/
def commitStep (cx : Ctx) (t : Token) (q : DieSt × Nat) (n : Nat) : DieSt × Nat :=
  if regHalted q.1 (regionOf n) then q
  else
    let r := commitCell cx q.1 n t (getCell q.1 n)
    (emitFrom n r.2 (setCell q.1 n r.1), q.2 + r.2.length)

theorem broadcastCommit_eq (cx : Ctx) (t : Token) (x : DieSt) :
    broadcastCommit cx t x = (x.cells.map (·.1)).eraseDups.foldl (commitStep cx t) (x, 0) := rfl

/-- Seen from cell `n`, COMMIT has acted at other cells: cells and outboxes alone may differ, cell `n` stands, and what rested in an outbox
still does. -/
structure CommitsElsewhere (n : Nat) (x y : DieSt) : Prop where
  frame : y = { x with cells := y.cells, dirtyCells := y.dirtyCells, outboxes := y.outboxes }
  cell : getCell y n = getCell x n
  held : ∀ k q, HeldIn k q x → HeldIn k q y

theorem CommitsElsewhere.refl (n : Nat) (x : DieSt) : CommitsElsewhere n x x := ⟨rfl, rfl, fun _ _ => id⟩

theorem CommitsElsewhere.trans {n : Nat} {x y z : DieSt} (h : CommitsElsewhere n x y) (k : CommitsElsewhere n y z) : CommitsElsewhere n x z :=
  ⟨by rw [k.frame, h.frame], k.cell.trans h.cell, fun i q hq => k.held i q (h.held i q hq)⟩

theorem commitStep_elsewhere (cx : Ctx) (t : Token) (q : DieSt × Nat) {m n : Nat} (h : m ≠ n) :
    CommitsElsewhere n q.1 (commitStep cx t q m).1 := by
  unfold commitStep
  split
  · exact .refl n q.1
  · refine ⟨?_, ?_, fun k p hp => HeldIn.emitFrom (x := setCell q.1 m _) hp m _⟩
    · dsimp only
      unfold emitFrom
      split <;> rfl
    · dsimp only
      rw [getCell_emitFrom, getCell_setCell, if_neg h]

theorem foldl_commitStep_elsewhere (cx : Ctx) (t : Token) {n : Nat} {l : List Nat} (hl : n ∉ l) (q : DieSt × Nat) :
    CommitsElsewhere n q.1 (l.foldl (commitStep cx t) q).1 :=
  List.foldlRecOn (motive := fun p : DieSt × Nat => CommitsElsewhere n q.1 p.1) l _ (.refl n q.1) fun p hp _ hm =>
    hp.trans (commitStep_elsewhere cx t p fun h => hl (h ▸ hm))

/-- A cell has its turn once. -/
theorem foldl_commitStep_turn (cx : Ctx) (t : Token) {n : Nat} {l : List Nat} (hn : n ∈ l) (hl : l.Nodup) (q : DieSt × Nat) :
    ∃ a, CommitsElsewhere n q.1 a.1 ∧ CommitsElsewhere n (commitStep cx t a n).1 (l.foldl (commitStep cx t) q).1 := by
  obtain ⟨l1, l2, rfl⟩ := List.append_of_mem hn
  obtain ⟨-, htail, hapart⟩ := List.nodup_append.mp hl
  refine ⟨l1.foldl (commitStep cx t) q, foldl_commitStep_elsewhere cx t (fun h => hapart n h n List.mem_cons_self rfl) q, ?_⟩
  rw [List.foldl_append, List.foldl_cons]
  exact foldl_commitStep_elsewhere cx t (List.nodup_cons.mp htail).1 _

/-- A live cell is listed. -/
theorem mem_cells_of_isLive {x : DieSt} {n : Nat} (h : isLive (getCell x n) = true) : n ∈ x.cells.map (·.1) := by
  have hne : getCell x n ≠ cellUnused := fun hu => by
    rw [hu] at h
    exact absurd h (by decide)
  exact List.mem_map.mpr ⟨(n, getCell x n), mem_of_getA_ne hne, rfl⟩

/-- At a cell of a region that runs, a broadcast COMMIT leaves what the cell makes of it, and its replies. -/
theorem broadcastCommit_cell (cx : Ctx) (t : Token) {x : DieSt} {n : Nat} (hl : isLive (getCell x n) = true)
    (hh : regHalted x (regionOf n) = false) :
    ∃ a, CommitsElsewhere n x a ∧ getCell (broadcastCommit cx t x).1 n = (commitCell cx a n t (getCell x n)).1 ∧
      ∀ q ∈ (commitCell cx a n t (getCell x n)).2, q ∈ tokensOf (broadcastCommit cx t x).1 := by
  obtain ⟨a, hbefore, hafter⟩ := foldl_commitStep_turn cx t (List.mem_eraseDups.mpr (mem_cells_of_isLive hl))
    (nodup_eraseDups (x.cells.map (·.1))) (x, 0)
  have hrun : regHalted a.1 (regionOf n) = false := by
    rw [hbefore.frame]
    exact hh
  have hstep : (commitStep cx t a n).1 =
      emitFrom n (commitCell cx a.1 n t (getCell x n)).2 (setCell a.1 n (commitCell cx a.1 n t (getCell x n)).1) := by
    unfold commitStep
    rw [if_neg (by simp [hrun]), hbefore.cell]
  rw [← broadcastCommit_eq, hstep] at hafter
  refine ⟨a.1, hbefore, ?_, fun q hq => (hafter.held _ q (emitFrom_holds n hq _)).mem_tokensOf⟩
  rw [hafter.cell, getCell_emitFrom, getCell_setCell, if_pos rfl]

/-! ## What a broadcast does to the route's engine -/

theorem actBroadcast_commit (cx : Ctx) {t : Token} (ht : t.typ = 4) (y : DieSt) :
    (∀ n, getCell (actBroadcast cx t y) n = getCell (broadcastCommit cx t y).1 n) ∧
      tokensOf (actBroadcast cx t y) = tokensOf (broadcastCommit cx t y).1 := by
  unfold actBroadcast
  simp only [ht, tyCOMMIT, if_true]
  cases tokRoute (broadcastCommit cx t y).1 t with
  | none => exact ⟨fun _ => rfl, rfl⟩
  | some i => exact ⟨fun _ => rfl, rfl⟩

/-! ## An addressed COMMIT (03 R128) -/

theorem refreshAt_query {n : Nat} {t : Token} {y z : DieSt} {c : CellRec} (h : ReadAs y n z c) (hq : t.hop = hopQuery) :
    refreshAt n t y = (z, [replyTok z n t tyACK (ackReason z n c 0 topHELD)]) := by
  obtain ⟨rfl, rfl, -⟩ := h
  exact if_pos hq

/-- The record of a free shared cell that a set route takes back. -/
def sharedTaken (x : DieSt) (t : Token) (c : CellRec) : CellRec :=
  ownCell (isForeign t) (moduleOf x (isForeign t) t.route) t.route (if t.kind = kOVERLAP then lockOVERLAP else lockROUTE) c

theorem refreshAt_held {n : Nat} {t : Token} {y z : DieSt} {c : CellRec} (h : ReadAs y n z c) (hq : t.hop ≠ hopQuery) :
    (sharedCls c = false ∨ coded .lock c ≠ lockFREE →
      refreshAt n t y = (setCell z n c, [replyTok z n t tyACK (ackReason z n c t.pos (ackTop z c (isForeign t) t.route))])) ∧
    (sharedCls c = true → coded .lock c = lockFREE →
      refreshAt n t y = (setCell z n (sharedTaken z t c), [replyTok z n t tyACK (ackReason z n (sharedTaken z t c) t.pos topHELD)])) := by
  obtain ⟨rfl, rfl, -⟩ := h
  unfold refreshAt
  dsimp only
  rw [if_neg hq]
  refine ⟨fun hs => ?_, fun hs hl => ?_⟩
  · rw [if_neg (by rcases hs with hs | hs <;> simp [hs])]
  · have htop : ∀ x, ackTop x (sharedTaken (modCell y n fabricRead) t (getCell (modCell y n fabricRead) n)) (isForeign t) t.route = topHELD :=
      fun x => if_pos (by simp [lockedBy, sharedTaken, ownCell])
    rw [if_pos (by simp [hs, hl])]
    exact congrArg (fun top => (_, [replyTok _ n t tyACK (ackReason _ n _ t.pos top)])) (htop _)

/-! ## The row -/

theorem exec_commitToken {d : Die} {t : Token} {s : State} (ht : t.typ = 4) : exec (.commitToken d t) s = .next (deliverRow d t s) :=
  congrArg Host.Outcome.next (if_pos ht)

theorem cellAction_commit {t : Token} (ht : t.typ = 4) (cx : Ctx) (y : DieSt) : cellAction cx t y = some (refreshAt t.dest.toNat t y) := by
  simp [cellAction, ht, tyPROBE, tyCOMMIT, destCell]

/-- Settles O19: a broadcast COMMIT has its turn once at the cell (`broadcastCommit_cell`), which it locks (`commitCell_locks`); an addressed
one is a refresh or a query (`refreshAt_held`, `refreshAt_query`). -/
theorem broadcastCommitLocksMarkedCells : Obligations.BroadcastCommitLocksMarkedCells := by
  intro s d t y n st ht fg c
  have hx := exec_commitToken (d := d) (s := s) ht
  refine ⟨fun hbc hsound ho hl hm hf => ?_, ?_⟩
  · have htr := hbc.transport
    obtain ⟨hcells, hflies⟩ := deliverRow_reads t hbc.1
    obtain ⟨hcellsA, htoks⟩ := actBroadcast_commit (ctxOf s) ht y
    have hcell : getCell y n = c := htr.getCell_eq n
    obtain ⟨a, ha, hturn, hsent⟩ := broadcastCommit_cell (ctxOf s) t (x := y) (n := n) (by rw [hcell]; exact hsound.1)
      ((htr.regHalted_eq _).trans hsound.2.1)
    have hstep : findStep a fg t.route n t.alt = some st := by
      rw [ha.frame]
      exact (htr.findStep_eq _ _ _ _).trans hf
    obtain ⟨pos, q, hcommit, htyp, hroute, horigin⟩ := commitCell_locks (ctxOf s) hsound.2.2 ho hl hstep hm
    rw [hcell] at hturn hsent
    rw [hcommit] at hturn hsent
    have he : getCell (dieOf (deliverRow d t s) d) n = _ := (hcells n).trans ((congrArg (getCell · n) hbc.deliver_eq).trans ((hcellsA n).trans hturn))
    obtain ⟨hlock, howned, hforeign, howner, hcheck, hmarks⟩ := routeLocked_owned (ctxOf s) a pos fg (moduleOf a fg t.route) t.route lockROUTE c
    refine ⟨_, hx, ?_⟩
    dsimp only
    rw [he]
    refine ⟨hlock, howned, hforeign, howner, hcheck, hmarks, q, (hflies q).mpr ?_, htyp, hroute, horigin⟩
    rw [hbc.deliver_eq, htoks]
    exact hsent q (List.mem_singleton_self q)
  · rintro harr rfl hsound hs z
    have hact := cellAction_commit ht (ctxOf s) y
    have hz : CellBecomes t.dest.toNat c (dieOf s d) z := harr.fabricRead_sound hsound
    have hread : ReadAs y t.dest.toNat z c := harr.readAs hsound
    refine ⟨fun hq => ?_, fun hq hc => ?_, fun hq hc hl => ?_⟩
    · exact answers_of_action hx harr hs (hact.trans (congrArg some (refreshAt_query hread hq))) hz fun u hc ho hfl =>
        ⟨hc, ho, hfl _ (List.mem_singleton_self _)⟩
    · exact answers_of_action hx harr hs (hact.trans (congrArg some ((refreshAt_held hread hq).1 hc))) (hz.setCell c) fun u hc ho hfl =>
        ⟨hc, ho, hfl _ (List.mem_singleton_self _)⟩
    · refine answers_of_action hx harr hs (hact.trans (congrArg some ((refreshAt_held hread hq).2 hc hl))) (hz.setCell (sharedTaken z t c))
        fun u hu ho hfl => ?_
      dsimp only
      rw [hu]
      exact ⟨rfl, rfl, rfl, rfl, ho, hfl _ (List.mem_singleton_self _)⟩

end Sys2Proof.Machine


/-!
PROOFS. RELEASE and CANCEL of a route (03 R136, R137, 11 R343): O20.
-/

namespace Sys2Proof.Machine

/-! ## Broadcasts that act in every cell alike (03 R109) -/

theorem getCell_broadcastCells (x : DieSt) {f : CellRec → CellRec} (hf : f cellUnused = cellUnused) (n : Nat) :
    getCell (broadcastCells (fun _ c => f c) x) n = if regHalted x (regionOf n) then getCell x n else f (getCell x n) :=
  getCell_mapCells x (f := fun n c => if regHalted x (regionOf n) then c else f c) (by rw [hf, ite_self])

theorem getCell_afterCancel (cx : Ctx) (t : Token) (x : DieSt) (n : Nat) : getCell (afterCancel cx t x) n = getCell x n := by
  unfold afterCancel
  split
  · rfl
  · dsimp only
    split
    · rfl
    · split <;> rfl

/-- What a broadcast RELEASE does to a cell: all of the route's path and overlap locks with HOP 0x3F, else the overlap locks. -/
def releaseOf (t : Token) (c : CellRec) : CellRec :=
  if t.hop = hopAll then releaseCell (isForeign t) t.route true t.kind c else releaseCell false t.route false kOVERLAP c

theorem releaseCell_unused (fg : Bool) (r : BitVec 13) (all : Bool) (k : BitVec 2) : releaseCell fg r all k cellUnused = cellUnused := rfl

theorem actBroadcast_release (cx : Ctx) {t : Token} (ht : t.typ = 9) (y : DieSt) (n : Nat) :
    getCell (actBroadcast cx t y) n = if regHalted y (regionOf n) then getCell y n else releaseOf t (getCell y n) := by
  have hwork : ∀ (z : DieSt) (f : RouteWork → RouteWork), getCell (match tokRoute z t with
      | none => z
      | some i => modWork z i f) n = getCell z n := fun z f => by split <;> rfl
  unfold actBroadcast releaseOf
  simp only [ht, tyCOMMIT, tyRELEASE, BitVec.reduceEq, if_true, if_false]
  split
  · exact (hwork _ _).trans (getCell_broadcastCells y (releaseCell_unused _ _ _ _) n)
  · exact (hwork _ _).trans (getCell_broadcastCells y (releaseCell_unused _ _ _ _) n)

/-- A CANCEL clears the marks of its route and KIND, or of its route with HOP 0x3F or FOREIGN. -/
theorem cancelCell_eq (t : Token) (c : CellRec) :
    cancelCell t c = clearWhere (fun m => markOfRoute (isForeign t) t.route m &&
      (decide (t.hop = hopAll) || isForeign t || decide (markKind m = t.kind))) c := by
  unfold cancelCell
  by_cases hall : t.hop = hopAll
  · simp [hall, clearMarks_eq_clearWhere]
  · cases hfg : isForeign t with
    | true => simp [clearMarks_eq_clearWhere]
    | false => simp [hall, clearMarksKind_eq_clearWhere]

theorem cancelCell_unused (t : Token) : cancelCell t cellUnused = cellUnused := by
  rw [cancelCell_eq]
  exact clearWhere_unused (by rw [markOfRoute_zero]; rfl)

theorem actBroadcast_cancel (cx : Ctx) {t : Token} (ht : t.typ = 0xA) (y : DieSt) (n : Nat) :
    getCell (actBroadcast cx t y) n = if regHalted y (regionOf n) then getCell y n else cancelCell t (getCell y n) := by
  unfold actBroadcast
  simp only [ht, tyCOMMIT, tyRELEASE, BitVec.reduceEq, if_false]
  rw [getCell_afterCancel]
  exact getCell_broadcastCells y (cancelCell_unused t) n

/-- At a cell of a region that runs, the broadcast leaves what it makes of the cell. -/
theorem broadcast_getCell {s : State} {d : Die} {t : Token} {y : DieSt} {n : Nat} {f : CellRec → CellRec} (h : Broadcasts s d t y)
    (hh : regHalted (dieOf s d) (regionOf n) = false)
    (hf : getCell (actBroadcast (ctxOf s) t y) n = if regHalted y (regionOf n) then getCell y n else f (getCell y n)) :
    getCell (dieOf (deliverRow d t s) d) n = f (getCell (dieOf s d) n) := by
  have htr := h.transport
  rw [(deliverRow_reads t h.1).1 n, h.deliver_eq, hf, htr.regHalted_eq, hh, htr.getCell_eq]
  rfl

/-! ## What a RELEASE frees -/

/-- A freed cell: FREE, with its owner word 0 (02 R77). -/
theorem freeCell_freed (c : CellRec) :
    (freeCell c).lock = lockFREE ∧ (freeCell c).owned = false ∧ (freeCell c).foreign = false ∧ (freeCell c).ownerModule = 0 ∧
      (freeCell c).ownerRoute = 0 := ⟨rfl, rfl, rfl, rfl, rfl⟩

theorem releaseCell_frees {fg : Bool} {r : BitVec 13} {all : Bool} {k : BitVec 2} {c : CellRec} (hc : fabricRead c = c)
    (ho : lockedBy c fg r = true) (hl : (c.lock = lockROUTE ∧ (all = true ∨ k = kPATH)) ∨ (c.lock = lockOVERLAP ∧ (all = true ∨ k = kOVERLAP))) :
    releaseCell fg r all k c = freeCell c := by
  have hne : lockOVERLAP ≠ lockROUTE := by decide
  unfold releaseCell
  simp only [hc, ho, if_true]
  rcases hl with ⟨hl, hk⟩ | ⟨hl, hk⟩
  · rw [if_pos (by rcases hk with hk | hk <;> simp [hl, hk])]
  · rw [if_neg (by simp [hl, hne]), if_pos (by rcases hk with hk | hk <;> simp [hl, hk])]

theorem releaseCell_keeps {fg : Bool} {r : BitVec 13} {all : Bool} {k : BitVec 2} {c : CellRec} (hc : fabricRead c = c)
    (h : lockedBy c fg r = false ∨ ((c.lock ≠ lockROUTE ∨ (all = false ∧ k ≠ kPATH)) ∧ (c.lock ≠ lockOVERLAP ∨ (all = false ∧ k ≠ kOVERLAP)))) :
    releaseCell fg r all k c = c := by
  unfold releaseCell
  simp only [hc]
  rcases h with h | ⟨hroute, hovl⟩
  · rw [if_neg (by simp [h])]
  · split
    · rw [if_neg (by rcases hroute with h | ⟨h, h'⟩ <;> simp [*]), if_neg (by rcases hovl with h | ⟨h, h'⟩ <;> simp [*])]
    · rfl

/-- An addressed RELEASE answers, and frees its cell unless the route does not hold it or its condition bars it (03 R136). -/
theorem releaseAt_acts {n : Nat} {t : Token} {y z : DieSt} {c : CellRec} (h : ReadAs y n z c) :
    let freed := lockedBy c (isForeign t) t.route = true ∧ c.lock ≠ lockFLANK ∧ (bitOf t.reason 0 = false ∨ occSet c = false)
    ∃ q, (freed → releaseAt n t y = (setCell z n (freeCell c), [q])) ∧ (¬ freed → releaseAt n t y = (z, [q])) ∧
      q.typ = 5 ∧ q.route = t.route ∧ q.origin = BitVec.ofNat 12 n := by
  obtain ⟨rfl, rfl, -⟩ := h
  intro freed
  unfold releaseAt
  dsimp only
  split
  · rename_i hno
    refine ⟨_, fun hf => ?_, fun _ => rfl, rfl, rfl, rfl⟩
    obtain ⟨hown, hflank, -⟩ := hf
    simp [hown, hflank] at hno
  · split
    · rename_i hocc
      refine ⟨_, fun hf => ?_, fun _ => rfl, rfl, rfl, rfl⟩
      obtain ⟨-, -, hcond⟩ := hf
      rcases hcond with hcond | hcond <;> simp [hcond] at hocc
    · rename_i hown hocc
      refine ⟨_, fun _ => rfl, fun hf => absurd ?_ hf, rfl, rfl, rfl⟩
      simp only [Bool.or_eq_true, Bool.not_eq_true', decide_eq_true_eq, not_or, Bool.not_eq_false] at hown
      simp only [Bool.and_eq_true, not_and, Bool.not_eq_true] at hocc
      exact ⟨hown.1, hown.2, by cases hb : bitOf t.reason 0 <;> simp_all⟩

/-! ## The rows -/

theorem exec_releaseToken {d : Die} {t : Token} {s : State} (ht : t.typ = 9) : exec (.releaseToken d t) s = .next (deliverRow d t s) :=
  congrArg Host.Outcome.next (if_pos ht)

theorem exec_cancel {d : Die} {t : Token} {s : State} (ht : t.typ = 0xA) : exec (.cancel d t) s = .next (deliverRow d t s) :=
  congrArg Host.Outcome.next (if_pos ht)

theorem cellAction_release {t : Token} (ht : t.typ = 9) (cx : Ctx) (y : DieSt) : cellAction cx t y = some (releaseAt t.dest.toNat t y) := by
  simp [cellAction, ht, tyPROBE, tyCOMMIT, tySEEK, tyRELEASE, destCell]

/-- An addressed CANCEL acts at its cell, stalled or not. -/
theorem getCell_deliver_cancel {s : State} {d : Die} {t : Token} {y : DieSt} (h : Arrives s d t y) (ht : t.typ = 0xA) (m : Nat) :
    getCell (deliver (ctxOf s) t (dieOf s d)) m =
      if t.dest.toNat = m then cancelCell t (getCell (dieOf s d) t.dest.toNat) else getCell (dieOf s d) m := by
  have hget := h.getCell_eq
  obtain ⟨-, hb, harr, rfl⟩ := h
  have hact : deliver (ctxOf s) t (dieOf s d) =
      afterCancel (ctxOf s) t (modCell (broughtBy t (dieOf s d)) t.dest.toNat (cancelCell t)) := by
    unfold deliver
    simp only [hb, harr, Bool.false_eq_true, if_false, if_true]
    simp [actArrived, cellAction, arriveAction, ht, tyPROBE, tyCOMMIT, tySEEK, tyRELEASE, tyHOLD, tyNACK, tyACK, tyFOUND, tyNONE, tyCANCEL,
      broughtBy, destCell]
  rw [hact, getCell_afterCancel, getCell_modCell, hget, hget]

/-- Settles O20: a broadcast makes the same of every cell (`broadcast_getCell`): `releaseCell_frees` and `releaseCell_keeps` say what a
RELEASE frees, `cancelCell_eq` which marks a CANCEL clears; addressed ones act at their cell alone. -/
theorem broadcastsFreeTheirRouteOnly : Obligations.BroadcastsFreeTheirRouteOnly := by
  intro s d t y n fg c freed cancelled
  -- the marks that a CANCEL leaves
  have hcancel : ∀ u : State, getCell (dieOf u d) n = cancelCell t c → cancelled u := fun u hu => by
    have hmarks := clearWhere_marksOnly (fun m => markOfRoute fg t.route m && (decide (t.hop = hopAll) || fg || decide (markKind m = t.kind))) c
    rw [← cancelCell_eq] at hmarks
    obtain ⟨hlock, howned, -, howner, hocc⟩ := hmarks.keeps
    simp only [cancelled, hu]
    refine ⟨fun p hp => ?_, hlock, howned, howner, hocc⟩
    rw [cancelCell_eq, markOf_clearWhere _ c hp]
    simp [or_assoc, fg]
  refine ⟨fun hbc ht hsound => ⟨_, exec_releaseToken ht, ?_⟩, ?_, fun hbc ht hh => ⟨_, exec_cancel ht, ?_⟩, ?_⟩
  · have hcell : getCell (dieOf (deliverRow d t s) d) n = releaseOf t c :=
      broadcast_getCell hbc hsound.2.1 (actBroadcast_release _ ht y n)
    have hne : lockROUTE ≠ lockFLANK ∧ lockOVERLAP ≠ lockFLANK ∧ lockROUTE ≠ lockOVERLAP := by decide
    have hall : t.hop = hopAll → releaseOf t c = releaseCell fg t.route true t.kind c := fun h => if_pos h
    have hovl : t.hop ≠ hopAll → releaseOf t c = releaseCell false t.route false kOVERLAP c := fun h => if_neg h
    dsimp only
    rw [hcell]
    refine ⟨fun h ho hl => ?_, fun h ho hl => ?_, fun h hl => ?_, fun hl => ?_, fun h ho => ?_, fun h ho => ?_⟩
    · rw [hall h, releaseCell_frees hsound.2.2 ho (hl.imp (⟨·, .inl rfl⟩) (⟨·, .inl rfl⟩))]
      exact freeCell_freed c
    · rw [hovl h, releaseCell_frees hsound.2.2 ho (.inr ⟨hl, .inr rfl⟩)]
      exact freeCell_freed c
    · rw [hovl h]
      exact releaseCell_keeps hsound.2.2 (.inr ⟨.inr ⟨rfl, by decide⟩, .inl (by rw [hl]; decide)⟩)
    · have hkeep : c.lock ≠ lockROUTE ∧ c.lock ≠ lockOVERLAP := by
        rw [hl]
        decide
      unfold releaseOf
      split
      · exact releaseCell_keeps hsound.2.2 (.inr ⟨.inl hkeep.1, .inl hkeep.2⟩)
      · exact releaseCell_keeps hsound.2.2 (.inr ⟨.inl hkeep.1, .inl hkeep.2⟩)
    · rw [hall h]
      exact releaseCell_keeps hsound.2.2 (.inl ho)
    · rw [hovl h]
      exact releaseCell_keeps hsound.2.2 (.inl ho)
  · rintro harr ht rfl hsound hs
    have hx := exec_releaseToken (d := d) (s := s) ht
    have hact := cellAction_release ht (ctxOf s) y
    have hz := harr.fabricRead_sound hsound
    obtain ⟨q, hfree, hkeep, htyp, hroute, horigin⟩ := releaseAt_acts (t := t) (harr.readAs hsound)
    by_cases hf : lockedBy c fg t.route = true ∧ c.lock ≠ lockFLANK ∧ (bitOf t.reason 0 = false ∨ occSet c = false)
    · refine answers_of_action hx harr hs (hact.trans (congrArg some (hfree hf))) (hz.setCell (freeCell c)) fun u hu ho hfl =>
        ⟨ho, ⟨q, hfl q (List.mem_singleton_self q), htyp, hroute, horigin⟩, fun _ _ _ => ?_, fun hno => ?_⟩
      · rw [hu]
        exact freeCell_freed c
      · obtain ⟨hown, hflank, hcond⟩ := hf
        rcases hno with h | h | ⟨h, h'⟩
        · rw [hown] at h
          cases h
        · exact absurd h hflank
        · rcases hcond with hcond | hcond
          · rw [hcond] at h
            cases h
          · rw [hcond] at h'
            cases h'
    · exact answers_of_action hx harr hs (hact.trans (congrArg some (hkeep hf))) hz fun u hu ho hfl =>
        ⟨ho, ⟨q, hfl q (List.mem_singleton_self q), htyp, hroute, horigin⟩, fun h1 h2 h3 => absurd ⟨h1, h2, h3⟩ hf, fun _ => hu⟩
  · exact hcancel _ (broadcast_getCell hbc hh (actBroadcast_cancel _ ht y n))
  · rintro harr ht rfl
    have hcells := fun m => ((deliverRow_reads t harr.1).1 m).trans (getCell_deliver_cancel harr ht m)
    exact ⟨_, exec_cancel ht, hcancel _ ((hcells _).trans (if_pos rfl)), fun m hm => (hcells m).trans (if_neg hm.symm)⟩

end Sys2Proof.Machine


/-!
PROOFS. The order of the waves and their cuts (03 R110, Table 3.10, 01 R47): O16.
-/

namespace Sys2Proof.Machine

/-! ## What the engines of a wave leave as it is -/

/-- What the order of the waves speaks of: the wave, the phase, the shadow copy, the outboxes and the two marks of a cut. -/
def waveView (x : DieSt) : Wave × BitVec 4 × List (Nat × CellRec) × List (Nat × Spool Token) × Bool × Bool :=
  (x.wave, x.phase, x.shadow, x.outboxes, x.waveCut, x.refreshCut)

/-- The engines' work on the die leaves its wave, phase, shadow copy, outboxes and marks of a cut as they are. -/
def WaveKept (x y : DieSt) : Prop := waveView y = waveView x

theorem WaveKept.refl (x : DieSt) : WaveKept x x := rfl

theorem WaveKept.trans {x y z : DieSt} (h : WaveKept x y) (k : WaveKept y z) : WaveKept x z := Eq.trans k h

theorem WaveKept.ite {c : Prop} [Decidable c] {x y z : DieSt} (hy : WaveKept x y) (hz : WaveKept x z) : WaveKept x (if c then y else z) := by
  split
  · exact hy
  · exact hz

theorem waveKept_foldl {α : Type} {f : DieSt → α → DieSt} (h : ∀ y a, WaveKept y (f y a)) (l : List α) (x : DieSt) :
    WaveKept x (l.foldl f x) :=
  List.foldlRecOn (motive := WaveKept x) l f (WaveKept.refl x) fun y hy a _ => hy.trans (h y a)

/-- The same for any wave that both dies are in. -/
theorem WaveKept.inWave {x y : DieSt} (h : WaveKept x y) (w : Wave) : WaveKept { x with wave := w } { y with wave := w } :=
  congrArg (Prod.mk w) (congrArg Prod.snd (h : waveView y = waveView x))

theorem WaveKept.refreshCut {x y : DieSt} (h : WaveKept x y) : WaveKept { x with refreshCut := true } { y with refreshCut := true } :=
  congrArg (fun v : Wave × BitVec 4 × List (Nat × CellRec) × List (Nat × Spool Token) × Bool × Bool =>
    (v.1, v.2.1, v.2.2.1, v.2.2.2.1, v.2.2.2.2.1, true)) (h : waveView y = waveView x)

/-! ## Single writes -/

section writes

variable {x y : DieSt} (h : WaveKept x y)

include h

theorem WaveKept.setRoute (i : Nat) (e : RouteEntry) : WaveKept x (setRoute y i e) := h
theorem WaveKept.setWork (i : Nat) (w : RouteWork) : WaveKept x (setWork y i w) := h
theorem WaveKept.modWork (i : Nat) (f : RouteWork → RouteWork) : WaveKept x (modWork y i f) := h
theorem WaveKept.setCell (n : Nat) (c : CellRec) : WaveKept x (setCell y n c) := h
theorem WaveKept.broadcast (f : Nat → CellRec → CellRec) : WaveKept x (broadcastCells f y) := h
theorem WaveKept.cancelMarks (e : RouteEntry) : WaveKept x (cancelMarks e y) := h
theorem WaveKept.toIdle (i : Nat) (r : BitVec 8) : WaveKept x (toIdle i r y) := h
theorem WaveKept.setFailed (i : Nat) (e : RouteEntry) (r : BitVec 8) : WaveKept x (setFailed y i e r) := h
theorem WaveKept.emitEngine (r : Nat) (ts : List Token) : WaveKept x (emitEngine r ts y) := h
theorem WaveKept.pushTerr (r tr : Nat) (op : BitVec 4) (why : BitVec 8) (id : BitVec 13) (key : Word) :
    WaveKept x (pushTerr r tr op why id key y) := h

theorem WaveKept.putResult (r : Nat) (q : ReqResult) : WaveKept x (putResult r q y) := by
  unfold Machine.putResult
  split <;> exact h

theorem WaveKept.setNack (i : Nat) (r : BitVec 8) : WaveKept x (setNack i r y) := by
  unfold Machine.setNack
  exact .ite ((h.setRoute _ _).setWork _ _) h

theorem WaveKept.cancelRemote (cx : Ctx) (i : Nat) : WaveKept x (cancelRemote cx i y) := by
  unfold Machine.cancelRemote
  refine .ite ?_ h
  split
  · exact h.pushTerr _ _ _ _ _ _
  · exact h

theorem WaveKept.afterNack (cx : Ctx) (i : Nat) (r : BitVec 8) : WaveKept x (afterNack cx i r y) := by
  have hremote := h.cancelRemote cx i
  unfold Machine.afterNack
  exact .ite ((hremote.pushTerr _ _ _ _ _ _).toIdle _ _) <| .ite (hremote.toIdle _ _) <| .ite (hremote.toIdle _ _)
    ((hremote.setRoute _ _).setWork _ _)

theorem WaveKept.leaveTable (cx : Ctx) (i : Nat) : WaveKept x (leaveTable cx i y) := by
  unfold Machine.leaveTable
  exact .ite ((h.pushTerr _ _ _ _ _ _).toIdle _ _) (h.toIdle _ _)

theorem WaveKept.toApproach (cx : Ctx) (i : Nat) : WaveKept x (toApproach cx i y) := by
  unfold Machine.toApproach
  exact (h.setCell _ _).setRoute _ _

theorem WaveKept.toEntered (cx : Ctx) (i : Nat) : WaveKept x (toEntered cx i y) := by
  unfold Machine.toEntered
  exact .ite (h.setRoute _ _) ((h.setRoute _ _).modWork _ _)

theorem WaveKept.fabricTouch (n : Nat) : WaveKept x (fabricTouch y n) := by
  unfold Machine.fabricTouch
  exact .ite h (h.setCell _ _)

end writes

/-! ## The waves that send -/

theorem refreshRoute_waveKept (cx : Ctx) (x : DieSt) (i : Nat) : WaveKept x (refreshRoute cx x i) := by
  have h := WaveKept.refl x
  unfold refreshRoute
  exact .ite h <| .ite (h.setRoute _ _) (((h.setRoute _ _).setWork _ _).emitEngine _ _)

theorem requestRoute_waveKept (cx : Ctx) (x : DieSt) (i : Nat) : WaveKept x (requestRoute cx x i) := by
  have h := WaveKept.refl x
  unfold requestRoute
  exact .ite h (((h.setRoute _ _).setWork _ _).emitEngine _ _)

theorem enterRelease_view (cx : Ctx) (x : DieSt) : WaveKept { x with wave := .release } (enterRelease cx x) := by
  unfold enterRelease
  exact waveKept_foldl (fun y _ => .ite (.refl y) ((WaveKept.refl y).emitEngine _ _)) _ _

theorem enterRefresh_view (cx : Ctx) (x : DieSt) : WaveKept { x with wave := .refresh } (enterRefresh cx x) :=
  waveKept_foldl (fun y i => refreshRoute_waveKept cx y i) _ _

theorem enterSweep_view (x : DieSt) : WaveKept { x with wave := .sweep } (enterSweep x) := rfl

theorem enterRequest_view (cx : Ctx) (x : DieSt) : WaveKept { x with wave := .request } (enterRequest cx x) :=
  waveKept_foldl (fun y i => requestRoute_waveKept cx y i) _ _

theorem enterCommit_view (x : DieSt) : WaveKept { x with wave := .commit } (enterCommit x) := by
  unfold enterCommit
  exact waveKept_foldl (fun y _ => .ite (((WaveKept.refl y).setWork _ _).emitEngine _ _) (.refl y)) _ _

/-! ## How REFRESH, REQUEST and COMMIT close -/

theorem settleRefresh_waveKept (x : DieSt) : WaveKept x (settleRefresh x) := by
  unfold settleRefresh
  exact waveKept_foldl (fun y _ => .ite (.refl y) ((WaveKept.refl y).setRoute _ _)) _ x

theorem closeRequest_waveKept (cx : Ctx) (x : DieSt) : WaveKept x (closeRequest cx x) := by
  unfold closeRequest
  refine waveKept_foldl (fun y i => ?_) _ x
  split
  · exact .refl y
  · exact ((WaveKept.refl y).cancelMarks _).afterNack cx i _

theorem closeCommit_waveKept (cx : Ctx) (x : DieSt) : WaveKept x (closeCommit cx x) := by
  unfold closeCommit
  refine waveKept_foldl (fun y i => ?_) _ x
  split
  · exact .refl y
  · exact ((((WaveKept.refl y).cancelMarks _).broadcast _).modWork _ _).afterNack cx i _

/-! ## EVALUATE for one entry (03 R134) -/

theorem remoteLostRow_waveKept (cx : Ctx) (i : Nat) (x : DieSt) : WaveKept x (remoteLostRow cx i x) := by
  have h := WaveKept.refl x
  unfold remoteLostRow
  refine .ite (.ite ((h.cancelMarks _).toIdle _ _) h) ?_
  split
  · exact h
  · exact .ite h <| .ite (((h.cancelRemote cx i).cancelMarks _).toIdle _ _) <| .ite (h.setFailed _ _ _) <| .ite (h.setRoute _ _) h

theorem countWait_waveKept (cx : Ctx) (i : Nat) (x : DieSt) : WaveKept x (countWait cx i x) := by
  have h := WaveKept.refl x
  unfold countWait
  exact .ite (.ite ((h.setRoute _ _).setWork _ _) <| .ite (h.setRoute _ _)
    ((((h.setRoute _ _).cancelRemote cx i).cancelMarks _).toIdle _ _)) h

/-- The row of Table 3.15 that applies, if one does, keeps the wave. -/
def RowKept (x : DieSt) (row : Option DieSt) : Prop := ∀ y, row = some y → WaveKept x y

theorem RowKept.none (x : DieSt) : RowKept x none := fun _ h => nomatch h

theorem RowKept.some {x y : DieSt} (h : WaveKept x y) : RowKept x (some y) := fun _ hy => Option.some.inj hy ▸ h

theorem RowKept.ite {c : Prop} [Decidable c] {x : DieSt} {a b : Option DieSt} (ha : RowKept x a) (hb : RowKept x b) :
    RowKept x (if c then a else b) := by
  split
  · exact ha
  · exact hb

theorem eventRow_rowKept (cx : Ctx) (i : Nat) (x : DieSt) : RowKept x (eventRow cx i x) := by
  have h := WaveKept.refl x
  have failed : ∀ e r, RowKept x (Option.some (setFailed x i e r)) := fun e r => .some (h.setFailed i e r)
  have entered : RowKept x (Option.some (toEntered cx i x)) := .some (h.toEntered cx i)
  have moved : ∀ e, RowKept x (Option.some (setRoute x i e)) := fun e => .some (h.setRoute i e)
  unfold eventRow
  exact .ite (failed _ _) <| .ite (failed _ _) <| .ite entered <| .ite entered <| .ite (.some ((h.setRoute _ _).setWork _ _)) <|
    .ite (moved _) <| .ite (moved _) <| .ite (moved _) <| .ite (moved _) <| .ite (moved _) (.none x)

theorem eventRows_waveKept (cx : Ctx) (i : Nat) : ∀ (f : Nat) (x : DieSt), WaveKept x (eventRows cx i f x)
  | 0, x => WaveKept.refl x
  | f + 1, x => by
    unfold eventRows
    split
    · exact WaveKept.refl x
    · rename_i y hy
      exact (eventRow_rowKept cx i x y hy).trans (eventRows_waveKept cx i f y)

theorem commandLost_waveKept (cmd : Option RouteCmd) (r : Nat) (x : DieSt) : WaveKept x (commandLost cmd r x) := by
  unfold commandLost
  dsimp only
  split
  · exact (WaveKept.refl x).putResult _ _
  · exact .refl x

theorem commandRow_waveKept (cx : Ctx) (i : Nat) (x : DieSt) : WaveKept x (commandRow cx i x) := by
  have h := WaveKept.refl x
  have refused : ∀ r q, WaveKept x (putResult r q x) := h.putResult
  unfold commandRow
  dsimp only
  split
  · exact h
  · exact .ite (refused _ _) <| .ite (((((h.cancelRemote cx i).cancelMarks _).broadcast _).toIdle _ _).putResult _ _) <|
      .ite ((h.setRoute _ _).putResult _ _) <|
      .ite (WaveKept.putResult (.ite (h.toApproach cx i) (h.setRoute _ _)) _ _) (refused _ _)
  · exact .ite ((h.setRoute _ _).putResult _ _) (refused _ _)
  · exact .ite ((h.setRoute _ _).putResult _ _) <| .ite ((h.toApproach cx i).putResult _ _) (refused _ _)

theorem decideReleases_waveKept (cx : Ctx) (i : Nat) (x : DieSt) : WaveKept x (decideReleases cx i x) := by
  have read : ∀ l : List Nat, WaveKept x (l.foldl fabricTouch x) := fun l =>
    waveKept_foldl (fun y n => (WaveKept.refl y).fabricTouch n) l x
  unfold decideReleases
  exact .ite (.refl x) <| .ite ((((read _).setWork _ _).setCell _ _).setRoute _ _) ((read _).setWork _ _)

theorem evalEntry_waveKept (cx : Ctx) (x : DieSt) (i : Nat) : WaveKept x (evalEntry cx x i) := by
  have rows := ((remoteLostRow_waveKept cx i x).trans (countWait_waveKept cx i _)).trans (eventRows_waveKept cx i 4 _)
  have released : ∀ {y : DieSt} (c : Prop) [Decidable c], WaveKept x y → WaveKept x (if c then decideReleases cx i y else y) :=
    fun _ _ hy => .ite (hy.trans (decideReleases_waveKept cx i _)) hy
  have left : ∀ {y : DieSt} (c c' : Prop) [Decidable c] [Decidable c'], WaveKept x y →
      WaveKept x (if c then leaveTable cx i y else if c' then leaveTable cx i y else y) :=
    fun _ _ _ _ hy => .ite (hy.leaveTable cx i) (.ite (hy.leaveTable cx i) hy)
  have closed : ∀ {y : DieSt} (c : Prop) [Decidable c] (cmd : Option RouteCmd) (r : Nat) (f : RouteWork → RouteWork), WaveKept x y →
      WaveKept x (if c then commandLost cmd r y else modWork (commandRow cx i y) i f) :=
    fun _ _ cmd r f hy => .ite (hy.trans (commandLost_waveKept cmd r _)) ((hy.trans (commandRow_waveKept cx i _)).modWork i f)
  unfold evalEntry
  exact .ite (rows.trans (commandLost_waveKept _ _ _)) (closed _ _ _ _ (left _ _ (released _ (rows.modWork i _))))

theorem enterEvaluate_view (cx : Ctx) (x : DieSt) : WaveKept { x with wave := .evaluate } (enterEvaluate cx x) :=
  (closeCommit_waveKept cx { x with wave := .evaluate }).trans (waveKept_foldl (fun y i => evalEntry_waveKept cx y i) _ _)

/-! ## The end of a wave -/

/-- The wave that follows one that ends with no token in flight (Table 3.10). -/
def waveAfter : Wave → Wave
  | .load => .release
  | .release => .refresh
  | .refresh => .sweep
  | .sweep => .request
  | .request => .commit
  | .commit => .evaluate
  | .evaluate | .none => .none

theorem waveEnd_view {x : DieSt} (cx : Ctx) (hq : isQuiet x = true) (hw : x.wave ≠ .evaluate) :
    WaveKept { x with wave := waveAfter x.wave } (waveEnd cx x) := by
  unfold waveEnd
  rw [if_neg (by simp [hq])]
  split
  next h => exact congrArg (fun w => waveView { x with wave := w }) (h.trans (congrArg waveAfter h).symm)
  next h => exact h ▸ enterRelease_view cx x
  next h => exact h ▸ enterRefresh_view cx x
  next h => exact h ▸ ((settleRefresh_waveKept x).inWave .sweep).trans (enterSweep_view _)
  next h => exact h ▸ enterRequest_view cx x
  next h => exact h ▸ ((closeRequest_waveKept cx x).inWave .commit).trans (enterCommit_view _)
  next h => exact h ▸ enterEvaluate_view cx x
  next h => exact absurd h hw

theorem waveEnd_stays {x : DieSt} (cx : Ctx) (h : isQuiet x = false ∨ x.wave = .none) : waveEnd cx x = x := by
  unfold waveEnd
  rcases h with h | h
  · rw [h]
    rfl
  · rw [h]
    exact ite_self x

theorem waveEnd_evaluate {x : DieSt} (cx : Ctx) (hq : isQuiet x = true) (hw : x.wave = .evaluate) :
    waveEnd cx x = { discardTokens x with wave := .none, propDone := true } := by
  unfold waveEnd
  rw [hq, hw]
  rfl

/-! ## The cut of a wave (01 R47) -/

/-- The die at a cut: every token discarded, and WAVE_CUT set. -/
def cutDie (x : DieSt) : DieSt := { discardTokens x with waveCut := true }

theorem cutDie_empty (x : DieSt) (k : Nat) :
    (getA (spEmpty tokenZero) (cutDie x).outboxes k).items = [] ∧ (getA (spEmpty tokenZero) (cutDie x).outboxes k).stalled = [] := by
  have hdrop : getA (spEmpty tokenZero) (cutDie x).outboxes k = spDrop (getA (spEmpty tokenZero) x.outboxes k) :=
    getA_mapA (spEmpty tokenZero) (fun _ p => spDrop p) k rfl x.outboxes
  rw [hdrop]
  exact ⟨rfl, rfl⟩

/-- The wave that follows one that is cut; from REFRESH the one after SWEEP, which a cut leaves out. -/
def waveAfterCut : Wave → Wave
  | .refresh => .request
  | w => waveAfter w

/-- The die as a cut leaves it, but for what the engines of the next wave do. -/
def afterCut (x : DieSt) : DieSt :=
  { cutDie x with wave := waveAfterCut x.wave, refreshCut := if x.wave = .refresh then true else x.refreshCut }

theorem waveCut_view {x : DieSt} (cx : Ctx) (loaded : List Nat) (hs : x.wave ≠ .sweep) (he : x.wave ≠ .evaluate) (hn : x.wave ≠ .none) :
    WaveKept (afterCut x) (waveCut cx loaded x) := by
  have routes : ∀ {f : DieSt → Nat → DieSt} (l : List Nat) (z : DieSt), (∀ z i, WaveKept z (f z i)) → WaveKept z (l.foldl f z) :=
    fun l z h => waveKept_foldl h l z
  unfold waveCut
  dsimp only
  split
  next h =>
    rw [afterCut, h]
    refine ((routes _ _ fun z i => ?_).inWave .release).trans (enterRelease_view cx _)
    have unloaded : WaveKept z (modWork { z with steps := z.steps.filter fun s => !(findRoute z s.foreign s.route == some i) } i
        fun w => { w with loaded := false }) := rfl
    exact .ite (.refl z) (.ite (unloaded.setNack i _) unloaded)
  next h =>
    rw [afterCut, h]
    exact enterRefresh_view cx (cutDie x)
  next h =>
    rw [afterCut, h]
    have settled : ∀ busy : List Nat, WaveKept (cutDie x)
        (busy.foldl (fun z i => modRoute z i fun e => { e with refreshed := false }) (settleRefresh (cutDie x))) := fun busy =>
      (settleRefresh_waveKept (cutDie x)).trans (routes busy _ fun z i => (WaveKept.refl z).setRoute i _)
    exact (((settled _).broadcast _).refreshCut.inWave .request).trans (enterRequest_view cx _)
  next h =>
    rw [afterCut, h]
    refine (((routes _ _ fun z i => ?_).trans (closeRequest_waveKept cx _)).inWave .commit).trans (enterCommit_view _)
    exact .ite ((WaveKept.refl z).setNack i _) (.refl z)
  next h =>
    rw [afterCut, h]
    refine ((routes _ _ fun z i => ?_).inWave .evaluate).trans (enterEvaluate_view cx _)
    have kept := WaveKept.refl z
    exact .ite (.ite ((kept.cancelMarks _).toIdle _ _) ((kept.setRoute _ _).setWork _ _)) kept
  next hload hrel href hreq hcom => cases h : x.wave <;> simp_all

theorem waveCut_stays {x : DieSt} (cx : Ctx) (loaded : List Nat) (h : x.wave = .sweep ∨ x.wave = .evaluate ∨ x.wave = .none) :
    waveCut cx loaded x = x := by
  unfold waveCut
  rcases h with h | h | h <;> rw [h]

/-! ## The rows -/

theorem dieOf_fabricRow {s : State} {d : Die} (f : DieSt → DieSt) (hp : (dieOf s d).phase = phPROPAGATE) :
    dieOf (fabricRow d f s) d = { f (dieOf s d) with logOut := [] } := by
  unfold fabricRow
  rw [dieOf_takeDieLogs, dieOf_onDie_self, if_pos hp]

theorem exec_waveEnd (d : Die) (s : State) : exec (.waveEnd d) s = .next (fabricRow d (waveEnd (ctxOf s)) s) := rfl

/-- A cut, counted by every region (19 Table 19.1). -/
def countedCut (cx : Ctx) (loaded : List Nat) (x : DieSt) : DieSt :=
  (numsFrom 0 16).foldl (fun y r => if x.wave = .none then y else pmcCount r 0x16 y) (waveCut cx loaded x)

theorem exec_waveCut (d : Die) (loaded : List Nat) (s : State) :
    exec (.waveCut d loaded) s = .next (fabricRow d (countedCut (ctxOf s) loaded) s) := rfl

theorem countedCut_regions (cx : Ctx) (loaded : List Nat) (x : DieSt) : RegionsOnly (waveCut cx loaded x) (countedCut cx loaded x) := by
  refine regionsOnly_foldl _ (fun y r => ?_) _ _
  split
  · exact RegionsOnly.refl y
  · exact pmcCount_regions r 0x16 y

theorem RegionsOnly.waveKept {x y : DieSt} (h : RegionsOnly x y) : WaveKept x y := by
  unfold RegionsOnly at h
  rw [h]
  rfl

/-- What a wave of the statement reads of the view. -/
theorem WaveKept.fields {x y : DieSt} (h : WaveKept x y) : y.wave = x.wave ∧ y.phase = x.phase ∧ y.shadow = x.shadow ∧
    y.outboxes = x.outboxes ∧ y.waveCut = x.waveCut ∧ y.refreshCut = x.refreshCut := by
  simpa [WaveKept, waveView] using h

theorem waveEnd_follows {s : State} {d : Die} {w : Wave} (hp : (dieOf s d).phase = phPROPAGATE) (hne : w ≠ .evaluate)
    (hw : (dieOf s d).wave = w) (hq : isQuiet (dieOf s d) = true) :
    Answers (.waveEnd d) s (fun t => (dieOf t d).wave = waveAfter w ∧ (dieOf t d).phase = phPROPAGATE ∧
      (dieOf t d).shadow = (dieOf s d).shadow ∧ DieStep d s t) := by
  subst hw
  obtain ⟨hwave, hphase, hshadow, -, -, -⟩ := (waveEnd_view (ctxOf s) hq hne).fields
  refine ⟨_, exec_waveEnd d s, ?_⟩
  dsimp only
  rw [dieOf_fabricRow _ hp]
  exact ⟨hwave, hphase.trans hp, hshadow, dieStep_onDie_logs d _ s⟩

theorem waveCut_follows {s : State} {d : Die} {w : Wave} (loaded : List Nat) (hp : (dieOf s d).phase = phPROPAGATE)
    (hs : w ≠ .sweep) (he : w ≠ .evaluate) (hn : w ≠ .none) (hw : (dieOf s d).wave = w) :
    Answers (.waveCut d loaded) s (fun t => (dieOf t d).wave = waveAfterCut w ∧ (dieOf t d).waveCut = true ∧
      (dieOf t d).phase = phPROPAGATE ∧ (dieOf t d).shadow = (dieOf s d).shadow ∧
      (∀ n, (outboxOf (dieOf t d) n).items = [] ∧ (outboxOf (dieOf t d) n).stalled = []) ∧
      (w = .refresh → (dieOf t d).refreshCut = true) ∧ DieStep d s t) := by
  subst hw
  obtain ⟨hwave, hphase, hshadow, hboxes, hcut, hrefresh⟩ :=
    ((waveCut_view (ctxOf s) loaded hs he hn).trans (countedCut_regions (ctxOf s) loaded (dieOf s d)).waveKept).fields
  refine ⟨_, exec_waveCut d loaded s, ?_⟩
  dsimp only
  rw [dieOf_fabricRow _ hp]
  refine ⟨hwave, hcut, hphase.trans hp, hshadow, fun n => ?_, fun h => hrefresh.trans (if_pos h), dieStep_onDie_logs d _ s⟩
  unfold outboxOf
  dsimp only
  rw [hboxes]
  exact cutDie_empty _ _

/-- Settles O16: whatever the engines do in the wave that begins, `waveEnd_view` and `waveCut_view` say which one it is and what it finds. -/
theorem wavesFollowInOrder : Obligations.WavesFollowInOrder := by
  intro s d loaded hp x goes cuts
  have ends : ∀ w, w ≠ .evaluate → goes w (waveAfter w) := fun w hne hw hq => waveEnd_follows hp hne hw hq
  have cut : ∀ w, w ≠ .sweep → w ≠ .evaluate → w ≠ .none → cuts w (waveAfterCut w) := fun w hs he hn hw =>
    waveCut_follows loaded hp hs he hn hw
  refine ⟨ends .load (by decide), ends .release (by decide), ends .refresh (by decide), ends .sweep (by decide),
    ends .request (by decide), ends .commit (by decide), fun hw hq => ⟨_, exec_waveEnd d s, ?_⟩, fun h => ⟨_, exec_waveEnd d s, ?_⟩,
    cut .load (by decide) (by decide) (by decide), cut .release (by decide) (by decide) (by decide),
    cut .refresh (by decide) (by decide) (by decide), cut .request (by decide) (by decide) (by decide),
    cut .commit (by decide) (by decide) (by decide), fun h => ⟨_, exec_waveCut d loaded s, ?_⟩⟩
  · dsimp only
    rw [dieOf_fabricRow _ hp, waveEnd_evaluate _ hq hw]
    exact ⟨rfl, rfl, rfl, rfl⟩
  · dsimp only
    rw [dieOf_fabricRow _ hp, waveEnd_stays _ h]
    exact ⟨rfl, dieStep_onDie_logs d _ s⟩
  · have hregions := countedCut_regions (ctxOf s) loaded (dieOf s d)
    rw [waveCut_stays _ _ h] at hregions
    dsimp only
    rw [dieOf_fabricRow _ hp]
    exact ⟨congrArg (fun z : DieSt => { z with logOut := [] }) hregions, dieStep_onDie_logs d _ s⟩

end Sys2Proof.Machine


/-!
PROOFS. Route requests at step 5 of RULES_IN (03 R113, R134, 17 R472, R475): O46.
-/

namespace Sys2Proof.Machine

/-! ## One route entry of a die changes -/

/-- Two dies hold the same cells and the same work of step 5, and the same route entries but for `i`. -/
def OnlyEntry (i : Nat) (x y : DieSt) : Prop := y.todo = x.todo ∧ y.cells = x.cells ∧ ∀ j, j ≠ i → getRoute y j = getRoute x j

theorem OnlyEntry.refl (i : Nat) (x : DieSt) : OnlyEntry i x x := ⟨rfl, rfl, fun _ _ => rfl⟩

theorem OnlyEntry.trans {i : Nat} {x y z : DieSt} (h : OnlyEntry i x y) (k : OnlyEntry i y z) : OnlyEntry i x z := by
  obtain ⟨htodo, hcells, hroutes⟩ := h
  obtain ⟨ktodo, kcells, kroutes⟩ := k
  exact ⟨ktodo.trans htodo, kcells.trans hcells, fun j hj => (kroutes j hj).trans (hroutes j hj)⟩

theorem RegionsOnly.onlyEntry {x y : DieSt} (i : Nat) (h : RegionsOnly x y) : OnlyEntry i x y := by
  unfold RegionsOnly at h
  rw [h]
  exact OnlyEntry.refl i x

theorem onlyEntry_setRoute (i : Nat) (e : RouteEntry) (x : DieSt) : OnlyEntry i x (setRoute x i e) :=
  ⟨rfl, rfl, fun j hj => (getRoute_setRoute x i j e).trans (if_neg hj.symm)⟩

theorem onlyEntry_modWork (i : Nat) (f : RouteWork → RouteWork) (x : DieSt) : OnlyEntry i x (modWork x i f) := OnlyEntry.refl i x

theorem RegionsOnly.routes_work {x y : DieSt} (h : RegionsOnly x y) : y.routes = x.routes ∧ y.work = x.work ∧ y.accepted = x.accepted := by
  unfold RegionsOnly at h
  rw [h]
  exact ⟨rfl, rfl, rfl⟩

/-! ## The rows -/

/-- What a route request leaves unchanged outside its entry, the engine's work and the regions. -/
def RouteRequestFrame (d : Die) (i : Nat) (rest : List Todo) (s t : State) : Prop :=
  (dieOf t d).todo = rest ∧ (dieOf t d).cells = (dieOf s d).cells ∧ OtherRoutes i d s t ∧ (∀ o, o ≠ d → dieOf t o = dieOf s o) ∧
    t.mode = s.mode ∧ t.outs = s.outs

/-- The commands that take a route request from the head of the work; the confirm of EMERG_RELEASE is a command of its own. -/
def routeCommands (d : Die) (confirm : Bool) : List (Instr × WinCmd) :=
  [(.routeSet d, .routeSet), (.routeCancel d, .routeCancel), (.signalReplace d, .signalReplace),
    (if confirm then .emergReleaseConfirm d else .emergRelease d, .emergRelease)]

theorem exec_routeCommand {s : State} {d : Die} {n : Nat} {c : WinCmd} {rest : List Todo} {cmd : Instr} (h : HeadRequest s d n c rest)
    (hm : (cmd, c) ∈ routeCommands d (bitOf ((reqWords s.win n).getD 5 0) 0)) :
    ∃ t, exec cmd s = .next t ∧ HeadTaken d (dieRequest s n (withTodo rest (dieOf s d))) s t := by
  have hc := h.2.2.1
  simp only [routeCommands, List.mem_cons, Prod.mk.injEq, List.not_mem_nil, or_false] at hm
  rcases hm with ⟨rfl, rfl⟩ | ⟨rfl, rfl⟩ | ⟨rfl, rfl⟩ | ⟨rfl, rfl⟩
  · exact ⟨_, rfl, todoRow_request h (by simp [isRequest, hc])⟩
  · exact ⟨_, rfl, todoRow_request h (by simp [isRequest, hc])⟩
  · exact ⟨_, rfl, todoRow_request h (by simp [isRequest, hc])⟩
  · cases hb : bitOf ((reqWords s.win n).getD 5 0) 0
    · exact ⟨_, rfl, todoRow_request h (by simp only [isRequest, hc, hb]; rfl)⟩
    · exact ⟨_, rfl, todoRow_request h (by simp only [isRequest, hc, hb]; rfl)⟩

theorem HeadTaken.routeFrame {d : Die} {y : DieSt} {s t : State} {rest : List Todo} {i : Nat} (h : HeadTaken d y s t)
    (hy : OnlyEntry i (withTodo rest (dieOf s d)) y) : RouteRequestFrame d i rest s t := by
  obtain ⟨hcells, hroutes, htodo, -⟩ := h.keeps
  obtain ⟨⟨hst, hother⟩, -⟩ := h
  obtain ⟨hytodo, hycells, hyroutes⟩ := hy
  exact ⟨htodo.trans hytodo, hcells.trans hycells, fun j hj => (congrArg (getA routeIdle · j) hroutes).trans (hyroutes j hj), hother,
    by rw [hst], by rw [hst]⟩

theorem HeadTaken.work_accepted {d : Die} {y : DieSt} {s t : State} (h : HeadTaken d y s t) :
    (dieOf t d).work = y.work ∧ (dieOf t d).accepted = y.accepted := by
  obtain ⟨-, z, ⟨hz, -⟩, ht⟩ := h
  obtain ⟨-, hwork, haccepted⟩ := hz.routes_work
  rw [ht]
  exact ⟨hwork, haccepted⟩

/-- A route request that gives a result on the die `z`. -/
theorem answers_of_routeResult {s : State} {d : Die} {n i r : Nat} {c : WinCmd} {rest : List Todo} {cmd : Instr} {result reason : BitVec 8}
    {z : DieSt} {P : State → Prop} (h : HeadRequest s d n c rest) (hm : (cmd, c) ∈ routeCommands d (bitOf ((reqWords s.win n).getD 5 0) 0))
    (hr : r < 16) (hz : OnlyEntry i (withTodo rest (dieOf s d)) z) (hh : (reg z r).halted = false)
    (hres : (reg z r).results = (reg (dieOf s d) r).results)
    (hy : dieRequest s n (withTodo rest (dieOf s d)) = giveResult r n result reason 0 z)
    (hP : ∀ t, RouteRequestFrame d i rest s t → Reports d r n result reason s t → (dieOf t d).routes = z.routes →
      (dieOf t d).work = z.work → (dieOf t d).accepted = z.accepted → (reg (dieOf t d) r).sup.pendings = (reg z r).sup.pendings → P t) :
    Answers cmd s P := by
  obtain ⟨t, hx, ht⟩ := exec_routeCommand h hm
  rw [hy] at ht
  have honly := giveResult_regions r n result reason 0 z
  obtain ⟨hroutes, hwork, haccepted⟩ := honly.routes_work
  obtain ⟨-, htroutes, -, htreg⟩ := ht.keeps
  obtain ⟨htwork, htaccepted⟩ := ht.work_accepted
  have hreg := reg_giveResult hr n result reason 0 hh
  refine ⟨t, hx, hP t (ht.routeFrame (hz.trans (honly.onlyEntry i))) ⟨0, ?_⟩ (htroutes.trans hroutes) (htwork.trans hwork)
    (htaccepted.trans haccepted) ?_⟩
  · rw [(htreg r).1, hreg, hres]
  · rw [(htreg r).2, hreg]

/-- A refused route request leaves the table and the engine's work as they are. -/
theorem answers_of_routeRefused {s : State} {d : Die} {n : Nat} (i : Nat) {r : Nat} {c : WinCmd} {rest : List Todo} {cmd : Instr}
    {reason : BitVec 8} (h : HeadRequest s d n c rest) (hm : (cmd, c) ∈ routeCommands d (bitOf ((reqWords s.win n).getD 5 0) 0))
    (hr : r < 16) (hh : (reg (dieOf s d) r).halted = false)
    (hy : dieRequest s n (withTodo rest (dieOf s d)) = giveResult r n rsREFROUTE reason 0 (withTodo rest (dieOf s d))) :
    Answers cmd s (fun t => RouteRequestFrame d i rest s t ∧ (dieOf t d).routes = (dieOf s d).routes ∧
      (dieOf t d).work = (dieOf s d).work ∧ Reports d r n rsREFROUTE reason s t) :=
  answers_of_routeResult h hm hr (OnlyEntry.refl i _) hh rfl hy fun _ hframe hrep hroutes hwork _ _ => ⟨hframe, hroutes, hwork, hrep⟩

/-- A command that is kept for EVALUATE. -/
theorem answers_of_routeKept {s : State} {d : Die} {n i : Nat} {c : WinCmd} {rest : List Todo} {cmd : Instr} {q : RouteCmd} {z : DieSt}
    (h : HeadRequest s d n c rest) (hm : (cmd, c) ∈ routeCommands d (bitOf ((reqWords s.win n).getD 5 0) 0))
    (hz : RegionsOnly (withTodo rest (dieOf s d)) z)
    (hy : dieRequest s n (withTodo rest (dieOf s d)) = modWork z i (fun w => { w with cmd := some q })) :
    Answers cmd s (fun t => RouteRequestFrame d i rest s t ∧ (dieOf t d).routes = (dieOf s d).routes ∧
      (getWork (dieOf t d) i).cmd = some q) := by
  obtain ⟨t, hx, ht⟩ := exec_routeCommand h hm
  rw [hy] at ht
  obtain ⟨-, htroutes, -, -⟩ := ht.keeps
  obtain ⟨htwork, -⟩ := ht.work_accepted
  obtain ⟨hroutes, -, -⟩ := hz.routes_work
  refine ⟨t, hx, ht.routeFrame ((hz.onlyEntry i).trans (onlyEntry_modWork i _ z)), htroutes.trans hroutes, ?_⟩
  have hget : getWork (dieOf t d) i = getWork (modWork z i fun w => { w with cmd := some q }) i := congrArg (getA workNone · i) htwork
  rw [hget]
  exact congrArg RouteWork.cmd ((getA_putA workNone _ i i z.work).trans (if_pos rfl))

/-! ## ROUTE_SET (03 R113) -/

section RouteSet

variable {cx : Ctx} {n i : Nat} {id : BitVec 13} {x : DieSt} (hh : (reg x (regionOf (readDesc cx x false id.toNat).1.entrance)).halted = false)

include hh

theorem dieRouteSet_mode (hrun : cx.running = false) :
    dieRouteSet cx n id x = giveResult (regionOf (readDesc cx x false id.toNat).1.entrance) n rsREFROUTE rnMODE 0 x := by
  simp [dieRouteSet, hh, hrun]

theorem dieRouteSet_fieldRole (hrun : cx.running = true) (hf : cx.fieldRole = true) :
    dieRouteSet cx n id x = giveResult (regionOf (readDesc cx x false id.toNat).1.entrance) n rsREFROUTE rnNOTALLOWED 0 x := by
  simp [dieRouteSet, hh, hrun, hf]

theorem dieRouteSet_live (hrun : cx.running = true) (hf : cx.fieldRole = false) (hi : findRoute x false id = some i) :
    dieRouteSet cx n id x =
      if (getRoute x i).replaced then
        giveResult (regionOf (readDesc cx x false id.toNat).1.entrance) n rsDONE 0 0 (modRoute x i (fun e => { e with replaced := false }))
      else giveResult (regionOf (readDesc cx x false id.toNat).1.entrance) n rsREFROUTE rnDUPLICATE 0 x := by
  simp [dieRouteSet, hh, hrun, hf, hi]

theorem dieRouteSet_full (hrun : cx.running = true) (hf : cx.fieldRole = false) (hi : findRoute x false id = none)
    (hfull : 64 ≤ x.accepted ∨ lowestFree x = none) :
    dieRouteSet cx n id x = giveResult (regionOf (readDesc cx x false id.toNat).1.entrance) n rsREFROUTE rnCAPACITY 0 x := by
  have hplace : (decide (64 ≤ x.accepted) || (lowestFree x).isNone) = true := by simpa using hfull
  simp [dieRouteSet, hh, hrun, hf, hi, hplace]

theorem dieRouteSet_descriptor (hrun : cx.running = true) (hf : cx.fieldRole = false) (hi : findRoute x false id = none)
    (hroom : x.accepted < 64) (hfree : lowestFree x = some i)
    (hd : (readDesc cx x false id.toNat).1.valid = false ∨ (readDesc cx x false id.toNat).2 = false) :
    dieRouteSet cx n id x = giveResult (regionOf (readDesc cx x false id.toNat).1.entrance) n rsREFROUTE rnDESCRIPTOR 0 x := by
  have hbad : (!(readDesc cx x false id.toNat).1.valid || !(readDesc cx x false id.toNat).2) = true := by simpa using hd
  have hplace : ¬ 64 ≤ x.accepted := by omega
  simp only [dieRouteSet, hh, hrun, hf, hi, hfree, hbad]
  simp [hplace]

/-- The die with the new entry, whose key is the next of the cycle. -/
def entered (cx : Ctx) (id : BitVec 13) (x : DieSt) : DieSt :=
  { enterRoute cx false id (mkKey x.cycleNo cx.keyPos x.rank) x with rank := (enterRoute cx false id (mkKey x.cycleNo cx.keyPos x.rank) x).rank + 1 }

theorem dieRouteSet_entered (hrun : cx.running = true) (hf : cx.fieldRole = false) (hi : findRoute x false id = none)
    (hroom : x.accepted < 64) (hfree : lowestFree x = some i)
    (hv : (readDesc cx x false id.toNat).1.valid = true) (hc : (readDesc cx x false id.toNat).2 = true) :
    dieRouteSet cx n id x = giveResult (regionOf (readDesc cx x false id.toNat).1.entrance) n rsDONE 0 0 (entered cx id x) := by
  have hplace : ¬ 64 ≤ x.accepted := by omega
  simp only [dieRouteSet, hh, hrun, hf, hi, hfree, hv, hc]
  simp [hplace, entered]

end RouteSet

theorem entered_entry {cx : Ctx} {id : BitVec 13} {x : DieSt} {i : Nat} (hfree : lowestFree x = some i) :
    OnlyEntry i x (entered cx id x) ∧ (entered cx id x).regions = x.regions ∧ (entered cx id x).accepted = x.accepted + 1 ∧
      getRoute (entered cx id x) i =
        { routeIdle with state := rsPROBING, routeId := id, key := mkKey x.cycleNo cx.keyPos x.rank } := by
  unfold entered enterRoute
  rw [hfree]
  obtain ⟨htodo, hcells, hroutes⟩ := onlyEntry_setRoute i
    { routeIdle with state := rsPROBING, routeId := id, key := mkKey x.cycleNo cx.keyPos x.rank } { x with accepted := x.accepted + 1 }
  exact ⟨⟨htodo, hcells, hroutes⟩, rfl, rfl, (getA_putA routeIdle _ i i x.routes).trans (if_pos rfl)⟩

/-! ## Commands on a live route (03 R134) -/

section RouteCmd

variable {cx : Ctx} {n i : Nat} {proxy : Bool} {id : BitVec 13} {cmd : Nat → RouteCmd} {x : DieSt}
  (hh : (reg x (regionOf (readDesc cx x proxy id.toNat).1.entrance)).halted = false)

include hh

theorem dieRouteCmd_unknown (hi : findRoute x proxy id = none) :
    dieRouteCmd cx n proxy id cmd x =
      giveResult (regionOf (readDesc cx x proxy id.toNat).1.entrance) n rsREFROUTE rnNOTALLOWED 0 x := by
  simp [dieRouteCmd, hh, hi]

theorem dieRouteCmd_second (hi : findRoute x proxy id = some i) (hc : (getWork x i).cmd ≠ none) :
    dieRouteCmd cx n proxy id cmd x =
      giveResult (regionOf (readDesc cx x proxy id.toNat).1.entrance) n rsREFROUTE rnNOTALLOWED 0 x := by
  simp [dieRouteCmd, hh, hi, Option.isSome_iff_ne_none, hc]

theorem dieRouteCmd_kept (hi : findRoute x proxy id = some i) (hc : (getWork x i).cmd = none) :
    dieRouteCmd cx n proxy id cmd x = modWork x i (fun w => { w with cmd := some (cmd n) }) := by
  simp [dieRouteCmd, hh, hi, hc]

end RouteCmd

/-! ## EMERG_RELEASE (17 R475) -/

/-- The tests of EMERG_RELEASE: the route is live, and before the confirm its state has a row for it. -/
def emergTest (proxy confirm : Bool) (id : BitVec 13) (x : DieSt) : Option (BitVec 8 × BitVec 8) :=
  (findRoute x proxy id).elim (some (rsREFROUTE, rnNOTALLOWED)) fun i =>
    if confirm || emergStates.contains (getRoute x i).state then none else some (rsREFROUTE, rnNOTALLOWED)

theorem dieEmergRelease_eq (cx : Ctx) (n : Nat) (ws : List Word) {a : Word} (ha : ws.getD 4 0 = a) {b : Bool}
    (hb : bitOf (ws.getD 5 0) 0 = b) (x : DieSt) :
    dieEmergRelease cx n ws x =
      twoStep cx n (regionOf (readDesc cx x (bitOf a 13) (a.extractLsb' 0 13).toNat).1.entrance) 7 a (ws.getD 1 0) b
        (emergTest (bitOf a 13) b (a.extractLsb' 0 13)) (dieRouteCmd cx n (bitOf a 13) (a.extractLsb' 0 13) RouteCmd.emergency) x := by
  subst ha hb
  unfold dieEmergRelease
  dsimp only
  congr 1
  funext y
  unfold emergTest
  cases findRoute y (bitOf (ws.getD 4 0) 13) ((ws.getD 4 0).extractLsb' 0 13) <;> rfl

theorem dieRequest_routeSet {s : State} {n : Nat} (hc : reqCmd (reqWords s.win n) = some .routeSet) (x : DieSt) :
    dieRequest s n x = dieRouteSet (ctxOf s) n (((reqWords s.win n).getD 4 0).extractLsb' 0 13) x := by
  unfold dieRequest
  simp only [hc]

theorem dieRequest_routeCancel {s : State} {n : Nat} (hc : reqCmd (reqWords s.win n) = some .routeCancel) (x : DieSt) :
    dieRequest s n x = dieRouteCmd (ctxOf s) n false (((reqWords s.win n).getD 4 0).extractLsb' 0 13) RouteCmd.cancel x := by
  unfold dieRequest
  simp only [hc]

theorem dieRequest_signalReplace {s : State} {n : Nat} (hc : reqCmd (reqWords s.win n) = some .signalReplace) (x : DieSt) :
    dieRequest s n x = dieRouteCmd (ctxOf s) n false (((reqWords s.win n).getD 4 0).extractLsb' 0 13) RouteCmd.replace x := by
  unfold dieRequest
  simp only [hc]

theorem dieRequest_emergRelease {s : State} {n : Nat} (hc : reqCmd (reqWords s.win n) = some .emergRelease) (x : DieSt) :
    dieRequest s n x = dieEmergRelease (ctxOf s) n (reqWords s.win n) x := by
  unfold dieRequest
  simp only [hc]

/-- The first step of EMERG_RELEASE for a route that is not live or whose state has no row for it. -/
theorem emergTest_refused {proxy : Bool} {id : BitVec 13} {x : DieSt}
    (h : findRoute x proxy id = none ∨ ∃ i, findRoute x proxy id = some i ∧ emergStates.contains (getRoute x i).state = false) :
    emergTest proxy false id x = some (rsREFROUTE, rnNOTALLOWED) := by
  unfold emergTest
  rcases h with hi | ⟨i, hi, hst⟩
  · rw [hi]
    rfl
  · rw [hi]
    exact if_neg (by rw [hst]; decide)

theorem emergTest_passed {proxy confirm : Bool} {id : BitVec 13} {x : DieSt} {i : Nat} (hi : findRoute x proxy id = some i)
    (h : confirm = true ∨ emergStates.contains (getRoute x i).state = true) : emergTest proxy confirm id x = none := by
  unfold emergTest
  rw [hi]
  exact if_pos (by rw [Bool.or_eq_true]; exact h)

theorem dropPending_regions (r : Nat) (cmd : BitVec 8) (target : Word) (x : DieSt) : RegionsOnly x (dropPending r cmd target x) := rfl

theorem dropPending_halted {r q : Nat} (cmd : BitVec 8) (target : Word) (x : DieSt) :
    (reg (dropPending r cmd target x) q).halted = (reg x q).halted := by
  unfold dropPending
  rw [reg_modReg]
  split
  · rename_i h
    rw [h.1]
  · rfl

theorem enterPending_region {r : Nat} {x : DieSt} (hr : r < 16) (e : PendEntry) :
    (reg (enterPending r e x) r).halted = (reg x r).halted ∧ (reg (enterPending r e x) r).results = (reg x r).results ∧
      (reg (enterPending r e x) r).sup.pendings = (reg x r).sup.pendings ++ [e] := by
  have hreg : reg (enterPending r e x) r = _ := reg_modReg_self x hr _
  rw [hreg]
  exact ⟨rfl, rfl, rfl⟩

/-- A first step that passes its tests is kept where none is pending and there is room. -/
theorem twoStep_entered {cx : Ctx} {n r : Nat} {cmd : BitVec 8} {target ticket : Word} {test : DieSt → Option (BitVec 8 × BitVec 8)}
    {act : DieSt → DieSt} {x : DieSt} (hh : (reg x r).halted = false) (ht : test x = none) (hp : pendingFor x r cmd target = none)
    (hroom : (allPendings x).length < 16) :
    twoStep cx n r cmd target ticket false test act x = giveResult r n rsPENDING 0 0
      (enterPending r { cmd := cmd, target := target, taken := x.cycleNo, slot := n, ticket := ticket } x) := by
  rw [twoStep_first hh ht, if_neg (by rw [hp]; decide), if_neg (by omega)]

/-- A confirm in its time carries the command out on the die without the pending entry. -/
theorem twoStep_due {cx : Ctx} {n r : Nat} {cmd : BitVec 8} {target ticket : Word} {test : DieSt → Option (BitVec 8 × BitVec 8)}
    {act : DieSt → DieSt} {x : DieSt} (hh : (reg x r).halted = false) {p : PendEntry} (hp : pendingFor x r cmd target = some p)
    (hearly : 5000 ≤ (x.cycleNo - p.taken).toNat * cx.periodMs) (hlate : (x.cycleNo - p.taken).toNat * cx.periodMs ≤ 60000)
    (ht : test (dropPending r cmd target x) = none) :
    twoStep cx n r cmd target ticket true test act x = act (dropPending r cmd target x) := by
  refine (twoStep_confirm hh hp).trans ?_
  rw [if_neg (by omega), if_neg (by omega), ht]
  rfl

/-- Settles O46: each request is its operation on the die (the equations of `dieRouteSet`, `dieRouteCmd` and `twoStep`), which the row
carries to the module: with a result, refused or kept for EVALUATE. -/
theorem routeCommandsAreEntered : Obligations.RouteCommandsAreEntered := by
  intro s d n i rest x cx ws a id own r rp confirm frame keeps refuses
  have hr : r < 16 := regionOf_lt _
  have hrp : rp < 16 := regionOf_lt _
  refine ⟨fun hh h => ?_, fun cmd w q hm hh h => ?_, fun hh h => ?_⟩
  · -- ROUTE_SET
    have hm : (Instr.routeSet d, WinCmd.routeSet) ∈ routeCommands d confirm := by simp [routeCommands]
    have hy := dieRequest_routeSet h.2.2.1 (withTodo rest x)
    have refused : ∀ reason, dieRouteSet cx n id (withTodo rest x) = giveResult r n rsREFROUTE reason 0 (withTodo rest x) →
        refuses (.routeSet d) r reason := fun reason hset => answers_of_routeRefused i h hm hr hh (hy.trans hset)
    refine ⟨fun hrun => refused _ (dieRouteSet_mode hh hrun), fun hrun hf => refused _ (dieRouteSet_fieldRole hh hrun hf),
      fun hrun hf hi hroom hfree => ⟨fun hv hc => ?_, fun hd => refused _ (dieRouteSet_descriptor hh hrun hf hi hroom hfree hd)⟩,
      fun hrun hf hi hfull => refused _ (dieRouteSet_full hh hrun hf hi hfull), fun hrun hf hi => ⟨fun hrep => ?_, fun hrep => ?_⟩⟩
    · obtain ⟨honly, hregions, haccepted, hentry⟩ := entered_entry (cx := cx) (id := id) (x := withTodo rest x) hfree
      have hreg : reg (entered cx id (withTodo rest x)) r = reg x r := reg_of_regions hregions r
      exact answers_of_routeResult h hm hr honly (by rw [hreg]; exact hh) (by rw [hreg])
        (hy.trans (dieRouteSet_entered hh hrun hf hi hroom hfree hv hc)) fun t hframe hrep hroutes _ hacc _ =>
          ⟨hframe, hrep, hacc.trans haccepted, (congrArg (getA routeIdle · i) hroutes).trans hentry⟩
    · exact refused _ ((dieRouteSet_live (x := withTodo rest x) hh hrun hf hi).trans (if_neg (by rw [Bool.not_eq_true]; exact hrep)))
    · exact answers_of_routeResult h hm hr (onlyEntry_setRoute i { getRoute x i with replaced := false } (withTodo rest x)) hh rfl
        (hy.trans ((dieRouteSet_live (x := withTodo rest x) hh hrun hf hi).trans (if_pos hrep))) fun t hframe hrep hroutes _ _ _ =>
          ⟨hframe, hrep, (congrArg (getA routeIdle · i) hroutes).trans ((getRoute_setRoute (withTodo rest x) i i _).trans (if_pos rfl))⟩
  · -- ROUTE_CANCEL and SIGNAL_REPLACE
    have command : ∀ make : Nat → RouteCmd, q = make n → (cmd, w) ∈ routeCommands d confirm →
        (∀ y, dieRequest s n y = dieRouteCmd cx n false id make y) →
        (findRoute x false id = some i → (getWork x i).cmd = none → keeps cmd q) ∧
        (findRoute x false id = some i → (getWork x i).cmd ≠ none → refuses cmd r rnNOTALLOWED) ∧
        (findRoute x false id = none → refuses cmd r rnNOTALLOWED) := by
      rintro make rfl hmem hy
      exact ⟨fun hi hc => answers_of_routeKept h hmem (RegionsOnly.refl _) ((hy _).trans (dieRouteCmd_kept hh hi hc)),
        fun hi hc => answers_of_routeRefused i h hmem hr hh ((hy _).trans (dieRouteCmd_second hh hi hc)),
        fun hi => answers_of_routeRefused i h hmem hr hh ((hy _).trans (dieRouteCmd_unknown hh hi))⟩
    simp only [List.mem_cons, Prod.mk.injEq, List.not_mem_nil, or_false] at hm
    rcases hm with ⟨rfl, rfl, rfl⟩ | ⟨rfl, rfl, rfl⟩
    · exact command RouteCmd.cancel rfl (by simp [routeCommands]) (dieRequest_routeCancel h.2.2.1)
    · exact command RouteCmd.replace rfl (by simp [routeCommands]) (dieRequest_signalReplace h.2.2.1)
  · -- EMERG_RELEASE
    have hy : ∀ b, confirm = b → dieRequest s n (withTodo rest x) = twoStep cx n rp 7 a (ws.getD 1 0) b (emergTest (bitOf a 13) b id)
        (dieRouteCmd cx n (bitOf a 13) id RouteCmd.emergency) (withTodo rest x) := fun b hb =>
      (dieRequest_emergRelease h.2.2.1 _).trans (dieEmergRelease_eq cx n ws rfl hb _)
    have hfirst : confirm = false → (Instr.emergRelease d, WinCmd.emergRelease) ∈ routeCommands d confirm := fun hcf => by
      simp [routeCommands, hcf]
    have refused : confirm = false → emergTest (bitOf a 13) false id (withTodo rest x) = some (rsREFROUTE, rnNOTALLOWED) →
        refuses (.emergRelease d) rp rnNOTALLOWED := fun hcf htest =>
      answers_of_routeRefused i h (hfirst hcf) hrp hh ((hy false hcf).trans (twoStep_refused (x := withTodo rest x) hh htest))
    refine ⟨fun hcf hi => refused hcf (emergTest_refused (.inl hi)),
      fun hcf hi => ⟨fun hst => refused hcf (emergTest_refused (.inr ⟨i, hi, hst⟩)), fun hst hp hl => ?_⟩,
      fun hcf hi hc p hp hearly hlate => ?_⟩
    · -- the first step, kept as pending
      obtain ⟨hhalt, hres, hpend⟩ := enterPending_region (x := withTodo rest x) hrp
        { cmd := 7, target := a, taken := x.cycleNo, slot := n, ticket := ws.getD 1 0 }
      have htwo := twoStep_entered (cx := cx) (n := n) (ticket := ws.getD 1 0)
        (act := dieRouteCmd cx n (bitOf a 13) id RouteCmd.emergency) (x := withTodo rest x) hh
        (emergTest_passed (confirm := false) hi (.inr hst)) hp hl
      exact answers_of_routeResult (i := i) (z := enterPending rp _ (withTodo rest x)) h (hfirst hcf) hrp (OnlyEntry.refl i (withTodo rest x))
        (hhalt.trans hh) hres ((hy false hcf).trans htwo)
        fun t hframe hrep hroutes hwork _ htpend => ⟨hframe, hroutes, hwork, hrep, htpend.trans hpend⟩
    · -- the confirm
      have hm : (Instr.emergReleaseConfirm d, WinCmd.emergRelease) ∈ routeCommands d confirm := by simp [routeCommands, hcf]
      have hhalt : (reg (dropPending rp 7 a (withTodo rest x)) rp).halted = false := (dropPending_halted 7 a _).trans hh
      have hpassed : emergTest (bitOf a 13) true id (dropPending rp 7 a (withTodo rest x)) = none := emergTest_passed hi (.inl rfl)
      have hcarried := twoStep_due (cx := cx) (n := n) (ticket := ws.getD 1 0)
        (act := dieRouteCmd cx n (bitOf a 13) id RouteCmd.emergency) (x := withTodo rest x) hh hp hearly hlate hpassed
      exact answers_of_routeKept h hm (dropPending_regions rp 7 a _) ((hy true hcf).trans (hcarried.trans (dieRouteCmd_kept hhalt hi hc)))

end Sys2Proof.Machine


/-!
PROOFS. Drop requests of the dies (04 R164): O11.
-/

namespace Sys2Proof.Machine

/-! ## The counted requests of one output -/

/-- Die `d` is among the requests counted as `k`. -/
def asksIn (k : Nat) (d : Die) : Bool := decide (k / 2 ^ dieIndex d % 2 = 1)

/-- The requests of an output with that of die `d` counted. -/
def askedToo (d : Die) (k : Nat) : Nat := if (k >>> dieIndex d) % 2 = 1 then k else k + 2 ^ dieIndex d

theorem asksIn_askedToo (d e : Die) (k : Nat) : asksIn (askedToo d k) e = (decide (e = d) || asksIn k e) := by
  rw [Bool.eq_iff_iff]
  unfold asksIn askedToo
  rw [Nat.shiftRight_eq_div_pow, Bool.or_eq_true, decide_eq_true_eq, decide_eq_true_eq, decide_eq_true_eq]
  by_cases h : k / 2 ^ dieIndex d % 2 = 1
  · rw [if_pos h]
    exact ⟨Or.inr, fun he => he.elim (fun he => he ▸ h) id⟩
  · rw [if_neg h]
    cases d <;> cases e <;> simp only [dieIndex, reduceCtorEq, false_or, true_or, iff_true] at h ⊢ <;> omega

theorem dieIndex_lt (d : Die) : dieIndex d < 3 := by cases d <;> decide

/-- The bits of the requests are those of the dies. -/
theorem popCount_asks (k : Nat) : popCount (BitVec.ofNat 3 k) 3 = (allDies.filter (asksIn k)).length := by
  unfold popCount
  rw [show numsFrom 0 3 = allDies.map dieIndex from rfl, List.filter_map, List.length_map]
  refine congrArg List.length (List.filter_congr fun d _ => ?_)
  show (BitVec.ofNat 3 k).getLsbD (dieIndex d) = _
  rw [BitVec.getLsbD_ofNat, Nat.testBit_eq_decide_div_mod_eq, decide_eq_true (dieIndex_lt d), Bool.true_and]
  rfl

/-- Two of three dies decide, and one of fewer. -/
theorem asks_decide {p : Die → Bool} {d : Die} (hd : p d = true) (n : Nat) :
    decide ((if n = 3 then 2 else 1) ≤ (allDies.filter p).length) =
      (decide (n ≠ 3) || allDies.any (fun e => decide (e ≠ d) && p e)) := by
  by_cases hn : n = 3 <;> cases d <;> cases ha : p .a <;> cases hb : p .b <;> cases hc : p .c <;> simp_all [allDies]

/-! ## A request at the voter (04 R164; log entry 27) -/

theorem dropRequest_unowned {v : VoteSt} {o : Nat} (ho : outOwner v o = none) (d : Die) (k : Word) (live : Bool) :
    dropRequest d o k live v = { v with dropDiscards := v.dropDiscards + 1 } := by
  unfold dropRequest
  rw [ho]

theorem dropRequest_barred {v : VoteSt} {d : Die} {o r : Nat} (ho : outOwner v o = some r) (hn : 2 ≤ (availDies v r).length)
    (ha : isAvail v d r = false) (k : Word) (live : Bool) : dropRequest d o k live v = { v with dropDiscards := v.dropDiscards + 1 } := by
  unfold dropRequest
  rw [ho]
  exact if_pos (by simp [hn, ha])

/-- The voter with the request counted, and the drop held where it is decided. -/
def requestCounted (d : Die) (o : Nat) (k : Word) (drop : Bool) (v : VoteSt) : VoteSt :=
  { v with dropReq := putA 0 o (askedToo d (getA 0 v.dropReq o)) v.dropReq, drops := if drop then putA 0 o (k.toNat + 1) v.drops else v.drops }

theorem requestCounted_ite (d : Die) (o : Nat) (k : Word) (b : Bool) (v : VoteSt) :
    (if b = true then { requestCounted d o k false v with drops := putA 0 o (k.toNat + 1) v.drops } else requestCounted d o k false v) =
      requestCounted d o k b v := by
  cases b <;> rfl

theorem dropRequest_counted {v : VoteSt} {d : Die} {o r : Nat} (ho : outOwner v o = some r)
    (ha : (availDies v r).length < 2 ∨ isAvail v d r = true) (k : Word) (live : Bool) :
    dropRequest d o k live v = requestCounted d o k (live && (decide ((availDies v r).length ≠ 3) ||
      allDies.any (fun e => decide (e ≠ d) && asksIn (getA 0 v.dropReq o) e))) v := by
  have hd : asksIn (askedToo d (getA 0 v.dropReq o)) d = true := by simp [asksIn_askedToo]
  have hothers : (fun e => decide (e ≠ d) && asksIn (askedToo d (getA 0 v.dropReq o)) e) =
      fun e => decide (e ≠ d) && asksIn (getA 0 v.dropReq o) e := by
    funext e
    rw [asksIn_askedToo]
    by_cases he : e = d <;> simp [he]
  have hbar : ¬ (decide (2 ≤ (availDies v r).length) && !isAvail v d r) = true := by
    rcases ha with h | h
    · simp [Nat.not_le.mpr h]
    · simp [h]
  unfold dropRequest
  rw [ho]
  dsimp only
  rw [if_neg hbar, ← hothers, ← asks_decide hd, ← popCount_asks]
  exact requestCounted_ite d o k _ v

/-! ## Gate clamps of an output that is not fed (06 R223) -/

theorem switchNo_inj {o p : Nat} {a b : Bool} (h : switchNo p a = switchNo o b) : p = o ∧ a = b := by
  cases a <;> cases b <;> simp [switchNo] at h ⊢ <;> omega

/-- The clamp of a switch whose pump is not fed holds the gate off. -/
theorem clampOpen_refreshClamps {s : State} {o : Nat} {high : Bool} (h : pumpFed s o high = false) :
    getA false (refreshClamps s).clampOpen (switchNo o high) = false := by
  unfold refreshClamps
  dsimp only
  refine List.foldlRecOn (motive := fun m => getA false m (switchNo o high) = false) _ _ rfl fun m hm q _ => ?_
  rw [getA_putA]
  split
  · rename_i hq
    obtain ⟨ho, hhigh⟩ := switchNo_inj hq
    rw [ho, hhigh, h, Bool.false_and]
  · exact hm

theorem pumpFed_dropped {s : State} {o : Nat} (h : isDropped s.vote o = true) (high : Bool) : pumpFed s o high = false := by
  simp [pumpFed, h]

/-! ## A request at the bridle -/

/-- Die `d` counts among the requests for output `o`, whose owner has `n` available dies, and the output is dropped where that decides. -/
def DropCounted (d : Die) (o n : Nat) (s t : State) : Prop :=
  asksIn (getA 0 t.vote.dropReq o) d = true ∧ (∀ e, e ≠ d → asksIn (getA 0 t.vote.dropReq o) e = asksIn (getA 0 s.vote.dropReq o) e) ∧
    isDropped t.vote o = (isDropped s.vote o || (outDriven s o &&
      (decide (n ≠ 3) || allDies.any (fun e => decide (e ≠ d) && asksIn (getA 0 s.vote.dropReq o) e)))) ∧
    (isDropped t.vote o = true → ∀ high, getA false t.clampOpen (switchNo o high) = false) ∧
    (∀ p, p ≠ o → getA 0 t.vote.dropReq p = getA 0 s.vote.dropReq p ∧ isDropped t.vote p = isDropped s.vote p) ∧ t.mode = s.mode

/-- The bridle with a voter that a request has changed. -/
def droppedOuts (v : VoteSt) (s : State) : State := refreshOuts { s with vote := v }

theorem droppedOuts_keeps (v : VoteSt) (s : State) :
    (droppedOuts v s).vote = v ∧ (droppedOuts v s).dies = s.dies ∧ (droppedOuts v s).mode = s.mode := ⟨rfl, rfl, rfl⟩

theorem bridleDrop_eq {s : State} (hl : s.ao.tripLatch = false) (d : Die) (o : Nat) :
    bridleDrop d o s = droppedOuts (dropRequest d o s.cycle (outDriven s o) s.vote) s :=
  if_neg (by simp [hl])

theorem isDropped_requestCounted (d : Die) (o p : Nat) (k : Word) (b : Bool) (v : VoteSt) :
    isDropped (requestCounted d o k b v) p = (isDropped v p || (decide (p = o) && b)) := by
  cases b with
  | false => simp [isDropped, requestCounted]
  | true =>
    by_cases hp : p = o
    · subst hp
      simp [isDropped, requestCounted]
    · simp [isDropped, requestCounted, getA_putA_other 0 _ _ hp, hp]

theorem bridleDrop_counted {s : State} {d : Die} {o r : Nat} (hl : s.ao.tripLatch = false) (ho : outOwner s.vote o = some r)
    (ha : (availDies s.vote r).length < 2 ∨ isAvail s.vote d r = true) :
    DropCounted d o (availDies s.vote r).length s (bridleDrop d o s) ∧ (bridleDrop d o s).dies = s.dies := by
  rw [bridleDrop_eq hl, dropRequest_counted ho ha]
  generalize hb : (outDriven s o && _) = b
  obtain ⟨hvote, hdies, hmode⟩ := droppedOuts_keeps (requestCounted d o s.cycle b s.vote) s
  have hreq : getA 0 (requestCounted d o s.cycle b s.vote).dropReq o = askedToo d (getA 0 s.vote.dropReq o) := getA_putA_self 0 _ o _
  refine ⟨⟨?_, fun e he => ?_, ?_, fun hd high => ?_, fun p hp => ⟨?_, ?_⟩, hmode⟩, hdies⟩
  · rw [hvote, hreq, asksIn_askedToo]
    simp
  · rw [hvote, hreq, asksIn_askedToo]
    simp [he]
  · rw [hvote, isDropped_requestCounted, hb]
    simp
  · exact clampOpen_refreshClamps (pumpFed_dropped (s := onOuts _ { s with vote := requestCounted d o s.cycle b s.vote }) hd high)
  · rw [hvote]
    exact getA_putA_other 0 _ _ hp
  · rw [hvote, isDropped_requestCounted]
    simp [hp]

/-- The parts of the module that neither a die nor the tail holds. -/
def DiesAndTail (s t : State) : Prop := t = { s with dies := t.dies, tail := t.tail }

theorem bridleDrop_counted_after {s u : State} {d : Die} {o r : Nat} (hu : DiesAndTail s u) (hl : s.ao.tripLatch = false)
    (ho : outOwner s.vote o = some r) (ha : (availDies s.vote r).length < 2 ∨ isAvail s.vote d r = true) :
    DropCounted d o (availDies s.vote r).length s (bridleDrop d o u) ∧ (bridleDrop d o u).dies = u.dies := by
  unfold DiesAndTail at hu
  have hvote : u.vote = s.vote := by rw [hu]
  have hmode : u.mode = s.mode := by rw [hu]
  have hdriven : outDriven u o = outDriven s o := by rw [hu]; rfl
  have hao : u.ao = s.ao := by rw [hu]
  have h := bridleDrop_counted (s := u) (d := d) (o := o) (r := r) (by rw [hao]; exact hl) (by rw [hvote]; exact ho)
    (by rw [hvote]; exact ha)
  unfold DropCounted at *
  rwa [hvote, hmode, hdriven] at h

/-! ## DROP (05 R188) -/

/-- A register that names a cell of the own region which binds an output here names that output. -/
theorem dropTarget_named {s : State} {d : Die} {q id : Nat} {ra : BitVec 4} {k : Nat} (hn : NamesCell s d q ra id) (hr : regionOf id = q)
    (hk : k < outCount (getCell (dieOf s d) id)) (hb : bindRemote (getCell (dieOf s d) id) = false) :
    dropTarget (dieOf s d) q ra.toNat k = .inl (outBase (getCell (dieOf s d) id) + k) := by
  obtain ⟨hreg, hid, -⟩ := hn
  have hlow : ((BitVec.ofNat 32 id).extractLsb' 0 12).toNat = id := by
    simp [BitVec.extractLsb'_toNat]
    omega
  have hhigh : (BitVec.ofNat 32 id).extractLsb' 12 20 = 0 := by
    apply BitVec.eq_of_toNat_eq
    simp [BitVec.extractLsb'_toNat]
    omega
  have hsome : cellIdOf (BitVec.ofNat 32 id) = some id := by
    unfold cellIdOf
    rw [if_pos hhigh]
    simp
    omega
  unfold dropTarget
  dsimp only
  rw [show rget (dieOf s d) q ra.toNat = BitVec.ofNat 32 id from hreg, hlow, hsome]
  simp [hr, hb, Nat.not_le.mpr hk]

/-- DROP is executed: its charge, then the request. -/
theorem ruleDrop_goes {s : State} {d : Die} {q ra k o : Nat} (hgo : insGoes s d q 24 = true) (ht : dropTarget (dieOf s d) q ra k = .inl o) :
    ruleDrop d q ra k s = bridleDrop d o (runRule d q 24 knCELL (fun _ x => .ok x) s) := by
  unfold ruleDrop
  simp only [ht, hgo, if_true]

/-- Settles O11: a request that counts is `bridleDrop_counted`; one that does not is discarded at the voter (`dropRequest_unowned`,
`dropRequest_barred`). DROP is the same request after an instruction that changes charge and PC alone (`runRule_ok`). -/
theorem dropRequestsCountByDie : Obligations.DropRequestsCountByDie := by
  intro s d o r
  have hdiscard : s.ao.tripLatch = false → dropRequest d o s.cycle (outDriven s o) s.vote = { s.vote with dropDiscards := s.vote.dropDiscards + 1 } →
      bridleDrop d o s = droppedOuts { s.vote with dropDiscards := s.vote.dropDiscards + 1 } s := fun hl hv => by
    rw [bridleDrop_eq hl, hv]
  refine ⟨fun hl => ⟨_, rfl, if_pos hl⟩, fun hl => ⟨fun ho => ⟨_, rfl, ?_⟩, fun ho hn ha => ⟨_, rfl, ?_⟩, fun ho ha => ⟨_, rfl, ?_⟩, ?_⟩⟩
  · rw [hdiscard hl (dropRequest_unowned ho d _ _)]
    exact droppedOuts_keeps _ s
  · rw [hdiscard hl (dropRequest_barred ho hn ha _ _)]
    exact droppedOuts_keeps _ s
  · exact bridleDrop_counted hl ho ha
  · rintro q ra k id hname hreg hk hbind hft rfl ho ha hF
    obtain ⟨-, hadv, hregs, hstep⟩ := runRule_ok (kind := knCELL) (f := fun _ x => .ok x) (z := addCharge q 24 (dieOf s d)) hft rfl
      (SameButRegion.refl q _) (RegistersOnly.refl _) rfl rfl
    have hx : exec (.drop d q ra k) s = .next (bridleDrop d (outBase (getCell (dieOf s d) id) + k.toNat)
        (runRule d q 24 knCELL (fun _ x => .ok x) s)) :=
      congrArg Host.Outcome.next ((atPc_of_fetched hF rfl _).trans (ruleDrop_goes hft.1 (dropTarget_named hname hreg hk hbind)))
    refine ⟨_, hx, ?_⟩
    generalize runRule d q 24 knCELL (fun _ x => .ok x) s = u at *
    obtain ⟨hu, -, -, hdie⟩ := hstep
    obtain ⟨hcounted, hdies⟩ := bridleDrop_counted_after hu hl ho ha
    have hdieOf : dieOf (bridleDrop d (outBase (getCell (dieOf s d) id) + k.toNat) u) d = dieOf u d := congrArg (triGet · d) hdies
    refine ⟨hcounted, ?_, ?_, sameCells_of_cells ?_⟩ <;> rw [hdieOf]
    · exact hadv
    · exact hregs
    · rw [hdie.1]

end Sys2Proof.Machine


/-!
PROOFS. What passes the budget of a task or of a REVERT run (04 R151, R162): O12.
-/

namespace Sys2Proof.Machine

/-! ## A save block (05 R173, Table 5.2) -/

/-- Words put at distinct places of a block, read back at one of them. -/
theorem memWord_foldl_memPutWord (b : Nat) (v : Nat → Word) (k : Nat) : ∀ (ks : List Nat) (m : List Host.Cell),
    memWord (ks.foldl (fun m j => memPutWord m (b + 4 * j) (v j)) m) (b + 4 * k) = if k ∈ ks then v k else memWord m (b + 4 * k)
  | [], _ => rfl
  | j :: ks, m => by
    rw [List.foldl_cons, memWord_foldl_memPutWord b v k ks]
    by_cases hk : k ∈ ks
    · simp [hk]
    · by_cases hj : k = j
      · subst hj
        simp [memWord_memPutWord_same]
      · simp [hk, hj, memWord_memPutWord_apart _ _ _ _ (show b + 4 * j + 4 ≤ b + 4 * k ∨ b + 4 * k + 4 ≤ b + 4 * j by omega)]

/-- A save block holds the status in its first word and the registers g1 to g15 behind it. -/
theorem memWord_storeSaved (strap : BitVec 2) (m : List Host.Cell) (t : BitVec 4) (g : List (Nat × Word)) (status : Word) :
    memWord (storeSaved strap m t g status) (saveBlock t) = status ∧
      ∀ k, 1 ≤ k → k ≤ 15 → memWord (storeSaved strap m t g status) (saveBlock t + 4 * k) = getG strap g k := by
  refine ⟨memWord_memPutWord_same _ _ _, fun k h1 h15 => ?_⟩
  unfold storeSaved
  rw [memWord_memPutWord_apart _ _ _ _ (Or.inl (by omega)), memWord_foldl_memPutWord,
    if_pos (mem_numsFrom.mpr ⟨h1, by omega⟩)]

/-! ## Stops of a task and of a run -/

theorem RegionsAndClock.logged {x y : DieSt} (h : RegionsAndClock x y) :
    { y with logOut := [] } = { x with regions := y.regions, fastClock := y.fastClock, logOut := [] } := by rw [h]

/-- A stop in region `r` of a die, with the records of the die taken. -/
theorem stopStep_of {d : Die} {r : Nat} {s : State} {f : DieSt → DieSt} (h : RegionsAndClock (dieOf s d) (f (dieOf s d)))
    (hq : ∀ q, q ≠ r → reg (f (dieOf s d)) q = reg (dieOf s d) q) : StopStep d r s (takeDieLogs d (onDie d f s)) := by
  obtain ⟨ht, ho⟩ := dieStep_onDie_logs d f s
  have hd : dieOf (takeDieLogs d (onDie d f s)) d = { f (dieOf s d) with logOut := [] } := by
    rw [dieOf_takeDieLogs, dieOf_onDie_self]
  refine ⟨ht, ho, ?_, fun q hne => ?_⟩
  · rw [hd]
    exact h.logged
  · rw [hd]
    exact hq q hne

theorem doOverrun_region {r : Nat} (hr : r < 16) (x : DieSt) :
    SameButRegion r x (doOverrun r x) ∧
      reg (doOverrun r x) r = { reg x r with
        overIn := (reg x r).overIn || decide (x.phase = phRULESIN), overOut := (reg x r).overOut || decide (x.phase = phRULESOUT),
        posted := setBitOf (reg x r).posted 0xC4 true, mem := storeSaved x.strap (reg x r).mem (reg x r).task (reg x r).g svOVERRUN,
        g := [], task := 0, dirty := putA false 188 true (reg x r).dirty } := by
  unfold doOverrun closeTask postEvent
  refine ⟨((sameButRegion_modReg r x _).trans (sameButRegion_modReg r _ _)).trans (sameButRegion_modReg r _ _), ?_⟩
  rw [reg_modReg_self _ hr, reg_modReg_self _ hr, reg_modReg_self _ hr]
  rfl

/-- The end of a REVERT run clears its registers; a run that was stopped loses the sources that it has not delivered (05 R182). -/
theorem endRevert_region {r : Nat} (hr : r < 16) (stopped : Bool) (x : DieSt) :
    RegionsAndClock x (endRevert r stopped x) ∧ (∀ q, q ≠ r → reg (endRevert r stopped x) q = reg x q) ∧
      reg (endRevert r stopped x) r = { reg x r with
        revert := false, rg := [], rpc := 0, rcharge := 0, revCur := 0xFF, mem := memClear (reg x r).mem memSCRATCH (memSCRATCH + 0x400),
        revDiscards := if stopped then (reg x r).revDiscards + popCount (reg x r).pend 192 else (reg x r).revDiscards,
        pend := if stopped then 0 else (reg x r).pend } := by
  unfold endRevert
  dsimp only
  generalize hy : modReg x r _ = y
  have hone : RegionsOnly x y := hy ▸ rfl
  refine ⟨hone.regionsAndClock.trans (idleClock_only y), fun q hq => ?_, ?_⟩ <;> rw [reg_of_regions (regions_idleClock y), ← hy]
  · exact reg_modReg_other x hq _
  · exact reg_modReg_self x hr _

theorem doRevertOverrun_region {r : Nat} (hr : r < 16) (x : DieSt) :
    RegionsAndClock x (doRevertOverrun r x) ∧ (∀ q, q ≠ r → reg (doRevertOverrun r x) q = reg x q) ∧
      let b := reg (doRevertOverrun r x) r
      bitOf b.posted 0xC4 = true ∧ b.forceNext = true ∧ b.revOver = true ∧ b.revert = false ∧ b.rg = [] ∧ b.pend = 0 := by
  unfold doRevertOverrun postEvent
  generalize hy : modReg (modReg x r _) r _ = y
  have hmarked : RegionsOnly x y := hy ▸ rfl
  obtain ⟨honly, hothers, hreg⟩ := endRevert_region hr true y
  refine ⟨hmarked.regionsAndClock.trans honly, fun q hq => ?_, ?_⟩
  · rw [hothers q hq, ← hy, reg_modReg_other _ hq, reg_modReg_other _ hq]
  · dsimp only
    rw [hreg, ← hy, reg_modReg_self _ hr, reg_modReg_self _ hr]
    exact ⟨bitOf_setBitOf_true _ (by decide), rfl, rfl, rfl, rfl, rfl⟩

/-- The region of a die whose step `f` has been taken with its records. -/
theorem reg_of_taken {s : State} {d : Die} {f : DieSt → DieSt} {y : DieSt} (hf : f (dieOf s d) = y) (r : Nat) :
    reg (dieOf (takeDieLogs d (onDie d f s)) d) r = reg y r := by
  rw [dieOf_takeDieLogs, dieOf_onDie_self, hf]
  rfl

theorem overran_of_doRevertOverrun {s : State} {d : Die} {r : Nat} (hr : r < 16) {f : DieSt → DieSt}
    (hv : inRevert (dieOf s d) r = true) (hf : f (dieOf s d) = doRevertOverrun r (dieOf s d)) :
    Overran d r s (takeDieLogs d (onDie d f s)) := by
  obtain ⟨hclock, hothers, hposted, hends⟩ := doRevertOverrun_region hr (dieOf s d)
  rw [← hf] at hclock hothers
  unfold Overran
  dsimp only
  rw [reg_of_taken hf, show (reg (dieOf s d) r).revert = true from hv, if_pos rfl]
  exact ⟨hposted, hends, stopStep_of hclock hothers⟩

theorem overran_of_doOverrun {s : State} {d : Die} {r : Nat} (hr : r < 16) {f : DieSt → DieSt}
    (hv : inRevert (dieOf s d) r = false) (hf : f (dieOf s d) = doOverrun r (dieOf s d)) :
    Overran d r s (takeDieLogs d (onDie d f s)) := by
  obtain ⟨⟨honly, hothers⟩, hb⟩ := doOverrun_region hr (dieOf s d)
  obtain ⟨hstatus, hsaved⟩ := memWord_storeSaved (dieOf s d).strap (reg (dieOf s d) r).mem (reg (dieOf s d) r).task (reg (dieOf s d) r).g svOVERRUN
  have hregs : ∀ k, 1 ≤ k → rget (dieOf s d) r k = getG (dieOf s d).strap (reg (dieOf s d) r).g k := fun k hk => by
    unfold rget
    rw [if_neg (by omega), hv, if_neg Bool.false_ne_true]
  rw [← hf] at honly hothers
  unfold Overran SavedWith
  dsimp only
  rw [reg_of_taken hf, hb, show (reg (dieOf s d) r).revert = false from hv, if_neg Bool.false_ne_true]
  exact ⟨bitOf_setBitOf_true _ (by decide), ⟨rfl, ⟨hstatus, fun k h1 h15 => (hsaved k h1 h15).trans (hregs k h1).symm⟩, rfl, rfl⟩,
    stopStep_of (RegionsOnly.regionsAndClock honly) hothers⟩

/-- An instruction that would pass the budget is not executed: the run ends, or the task stops. -/
theorem runRule_overran {s : State} {d : Die} {r c : Nat} (kind : Nat) (f : Ctx → DieSt → InsRes) (hcan : canRun (dieOf s d) r = true)
    (hb : curBudget (ctxOf s) (dieOf s d) r < curCharge (dieOf s d) r + c) : Overran d r s (runRule d r c kind f s) := by
  have hr : r < 16 := by simp_all [canRun]
  have hover := runIns_over (k := kind) (f := f (ctxOf s)) hcan hb
  cases hv : inRevert (dieOf s d) r with
  | true => exact overran_of_doRevertOverrun hr hv (by rw [hover, hv, if_pos rfl])
  | false => exact overran_of_doOverrun hr hv (by rw [hover, hv, if_neg Bool.false_ne_true])

/-! ## The rows -/

theorem insGoes_over {s : State} {d : Die} {r c : Nat} (hb : curBudget (ctxOf s) (dieOf s d) r < curCharge (dieOf s d) r + c) :
    insGoes s d r c = false := by
  simp [insGoes, hb]

/-- A load or DROP that passes the budget is nothing but its stop. -/
theorem ruleLoad_over {s : State} {d : Die} {r rd ra n : Nat} {imm : BitVec 18} {e : Ecc}
    (hb : curBudget (ctxOf s) (dieOf s d) r < curCharge (dieOf s d) r + 12) :
    ruleLoad d r rd ra imm n e s = runRule d r 12 knLDST (fun cx x => insLoad cx r rd ra imm n x) s := by
  unfold ruleLoad
  simp [insGoes_over hb]

theorem ruleDrop_over {s : State} {d : Die} {r ra k : Nat} (hb : curBudget (ctxOf s) (dieOf s d) r < curCharge (dieOf s d) r + 24) :
    ∃ f, ruleDrop d r ra k s = runRule d r 24 knCELL f s := by
  unfold ruleDrop
  simp only [insGoes_over hb, Bool.false_eq_true, if_false]
  cases dropTarget (dieOf s d) r ra k with
  | inl o => exact ⟨fun _ x => .ok x, rfl⟩
  | inr c => exact ⟨fun _ _ => .trap c, rfl⟩

/-- A row of rule code that passes the budget answers as an instruction of `runRule` of its charge. -/
theorem exec_over {s : State} {i : Instr} {d : Die} {r c : Nat} (hc : chargeOf s i = some (d, r, c)) (hF : Fetched i s)
    (hb : curBudget (ctxOf s) (dieOf s d) r < curCharge (dieOf s d) r + c) :
    ∃ kind f, exec i s = .next (runRule d r c kind f s) := by
  unfold chargeOf at hc
  split at hc
  case h_42 => cases hc
  all_goals
    simp only [Option.some.injEq, Prod.mk.injEq] at hc
    obtain ⟨rfl, rfl, rfl⟩ := hc
  case h_1 | h_2 | h_3 => exact ⟨_, _, congrArg Host.Outcome.next ((atPc_of_fetched hF rfl _).trans (ruleLoad_over hb))⟩
  case h_39 =>
    obtain ⟨f, hf⟩ := ruleDrop_over hb
    exact ⟨_, f, congrArg Host.Outcome.next ((atPc_of_fetched hF rfl _).trans hf)⟩
  all_goals exact ⟨_, _, congrArg Host.Outcome.next (atPc_of_fetched hF rfl _)⟩

/-- Nothing but the taking of its records happens to a die whose step leaves it as it is. -/
theorem dieOf_taken_self {s : State} {d : Die} {f : DieSt → DieSt} (hf : f (dieOf s d) = dieOf s d) :
    dieOf (takeDieLogs d (onDie d f s)) d = { dieOf s d with logOut := [] } := by
  rw [dieOf_takeDieLogs, dieOf_onDie_self, hf]

/-- Settles O12: each row that passes the budget is an instruction of `runRule` (`exec_over`), which `runRule_overran` stops; the two
overrun rows are the stop itself. -/
theorem overrunsStopAtTheBudget : Obligations.OverrunsStopAtTheBudget := by
  intro s d r hcan
  have hr : r < 16 := by simp_all [canRun]
  refine ⟨fun i c hc hb hF => ?_, fun ho hv => ⟨_, rfl, ?_⟩, fun ho hv => ⟨_, rfl, ?_⟩, fun ho => ⟨⟨_, rfl, ?_⟩, ⟨_, rfl, ?_⟩⟩⟩
  · obtain ⟨kind, f, hx⟩ := exec_over hc hF hb
    exact ⟨_, hx, runRule_overran kind f hcan hb⟩
  · exact overran_of_doOverrun hr hv (if_pos (by simp [ho, hv]))
  · exact overran_of_doRevertOverrun hr hv (if_pos (by simp [ho, hv]))
  · exact dieOf_taken_self (if_neg (by simp [ho]))
  · exact dieOf_taken_self (if_neg (by simp [ho]))

end Sys2Proof.Machine


/-!
PROOFS. Faults of a pair and its real clocks (04 R146, 05 R169): O13.
-/

namespace Sys2Proof.Machine

/-! ## What an exclusion shows (06 R215; 13 R391) -/

theorem overlaysIn_degraded {m : Mode} (hsafe : m ≠ .safe) (hshut : m ≠ .shutdown) (a b : Overlays) :
    (overlaysIn m a b).degraded = b.degraded := by
  unfold overlaysIn
  cases m <;> simp_all

theorem abortChange_degraded {s : State} (hsafe : s.mode ≠ .safe) (hshut : s.mode ≠ .shutdown) (k : BitVec 8) :
    (abortChange k s).overlays.degraded = s.overlays.degraded := by
  unfold abortChange
  split
  · rfl
  · exact (congrArg Overlays.degraded (setOverlays_overlays _ _)).trans (overlaysIn_degraded hsafe hshut _ _)

/-- An exclusion sets DEGRADED where the mode lets it change. -/
theorem excludeCopy_degraded {d : Die} {r : Nat} {s : State} (c : ExclCause) (hx : isExcluded (copyOf s.vote d r) = false)
    (hsafe : s.mode ≠ .safe) (hshut : s.mode ≠ .shutdown) : (excludeCopy d r c s).overlays.degraded = true := by
  unfold excludeCopy
  rw [if_neg (by simp [hx])]
  refine (abortChange_degraded ?_ ?_ _).trans
    ((congrArg Overlays.degraded (setOverlays_overlays _ _)).trans (overlaysIn_degraded hsafe hshut _ _))
  · rw [setOverlays_mode]
    exact hsafe
  · rw [setOverlays_mode]
    exact hshut

/-! ## A halt of a region (01 R39) -/

/-- A halt stops the region and lets its tokens fall; the fast clock may rest. -/
theorem haltRegion_die (d : Die) (r : Nat) (s : State) :
    RegionsAndClock (dropRegion r (dieOf s d)) (dieOf (haltRegion d r s) d) := by
  unfold haltRegion
  rw [dieOf_onDie_self]
  exact RegionsAndClock.trans (by exact rfl) (idleClock_only _)

/-! ## A fault of a pair (05 R169) -/

/-- The fault stands in the region and in the die's log. -/
def faultNoted (d : Die) (w : PairRec) (s : State) : State :=
  onDie d (fun x => modReg { x with faultLog := x.faultLog ++ [w] } w.region (fun g => { g with pairFault := some w })) s

/-- The region has halted on a fault of its pair, which is recorded; its copy is yet to be excluded. -/
def faultHalted (d : Die) (w : PairRec) (s : State) : State :=
  logOpen cdPAIRFAULT (strapIdent (dieOf s d)) w.region w.kind.toNat (w.kind ++ w.clock ++ w.lines)
    (haltRegion d w.region (faultNoted d w s))

theorem reg_faultHalted {w : PairRec} (hr : w.region < 16) (d : Die) (s : State) :
    reg (dieOf (faultHalted d w s) d) w.region =
      { reg (dieOf s d) w.region with pairFault := some w, halted := true, task := 0, revert := false } := by
  have hnoted : reg (dieOf (faultNoted d w s) d) w.region = { reg (dieOf s d) w.region with pairFault := some w } := by
    unfold faultNoted
    rw [dieOf_onDie_self, reg_modReg_self _ hr]
    rfl
  unfold faultHalted
  rw [dieOf_logOpen, reg_haltRegion_self hr, hnoted]

theorem dieOf_faultHalted (d : Die) (w : PairRec) (s : State) :
    (dieOf (faultHalted d w s) d).faultLog = (dieOf s d).faultLog ++ [w] ∧
      (dieOf (faultHalted d w s) d).flights = (dieOf s d).flights.filter (fun f => decide (placeRegion f.place ≠ w.region)) := by
  have hnoted : RegionsOnly { dieOf s d with faultLog := (dieOf s d).faultLog ++ [w] } (dieOf (faultNoted d w s) d) := by
    unfold faultNoted
    rw [dieOf_onDie_self]
    rfl
  have hhalt := haltRegion_die d w.region (faultNoted d w s)
  unfold faultHalted
  rw [dieOf_logOpen, hhalt]
  unfold dropRegion
  rw [hnoted]
  exact ⟨rfl, rfl⟩

/-- What the fault `w` of a pair leaves of the module: the region halted, the fault in both places, the copy excluded. -/
def PairHalted (d : Die) (w : PairRec) (s t : State) : Prop :=
  (reg (dieOf t d) w.region).halted = true ∧ (reg (dieOf t d) w.region).task = 0 ∧ (reg (dieOf t d) w.region).revert = false ∧
    (reg (dieOf t d) w.region).pairFault = some w ∧ (dieOf t d).faultLog = (dieOf s d).faultLog ++ [w] ∧
    isExcluded (copyOf t.vote d w.region) = true ∧
    (isExcluded (copyOf s.vote d w.region) = false → s.mode ≠ .safe → s.mode ≠ .shutdown → t.overlays.degraded = true) ∧
    (dieOf t d).flights = (dieOf s d).flights.filter (fun f => decide (placeRegion f.place ≠ w.region)) ∧
    (reg (dieOf t d) w.region).mem = (reg (dieOf s d) w.region).mem ∧ t.mode = s.mode ∧ t.outs = s.outs ∧ t.ins = s.ins ∧ t.links = s.links

theorem faultHalted_halts {w : PairRec} (hr : w.region < 16) (d : Die) (s : State) :
    PairHalted d w s (excludeCopy d w.region .halted (faultHalted d w s)) := by
  obtain ⟨hlog, hflights⟩ := dieOf_faultHalted d w s
  obtain ⟨hdie, hregs⟩ := excludeCopy_posts d w.region .halted (faultHalted d w s) d
  have hreg := hregs w.region
  have heq := excludeCopy_eq d w.region .halted (faultHalted d w s)
  rw [reg_faultHalted hr] at hreg
  exact ⟨by rw [hreg], by rw [hreg], by rw [hreg], by rw [hreg], by rw [hdie]; exact hlog, excludeCopy_excluded hr _ _ _,
    fun hx hsafe hshut => excludeCopy_degraded _ hx hsafe hshut, by rw [hdie]; exact hflights, by rw [hreg], by rw [heq]; rfl,
    by rw [heq]; rfl, by rw [heq]; rfl, by rw [heq]; rfl⟩

/-- A fault acts on a region that runs, in a die whose fast clock runs. -/
theorem pairFault_halts {s : State} {d : Die} {r : Nat} (hf : (dieOf s d).fastClock = true) (hr : r < 16)
    (hh : (reg (dieOf s d) r).halted = false) (kind : BitVec 8) (clock : BitVec 24) (lines : Word) :
    PairHalted d { kind := kind, region := r, clock := clock, lines := lines } s (pairFault kind d r clock lines s) := by
  have hacts : pairFault kind d r clock lines s =
      excludeCopy d r .halted (faultHalted d { kind := kind, region := r, clock := clock, lines := lines } s) :=
    if_neg (by simp [hf, hh, Nat.not_le.mpr hr])
  rw [hacts]
  exact faultHalted_halts (w := { kind := kind, region := r, clock := clock, lines := lines }) hr d s

theorem pairFault_clockOff {s : State} {d : Die} (hf : (dieOf s d).fastClock = false) (kind : BitVec 8) (r : Nat) (clock : BitVec 24)
    (lines : Word) : pairFault kind d r clock lines s = s := if_pos (by simp [hf])

/-- Settles O13: a fault of a pair halts its region and excludes the copy (`pairFault_halts`), unless the fast clock of its die rests; the
real clock stops the pair for the cycle. -/
theorem pairFaultsHaltTheRegion : Obligations.PairFaultsHaltTheRegion := by
  intro s d r clock lines hr hh
  refine ⟨fun hf => ⟨⟨_, rfl, pairFault_halts hf hr hh 1 clock lines⟩, ⟨_, rfl, pairFault_halts hf hr hh 2 clock 0⟩⟩,
    fun hf => ⟨⟨_, rfl, pairFault_clockOff hf 1 r clock lines⟩, ⟨_, rfl, pairFault_clockOff hf 2 r clock 0⟩⟩, fun hph hrev hc => ?_⟩
  have hstop : realClockHalt (ctxOf s) r (dieOf s d) = modReg (dieOf s d) r (fun g => { g with haltCycle := true, task := 0 }) :=
    if_pos (by simp [hph, hr, hh, hrev, hc])
  refine ⟨_, rfl, ?_⟩
  dsimp only
  rw [dieOf_onDie_self, hstop]
  exact ⟨reg_modReg_self _ hr _, fun q hq => reg_modReg_other _ hq _, rfl, dieStep_onDie d _ s⟩

end Sys2Proof.Machine


/-!
PROOFS. The charge of RULES_IN in a region that is halted (04 R145, 15 R444): O15 fails.
-/

namespace Sys2Proof.Machine

/-! ## Charge after RULES_IN (04 R145) -/

/-- Reconciliation of routes leaves the regions as they are. -/
theorem reconcileTerr_regions (cx : Ctx) (es : List TerrEntry) (x : DieSt) (t : Nat) : (reconcileTerr cx es x t).regions = x.regions := by
  unfold reconcileTerr
  refine List.foldlRecOn (motive := fun (y : DieSt) => y.regions = x.regions) _ _ rfl fun y hy i _ => ?_
  dsimp only
  split
  · exact hy
  · split
    · split
      · exact hy
      · split <;> exact hy
    · exact hy

theorem reconciled_regions (s : State) (x : DieSt) : (reconciled s x).regions = x.regions :=
  List.foldlRecOn (motive := fun (y : DieSt) => y.regions = x.regions) _ _ rfl fun z hz t _ => (reconcileTerr_regions _ _ z t).trans hz

theorem postedIn_posts (s : State) (old x : DieSt) : PostsOnly x (postedIn s old x) := by
  refine List.foldlRecOn _ _ (PostsOnly.refl x) fun y hy r _ => hy.trans ?_
  dsimp only
  split
  · split
    · exact (postEvent_only r 0xC1 y).trans (postEvent_only r 0xC0 _)
    · exact postEvent_only r 0xC0 y
  · split
    · exact postEvent_only r 0xC1 y
    · exact PostsOnly.refl y

theorem regions_mapCells (x : DieSt) (f : Nat → CellRec → CellRec) : (mapCells x f).regions = x.regions := rfl

theorem PostsOnly.charge_eq {x y : DieSt} (h : PostsOnly x y) (r : Nat) : (reg y r).charge = (reg x r).charge := by rw [h.2 r]

theorem TaskStarts.charge_eq {a b : RegionSt} (h : TaskStarts a b) : b.charge = a.charge := by rw [h]

theorem tasksIfIdle_charge (s : State) (x : DieSt) (r : Nat) : (reg (tasksIfIdle s x) r).charge = (reg x r).charge := by
  unfold tasksIfIdle
  split
  · exact ((startTasksIn_starts s.part x).2 r).charge_eq
  · rfl

/-- What a region is charged before its tasks start is the supervisor's charge and the carry-over, and nothing later in the step adds
to it. -/
theorem charge_dieRulesIn (s : State) (x : DieSt) (r : Nat) : (reg (dieRulesIn s x) r).charge = (reg (steppingDie s x) r).charge := by
  rw [dieRulesIn_eq, tasksIfIdle_charge, reg_of_regions (reconciled_regions s _), (postedIn_posts s _ _).charge_eq,
    reg_of_regions (regions_mapCells _ _)]

/-- A region that is halted makes no carry-over, and is charged none. -/
theorem charge_steppingDie_of_halted (s : State) (x : DieSt) {r : Nat} (hr : r < 16) (hh : (reg x r).halted = true) :
    (reg (steppingDie s x) r).charge = 8000 := by
  have hb : reg (rulesInBegun s x) r = reg x r := rfl
  unfold steppingDie
  rw [reg_mapRegs _ _ hr, hb]
  simp [hh]

theorem charge_afterRulesIn (d : Die) (s : State) (r : Nat) :
    (reg (dieOf (afterRulesIn d s) d) r).charge = (reg (steppingDie s (dieOf s d)) r).charge :=
  ((afterRulesIn_die d s).charge_eq r).trans (charge_dieRulesIn s (dieOf s d) r)

/-- What RULES_IN answers of a die in SAMPLE holds of the module after it. -/
theorem afterRulesIn_of_answers {d : Die} {s : State} {P : State → Prop} (hp : (dieOf s d).phase = phSAMPLE)
    (h : Answers (.rulesIn d) s P) : P (afterRulesIn d s) := by
  obtain ⟨t, hx, ht⟩ := h
  have he : Host.Outcome.next (afterRulesIn d s) = Host.Outcome.next t := (execRulesIn_sample hp).symm.trans hx
  rw [Host.Outcome.next.inj he]
  exact ht

/-! ## The counterexample -/

/-- A variable of a map. -/
def carriedVar : VarEntry :=
  { id := 1, typ := 1, safeValid := false, safeValue := false, words := 1, offset := 0, init := 0, source := 0 }

/-- Die A in SAMPLE of cycle 0, in which a carry-over from a map of one variable in region 0 is due; region 0 is halted. -/
def carryHalted : State :=
  onDie .a (fun x => modReg { x with phase := phSAMPLE } 0 (fun g => { g with halted := true }))
    { State.reset with change := { changeReset with
        carryAt := some 0, oldImage := { stationNone with regions := [(0, { code := [], varmap := [carriedVar] })] } } }

theorem carryHalted_due : (dieOf carryHalted .a).phase = phSAMPLE ∧ (reg (dieOf carryHalted .a) 0).halted = true ∧
    carryHalted.change.carryAt = some (dieOf carryHalted .a).cycleNo ∧ carryCharge carryHalted.change.oldImage carryHalted.part 0 = 10 := by
  decide

/-- Refutes O15: RULES_IN charges the carry-over to the regions that make it. In `carryHalted` region 0 is halted and makes none; its charge
is 8,000, where the statement asks for 8,010. -/
theorem not_phasesFollowInOrder : ¬ Obligations.PhasesFollowInOrder := by
  intro h
  obtain ⟨hphase, hhalted, hdue, hcarry⟩ := carryHalted_due
  obtain ⟨-, -, hrules, -⟩ := h carryHalted .a
  obtain ⟨-, -, hregs⟩ := afterRulesIn_of_answers hphase (hrules hphase)
  obtain ⟨-, -, hcharge⟩ := hregs 0 (by decide)
  rw [charge_afterRulesIn, charge_steppingDie_of_halted _ _ (by decide) hhalted, if_pos hdue, hcarry] at hcharge
  exact absurd hcharge (by decide)

end Sys2Proof.Machine



/-!
PROOFS. What a boundary publishes, and what it leaves of the outputs and of the vote (04 R143, 17 R466, R476): for O29.
-/

namespace Sys2Proof.Machine

/-! ## The published parts (09 R302, 10 R321, 17 R466, R476 to R479) -/

/-- The parts of the module that what a boundary sends and publishes may change. -/
def PublishFrame (s t : State) : Prop :=
  t = { s with win := t.win, tail := t.tail, dies := t.dies, links := t.links, faultCounts := t.faultCounts,
               ao := { s.ao with rtcSec := t.ao.rtcSec, rtcSub := t.ao.rtcSub } }

theorem PublishFrame.refl (s : State) : PublishFrame s s := rfl

theorem PublishFrame.trans {s t u : State} (h : PublishFrame s t) (k : PublishFrame t u) : PublishFrame s u := by
  unfold PublishFrame at *
  rw [k, h]

theorem PublishFrame.foldl {α : Type} {f : State → α → State} (h : ∀ s a, PublishFrame s (f s a)) (l : List α) (s : State) :
    PublishFrame s (l.foldl f s) :=
  List.foldlRecOn _ _ (PublishFrame.refl s) fun _ ht a _ => ht.trans (h _ a)

theorem PublishFrame.onWin (f : WinSt → WinSt) (s : State) : PublishFrame s (onWin f s) := rfl

theorem PublishFrame.onTail (f : TailSt → TailSt) (s : State) : PublishFrame s (onTail f s) := rfl

theorem PublishFrame.onLinks (f : LinksSt → LinksSt) (s : State) : PublishFrame s (onLinks f s) := rfl

theorem PublishFrame.onDies (f : Die → DieSt → DieSt) (s : State) : PublishFrame s (onDies f s) := rfl

theorem PublishFrame.logOpen (c : BitVec 16) (u p i : Nat) (k : BitVec 64) (s : State) : PublishFrame s (logOpen c u p i k s) := rfl

theorem PublishFrame.logData (c : BitVec 16) (u p i : Nat) (k : BitVec 64) (s : State) : PublishFrame s (logData c u p i k s) := rfl

theorem countFault_frame (n : Nat) (s : State) : PublishFrame s (countFault n s) := rfl

theorem queueIdle_frame (k : Word) (s : State) (n : Nat) : PublishFrame s (queueIdle k s n) := by
  unfold queueIdle
  split
  · exact .onLinks _ s
  · exact .refl s

theorem sendIdles_frame (k : Word) (s : State) : PublishFrame s (sendIdles k s) := by
  unfold sendIdles
  split
  · exact (PublishFrame.onLinks dropStale s).trans (.foldl (queueIdle_frame k) _ _)
  · exact .refl s

theorem queueRecord_frame (k : Word) (q : State × List (Nat × Nat)) (p : PayRec) : PublishFrame q.1 (queueRecord k q p).1 := by
  unfold queueRecord
  dsimp only
  split
  · exact .onLinks _ q.1
  · split
    · exact (PublishFrame.onLinks _ q.1).trans (.logOpen ..)
    · dsimp only
      exact .onLinks _ q.1

theorem releaseTelegrams_frame (k : Word) (s : State) : PublishFrame s (releaseTelegrams k s) := by
  unfold releaseTelegrams
  dsimp only
  have hrecords : ∀ (ps : List PayRec) (q : State × List (Nat × Nat)), PublishFrame q.1 (ps.foldl (queueRecord k) q).1 := fun ps q =>
    List.foldlRecOn (motive := fun u => PublishFrame q.1 u.1) _ _ (PublishFrame.refl _) fun u hu p _ => hu.trans (queueRecord_frame k u p)
  have hfaults : ∀ (l : List Unit) (u : State), PublishFrame u (l.foldl (fun s _ => countFault bfPayload s) u) := fun l u =>
    .foldl (fun u _ => countFault_frame bfPayload u) l u
  refine ((PublishFrame.onLinks dropStale s).trans (hrecords _ _)).trans ((hfaults _ _).trans (.foldl (fun u n => ?_) _ _))
  split
  · exact queueIdle_frame k u n
  · exact .refl u

theorem publishFrozen_frame (s u : State) : PublishFrame u (publishFrozen s u) := by
  unfold publishFrozen
  exact .onWin _ u

theorem rtcDue_frame (s : State) : PublishFrame s (rtcDue s) := by
  unfold rtcDue
  split
  · rfl
  · rfl

theorem ackSpools_frame (s : State) : PublishFrame s (ackSpools s) := by
  unfold ackSpools
  exact ((PublishFrame.onDies _ s).trans (.onLinks _ _)).trans (.onTail _ _)

theorem publishSpools_frame (s : State) : PublishFrame s (publishSpools s) := by
  unfold publishSpools
  refine ((PublishFrame.onWin _ s).trans (ackSpools_frame _)).trans (.foldl (fun u i => ?_) _ _)
  dsimp only
  split
  · exact .logData ..
  · exact .refl u

theorem publishAuth_frame (s : State) : PublishFrame s (publishAuth s) := by
  unfold publishAuth
  exact .onWin _ s

theorem returnPages_frame (ks : List Nat) (s : State) : PublishFrame s (returnPages ks s) := by
  unfold returnPages
  exact .onWin _ s

theorem winHeader_frame (s : State) : PublishFrame s (winHeader s) := by
  unfold winHeader
  exact .onWin _ s

theorem publishBoundary_frame (s : State) : PublishFrame s (publishBoundary s) := by
  have hdue := (returnPages_frame ((numsFrom 0 32).filter (fun k => pageOver k s)) s).trans
    ((PublishFrame.onTail (supDueAll (stampOf s)) _).trans (rtcDue_frame _))
  unfold publishBoundary
  exact ((hdue.trans (publishSpools_frame _)).trans (publishAuth_frame _)).trans ((PublishFrame.onWin _ _).trans (winHeader_frame _))

/-! ## The latches and what holds them (08 R260, R279 to R282) -/

/-- An output keeps its command latches and its locks. -/
def CellHeld (a b : OutCell) : Prop := b.latchH = a.latchH ∧ b.latchL = a.latchL ∧ b.hsHeld = a.hsHeld ∧ b.lsHeld = a.lsHeld

/-- The outputs keep every latch and every rank that holds one. -/
structure OutsHeld (x y : OutSt) : Prop where
  stoppedH : y.stoppedH = x.stoppedH
  stoppedL : y.stoppedL = x.stoppedL
  cut : ∀ g, (groupSt y g).cut = (groupSt x g).cut
  held : ∀ g, (groupSt y g).held = (groupSt x g).held
  cells : ∀ o, CellHeld (outCell x o) (outCell y o)

theorem CellHeld.refl (c : OutCell) : CellHeld c c := ⟨rfl, rfl, rfl, rfl⟩

theorem CellHeld.trans {a b c : OutCell} (h : CellHeld a b) (k : CellHeld b c) : CellHeld a c := by
  obtain ⟨h1, h2, h3, h4⟩ := h
  obtain ⟨k1, k2, k3, k4⟩ := k
  exact ⟨k1.trans h1, k2.trans h2, k3.trans h3, k4.trans h4⟩

theorem OutsHeld.refl (x : OutSt) : OutsHeld x x := ⟨rfl, rfl, fun _ => rfl, fun _ => rfl, fun _ => .refl _⟩

theorem OutsHeld.trans {x y z : OutSt} (h : OutsHeld x y) (k : OutsHeld y z) : OutsHeld x z :=
  ⟨k.stoppedH.trans h.stoppedH, k.stoppedL.trans h.stoppedL, fun g => (k.cut g).trans (h.cut g), fun g => (k.held g).trans (h.held g),
    fun o => (h.cells o).trans (k.cells o)⟩

theorem OutsHeld.foldl {α : Type} {f : OutSt → α → OutSt} (h : ∀ x a, OutsHeld x (f x a)) (l : List α) (x : OutSt) :
    OutsHeld x (l.foldl f x) :=
  List.foldlRecOn _ _ (OutsHeld.refl x) fun _ ht a _ => ht.trans (h _ a)

theorem outCell_putOutCell (o p : Nat) (c : OutCell) (x : OutSt) : outCell (putOutCell o c x) p = if o = p then c else outCell x p :=
  getA_putA _ c o p x.outs

theorem OutsHeld.putOutCell {o : Nat} {c : OutCell} {x : OutSt} (h : CellHeld (outCell x o) c) : OutsHeld x (putOutCell o c x) := by
  refine ⟨rfl, rfl, fun _ => rfl, fun _ => rfl, fun p => ?_⟩
  rw [outCell_putOutCell]
  split
  · rename_i hp
    exact hp ▸ h
  · exact .refl _

theorem refreshE_held (cx : OutCx) (o : Nat) (x : OutSt) : OutsHeld x (refreshE cx o x) := by
  unfold refreshE
  dsimp only
  split
  · exact .refl x
  · exact .putOutCell ⟨rfl, rfl, rfl, rfl⟩

theorem refreshAllE_held (cx : OutCx) (x : OutSt) : OutsHeld x (refreshAllE cx x) := .foldl (fun y o => refreshE_held cx o y) _ x

theorem noteDrive_held (ms : Nat) (ws : List (Nat × Word)) (x : OutSt) : OutsHeld x (noteDrive ms ws x) := by
  refine .foldl (fun y p => ?_) ws x
  split
  · exact .putOutCell ⟨rfl, rfl, rfl, rfl⟩
  · exact .refl y

theorem groupSt_markShown (k : Word) (x : OutSt) (g : Nat) : groupSt (markShown k x) g =
    if (groupSt x g).held && (groupSt x g).shownAt.isNone then { groupSt x g with shownAt := some k } else groupSt x g :=
  getA_mapA groupReset (fun _ q => if q.held && q.shownAt.isNone then { q with shownAt := some k } else q) g rfl x.groups

theorem markShown_held (k : Word) (x : OutSt) : OutsHeld x (markShown k x) := by
  refine ⟨rfl, rfl, fun g => ?_, fun g => ?_, fun _ => .refl _⟩ <;> rw [groupSt_markShown] <;> split <;> rfl

/-! ## RELEASE at the latches (08 R260, R279, R280) -/

/-- No rank but a lock holds the latches of the output. -/
def latchesFree (x : OutSt) (o : Nat) : Bool :=
  !(groupSt x (outGroup o)).cut && !(groupSt x (outGroup o)).held && !x.stoppedH && !x.stoppedL

/-- The latches of an output follow the images, as far as no rank holds them. -/
def Follows (h l : BitVec 96) (x : OutSt) (o : Nat) : Prop :=
  (outCell x o).latchH = (bitOf h o && latchesFree x o && !(outCell x o).hsHeld) ∧
    (outCell x o).latchL = (bitOf l o && latchesFree x o && !(outCell x o).lsHeld)

/-- The images at the latches of one output. -/
def applyCell (h l : BitVec 96) (x : OutSt) (o : Nat) : OutSt :=
  modOutCell o (fun c => { c with latchH := bitOf h o && latchesFree x o && !c.hsHeld, latchL := bitOf l o && latchesFree x o && !c.lsHeld }) x

/-- The outputs before the images of cycle `k` come to their latches. -/
def letGo (k : Word) (e : BitVec 96) (x : OutSt) : OutSt :=
  { x with groups := mapA groupReset (fun _ g => groupLetGo k g) x.groups, expect := e }

theorem applyImages_eq (cx : OutCx) (k : Word) (h l e : BitVec 96) (x : OutSt) :
    applyImages cx k h l e x = refreshAllE cx ((numsFrom 0 96).foldl (applyCell h l) (letGo k e x)) := rfl

theorem groupSt_letGo (k : Word) (e : BitVec 96) (x : OutSt) (g : Nat) : groupSt (letGo k e x) g = groupLetGo k (groupSt x g) :=
  getA_mapA groupReset (fun _ q => groupLetGo k q) g rfl x.groups

/-- A group that is not held is as it was. -/
theorem groupLetGo_free {q : GroupSt} (h : q.held = false) (k : Word) : groupLetGo k q = q := by
  unfold groupLetGo
  rw [h]

/-- The ranks that hold latches are those of `x`. -/
structure RanksHeld (x y : OutSt) : Prop where
  free : ∀ o, latchesFree y o = latchesFree x o
  locks : ∀ o, (outCell y o).hsHeld = (outCell x o).hsHeld ∧ (outCell y o).lsHeld = (outCell x o).lsHeld

theorem applyCell_ranks (h l : BitVec 96) (x : OutSt) (o : Nat) : RanksHeld x (applyCell h l x o) := by
  refine ⟨fun _ => rfl, fun p => ?_⟩
  unfold applyCell modOutCell
  rw [outCell_putOutCell]
  split
  · rename_i hp
    exact hp ▸ ⟨rfl, rfl⟩
  · exact ⟨rfl, rfl⟩

theorem foldl_applyCell_ranks (h l : BitVec 96) (os : List Nat) (x : OutSt) : RanksHeld x (os.foldl (applyCell h l) x) := by
  refine List.foldlRecOn _ _ (motive := RanksHeld x) ⟨fun _ => rfl, fun _ => ⟨rfl, rfl⟩⟩ fun y hy o _ => ?_
  have hstep := applyCell_ranks h l y o
  exact ⟨fun p => (hstep.free p).trans (hy.free p),
    fun p => ⟨(hstep.locks p).1.trans (hy.locks p).1, (hstep.locks p).2.trans (hy.locks p).2⟩⟩

theorem applyCell_follows {h l : BitVec 96} {x : OutSt} {o p : Nat} (hp : o = p ∨ Follows h l x p) : Follows h l (applyCell h l x o) p := by
  have hfree := (applyCell_ranks h l x o).free p
  unfold Follows
  rw [hfree]
  unfold applyCell modOutCell
  rw [outCell_putOutCell]
  split
  · rename_i ho
    exact ho ▸ ⟨rfl, rfl⟩
  · rename_i ho
    exact hp.resolve_left ho

theorem foldl_applyCell_follows {h l : BitVec 96} {p : Nat} : ∀ (os : List Nat) (x : OutSt), p ∈ os ∨ Follows h l x p →
    Follows h l (os.foldl (applyCell h l) x) p
  | [], _, hp => hp.resolve_left List.not_mem_nil
  | o :: os, x, hp => by
    refine foldl_applyCell_follows os (applyCell h l x o) ?_
    rcases hp with hp | hp
    · exact (List.mem_cons.mp hp).elim (fun ho => .inr (applyCell_follows (.inl ho.symm))) .inl
    · exact .inr (applyCell_follows (.inr hp))

/-- At RELEASE each latch follows its image where no rank holds it. -/
theorem applyImages_latches (cx : OutCx) (k : Word) (h l e : BitVec 96) (x : OutSt) {o : Nat} (ho : o < 96) :
    (outCell (applyImages cx k h l e x) o).latchH = (bitOf h o && latchesFree (letGo k e x) o && !(outCell x o).hsHeld) ∧
      (outCell (applyImages cx k h l e x) o).latchL = (bitOf l o && latchesFree (letGo k e x) o && !(outCell x o).lsHeld) := by
  rw [applyImages_eq]
  obtain ⟨hH, hL, -, -⟩ := (refreshAllE_held cx ((numsFrom 0 96).foldl (applyCell h l) (letGo k e x))).cells o
  have hmem : o ∈ numsFrom 0 96 := mem_numsFrom.mpr ⟨Nat.zero_le o, by omega⟩
  obtain ⟨hfH, hfL⟩ := foldl_applyCell_follows (h := h) (l := l) (numsFrom 0 96) (letGo k e x) (.inl hmem)
  have hranks := foldl_applyCell_ranks h l (numsFrom 0 96) (letGo k e x)
  rw [hranks.free, (hranks.locks o).1] at hfH
  rw [hranks.free, (hranks.locks o).2] at hfL
  exact ⟨hH.trans hfH, hL.trans hfL⟩

/-- A group that is neither cut nor held lets the latches of its outputs follow. -/
theorem latchesFree_letGo {x : OutSt} {o : Nat} (hc : (groupSt x (outGroup o)).cut = false) (hh : (groupSt x (outGroup o)).held = false)
    (hH : x.stoppedH = false) (hL : x.stoppedL = false) (k : Word) (e : BitVec 96) : latchesFree (letGo k e x) o = true := by
  unfold latchesFree
  rw [groupSt_letGo, groupLetGo_free hh, hc, hh]
  show (!false && !false && !x.stoppedH && !x.stoppedL) = true
  rw [hH, hL]
  rfl

/-! ## The voter's record (06 R207, R213; 04 R164) -/

/-- The voter keeps everything but its copies, and these keep their misses. -/
structure SameBallot (v w : VoteSt) : Prop where
  voter : w = { v with copies := w.copies }
  misses : ∀ d r, (copyOf w d r).missPrev = (copyOf v d r).missPrev ∧ (copyOf w d r).missNow = (copyOf v d r).missNow

theorem SameBallot.refl (v : VoteSt) : SameBallot v v := ⟨rfl, fun _ _ => ⟨rfl, rfl⟩⟩

theorem SameBallot.trans {u v w : VoteSt} (h : SameBallot u v) (k : SameBallot v w) : SameBallot u w :=
  ⟨by rw [k.voter, h.voter], fun d r => ⟨(k.misses d r).1.trans (h.misses d r).1, (k.misses d r).2.trans (h.misses d r).2⟩⟩

theorem SameBallot.modCopy (d : Die) (r : Nat) {f : Copy → Copy} (hf : ∀ c, (f c).missPrev = c.missPrev ∧ (f c).missNow = c.missNow)
    (v : VoteSt) : SameBallot v (modCopy d r f v) := by
  refine ⟨rfl, fun e q => ?_⟩
  rw [copyOf_modCopy]
  split
  · rename_i h
    obtain ⟨rfl, rfl, -⟩ := h
    exact hf _
  · exact ⟨rfl, rfl⟩

theorem SameBallot.imageH_eq {v w : VoteSt} (h : SameBallot v w) : imageH w = imageH v := by rw [h.voter]; rfl

theorem SameBallot.imageL_eq {v w : VoteSt} (h : SameBallot v w) : imageL w = imageL v := by rw [h.voter]; rfl

theorem SameBallot.hw_eq {v w : VoteSt} (h : SameBallot v w) : w.hw = v.hw := by rw [h.voter]

theorem SameBallot.imgH_eq {v w : VoteSt} (h : SameBallot v w) : w.imgH = v.imgH := by rw [h.voter]

theorem SameBallot.deadline_eq {v w : VoteSt} (h : SameBallot v w) : w.deadline = v.deadline := by rw [h.voter]

theorem SameBallot.dropReq_eq {v w : VoteSt} (h : SameBallot v w) : w.dropReq = v.dropReq := by rw [h.voter]

theorem SameBallot.regionVote_eq {v w : VoteSt} (h : SameBallot v w) (r : Nat) : regionVote w r = regionVote v r := by rw [h.voter]; rfl

theorem copyOf_mapCopies (f : Die → Nat → Copy → Copy) (v : VoteSt) (d : Die) {r : Nat} (hr : r < 16) :
    copyOf (mapCopies f v) d r = f d r (copyOf v d r) := by
  simp [copyOf, mapCopies, hr]

theorem closeCycle_misses (v : VoteSt) (d : Die) {r : Nat} (hr : r < 16) :
    (copyOf (closeCycle v) d r).missPrev = (copyOf v d r).missNow ∧ (copyOf (closeCycle v) d r).missNow = false := by
  unfold closeCycle
  rw [copyOf_mapCopies _ _ _ hr]
  exact ⟨rfl, rfl⟩

theorem closeCycle_imgH (v : VoteSt) : (closeCycle v).imgH = v.imgH := rfl

theorem closeCycle_verdict (v : VoteSt) {r : Nat} (hr : r < 16) : (regionVote (closeCycle v) r).verdict = none := by
  show ((Vector.replicate 16 voteReset).toList.getD r voteReset).verdict = none
  rw [List.getD_eq_getElem _ _ (by simpa using hr), Vector.getElem_toList, Vector.getElem_replicate]
  rfl

end Sys2Proof.Machine



/-!
PROOFS. What roles, re-joins, overlays, changes and stops leave of the outputs and of the vote at a boundary (06 R217, 12, 13, 15): for O29.
-/

namespace Sys2Proof.Machine

/-! ## What every part of a boundary but RELEASE leaves -/

/-- The cycle number, the count of boundaries, the voter's record, the time base's check, and the latches with what holds them. -/
structure BoundaryKeeps (s t : State) : Prop where
  cycle : t.cycle = s.cycle
  boundaries : t.boundaries = s.boundaries
  ballot : SameBallot s.vote t.vote
  tbBad : t.ao.tbBad = s.ao.tbBad
  hbHeld : t.ao.hbHeld = s.ao.hbHeld
  outs : OutsHeld s.outs t.outs

namespace BoundaryKeeps

theorem of_eq {s t : State} (hc : t.cycle = s.cycle) (hb : t.boundaries = s.boundaries) (hv : t.vote = s.vote) (ht : t.ao.tbBad = s.ao.tbBad)
    (hh : t.ao.hbHeld = s.ao.hbHeld) (ho : t.outs = s.outs) : BoundaryKeeps s t :=
  ⟨hc, hb, hv ▸ .refl _, ht, hh, ho ▸ .refl _⟩

theorem refl (s : State) : BoundaryKeeps s s := .of_eq rfl rfl rfl rfl rfl rfl

theorem trans {s t u : State} (h : BoundaryKeeps s t) (k : BoundaryKeeps t u) : BoundaryKeeps s u :=
  ⟨k.cycle.trans h.cycle, k.boundaries.trans h.boundaries, h.ballot.trans k.ballot, k.tbBad.trans h.tbBad, k.hbHeld.trans h.hbHeld,
    h.outs.trans k.outs⟩

/-- The last of several steps first. -/
theorem after {s t u : State} (k : BoundaryKeeps t u) (h : BoundaryKeeps s t) : BoundaryKeeps s u := h.trans k

theorem ite {s a b : State} {c : Prop} [Decidable c] (h : BoundaryKeeps s a) (k : BoundaryKeeps s b) : BoundaryKeeps s (if c then a else b) := by
  split
  · exact h
  · exact k

theorem foldl {α : Type} {f : State → α → State} (h : ∀ s a, BoundaryKeeps s (f s a)) (l : List α) (s : State) :
    BoundaryKeeps s (l.foldl f s) :=
  List.foldlRecOn _ _ (BoundaryKeeps.refl s) fun _ ht a _ => ht.trans (h _ a)

theorem of_publish {s t : State} (h : PublishFrame s t) : BoundaryKeeps s t := by
  unfold PublishFrame at h
  rw [h]
  exact .of_eq rfl rfl rfl rfl rfl rfl

theorem of_voteFrame {s t : State} (h : VoteFrame s t ∧ t.vote = s.vote) : BoundaryKeeps s t := by
  obtain ⟨hframe, hvote⟩ := h
  refine .of_eq ?_ ?_ hvote ?_ ?_ ?_ <;> rw [hframe]

theorem onDies (f : Die → DieSt → DieSt) (s : State) : BoundaryKeeps s (onDies f s) := .of_eq rfl rfl rfl rfl rfl rfl

theorem onDie (d : Die) (f : DieSt → DieSt) (s : State) : BoundaryKeeps s (onDie d f s) := .of_eq rfl rfl rfl rfl rfl rfl

theorem onTether (f : TetherSt → TetherSt) (s : State) : BoundaryKeeps s (onTether f s) := .of_eq rfl rfl rfl rfl rfl rfl

theorem onTail (f : TailSt → TailSt) (s : State) : BoundaryKeeps s (onTail f s) := .of_eq rfl rfl rfl rfl rfl rfl

theorem onWin (f : WinSt → WinSt) (s : State) : BoundaryKeeps s (onWin f s) := .of_eq rfl rfl rfl rfl rfl rfl

theorem onAo {f : AoSt → AoSt} (s : State) (hf : ∀ a, (f a).tbBad = a.tbBad ∧ (f a).hbHeld = a.hbHeld := by exact fun _ => ⟨rfl, rfl⟩) :
    BoundaryKeeps s (onAo f s) :=
  .of_eq rfl rfl rfl (hf s.ao).1 (hf s.ao).2 rfl

theorem logOpen (c : BitVec 16) (u p i : Nat) (k : BitVec 64) (s : State) : BoundaryKeeps s (logOpen c u p i k s) :=
  .of_eq rfl rfl rfl rfl rfl rfl

theorem modCopy (d : Die) (r : Nat) {f : Copy → Copy} (s : State)
    (hf : ∀ c, (f c).missPrev = c.missPrev ∧ (f c).missNow = c.missNow := by exact fun _ => ⟨rfl, rfl⟩) :
    BoundaryKeeps s (onVote (modCopy d r f) s) :=
  ⟨rfl, rfl, .modCopy d r hf s.vote, rfl, rfl, .refl _⟩

end BoundaryKeeps

/-! ## Modes, overlays, drive (13 R383 to R386, 06 R226) -/

theorem setMode_keeps (m : Mode) (s : State) : BoundaryKeeps s (setMode m s) := by
  rw [setMode_eq]
  exact .of_eq rfl rfl rfl rfl rfl rfl

theorem setOverlays_keeps (o : Overlays) (s : State) : BoundaryKeeps s (setOverlays o s) := .of_voteFrame (setOverlays_frame o s)

theorem abortChange_keeps (k : BitVec 8) (s : State) : BoundaryKeeps s (abortChange k s) := by
  rw [abortChange_eq]
  exact .of_eq rfl rfl rfl rfl rfl rfl

theorem recordAbandoned_keeps (s : State) : BoundaryKeeps s (recordAbandoned s) := by
  unfold recordAbandoned
  exact .onTail _ s

theorem stopCycles_keeps (s : State) : BoundaryKeeps s (stopCycles s) := by
  unfold stopCycles
  rw [abortChange_eq]
  exact .of_eq rfl rfl rfl rfl rfl rfl

theorem refreshOuts_keeps (s : State) : BoundaryKeeps s (refreshOuts s) := ⟨rfl, rfl, .refl _, rfl, rfl, refreshAllE_held _ _⟩

theorem removeDrive_keeps (s : State) : BoundaryKeeps s (removeDrive s) := ⟨rfl, rfl, .refl _, rfl, rfl, refreshAllE_held _ _⟩

theorem enterSafe_boundaryKeeps (s : State) : BoundaryKeeps s (enterSafe s) := by
  unfold enterSafe
  exact .after (setMode_keeps .safe _) (.after (stopCycles_keeps _) (.of_eq rfl rfl rfl rfl rfl rfl))

/-- A trip changes neither the cycle number nor the vote, and leaves the command latches (08 Table 8.2). -/
theorem tripBy_keeps (q : CauseIn) (c : Cause) (region : Nat) (detail : BitVec 8) (avail : BitVec 4) (s : State) :
    BoundaryKeeps s (tripBy q c region detail avail s) := by
  unfold tripBy
  dsimp only
  refine .ite (.refl s) (.ite (.onAo s) (.ite ?_ (.ite (.onAo s) ?_)))
  · exact .after (.onTail _ _) (.onAo s)
  · refine .after (.onAo _) (.after (.onTail _ _) (.after (enterSafe_boundaryKeeps _) (.after (removeDrive_keeps _) ?_)))
    exact .after (.onAo _) (.of_eq rfl rfl rfl rfl rfl rfl)

/-! ## The frame of a pair's records (12) -/

/-- The tether changes, and the tail by its records. -/
def PairFrame (s t : State) : Prop := t = { s with tether := t.tether, tail := t.tail }

namespace PairFrame

/-- The last of several steps first. -/
theorem after {s t u : State} (k : PairFrame t u) (h : PairFrame s t) : PairFrame s u := by
  unfold PairFrame at *
  rw [k, h]

theorem refl (s : State) : PairFrame s s := rfl

theorem ite {s a b : State} {c : Prop} [Decidable c] (h : PairFrame s a) (k : PairFrame s b) : PairFrame s (if c then a else b) := by
  split
  · exact h
  · exact k

theorem keeps {s t : State} (h : PairFrame s t) : BoundaryKeeps s t := by
  unfold PairFrame at h
  rw [h]
  exact .of_eq rfl rfl rfl rfl rfl rfl

theorem mode_eq {s t : State} (h : PairFrame s t) : t.mode = s.mode := by
  unfold PairFrame at h
  rw [h]

theorem ao_eq {s t : State} (h : PairFrame s t) : t.ao = s.ao := by
  unfold PairFrame at h
  rw [h]

theorem onTether (f : TetherSt → TetherSt) (s : State) : PairFrame s (onTether f s) := rfl

theorem recorded (c : BitVec 16) (u p i : Nat) (k : BitVec 64) (f : TetherSt → TetherSt) (s : State) :
    PairFrame s (logOpen c u p i k (Machine.onTether f s)) := rfl

end PairFrame

theorem noteOwn_frame (k : Word) (s : State) : PairFrame s (noteOwn k s) := by
  unfold noteOwn
  exact .onTether _ s

theorem prefConflict_frame (s : State) : PairFrame s (prefConflict s) := by
  unfold prefConflict
  dsimp only
  exact .ite (.recorded ..) (.refl s)

theorem pushCompared_frame (q : Bool × Option Bool) (s : State) : PairFrame s (pushCompared q s) := by
  unfold pushCompared
  exact .onTether _ s

theorem activeImages_frame (n : Word) (s : State) : PairFrame s (activeImages n s) := by
  unfold activeImages
  dsimp only
  cases ownVoteOf s.tether (n - 2) with
  | none => exact .refl s
  | some o => exact .ite (.onTether _ s) (.ite (.after (.recorded ..) (pushCompared_frame _ s)) (pushCompared_frame _ s))

theorem recordClaimLine_frame (s : State) : PairFrame s (recordClaimLine s) := by
  unfold recordClaimLine
  cases s.tether.lineSince with
  | none => exact .refl s
  | some m => exact .ite (.recorded ..) (.refl s)

theorem claimLineStep_frame (s : State) : PairFrame s (claimLineStep s) := by
  unfold claimLineStep
  exact .after (recordClaimLine_frame _) (.onTether _ s)

theorem transferLimits_frame (s : State) : PairFrame s (transferLimits s) := by
  unfold transferLimits
  split
  · exact .ite (.recorded ..) (.refl s)
  · exact .ite (.onTether _ s) (.refl s)
  · exact .refl s

theorem yieldRefused_frame (s : State) : PairFrame s (yieldRefused s) := by
  unfold yieldRefused
  dsimp only
  cases s.tether.yieldReq with
  | none => exact .refl s
  | some c => exact .ite (.recorded ..) (.refl s)

theorem compareShadow_frame (fresh : Bool) (s : State) : PairFrame s (compareShadow fresh s).1 := by
  unfold compareShadow
  cases s.tether.heart with
  | none => exact .refl s
  | some h =>
    dsimp only
    split
    · split
      · dsimp only
        exact .onTether _ s
      · dsimp only
        exact .onTether _ s
    · dsimp only
      exact .onTether _ s

theorem compareOutputs_frame (n : Word) (s : State) : PairFrame s (compareOutputs n s).1 := by
  unfold compareOutputs
  cases ownVoteOf s.tether (n - 2) with
  | none => exact .refl s
  | some o =>
    dsimp only
    split
    · dsimp only
      exact .after (.onTether _ _) (pushCompared_frame _ s)
    · split
      · dsimp only
        exact .after (.recorded ..) (pushCompared_frame _ s)
      · exact pushCompared_frame _ s

/-! ## Roles (12) -/

theorem enterActive_keeps (s : State) : BoundaryKeeps s (enterActive s) := by
  unfold enterActive
  exact .after (refreshOuts_keeps _) (.after (setMode_keeps .active _) (.of_eq rfl rfl rfl rfl rfl rfl))

theorem enterStandby_keeps (s : State) : BoundaryKeeps s (enterStandby s) := by
  unfold enterStandby
  dsimp only
  refine .after (refreshOuts_keeps _) (.after (.onTether _ _) (.after (recordAbandoned_keeps _) (.after (setMode_keeps .standby _) ?_)))
  exact .of_eq rfl rfl rfl rfl rfl rfl

theorem negotiate_keeps (s : State) : BoundaryKeeps s (negotiate s) := by
  unfold negotiate
  dsimp only
  exact .ite (enterStandby_keeps s) (.ite (enterActive_keeps s) (.ite (enterActive_keeps s) (.ite (enterActive_keeps s) (.refl s))))

theorem activeBoundary_keeps (n : Word) (s : State) : BoundaryKeeps s (activeBoundary n s) := by
  unfold activeBoundary
  dsimp only
  refine .ite (.after (.onTether _ _) (enterStandby_keeps s)) (.ite ?_ (.ite (.ite (.onTether _ s) ?_) (.ite ?_ (activeImages_frame n s).keeps)))
  · exact .after (PairFrame.recorded ..).keeps (enterStandby_keeps s)
  · exact .after (.logOpen ..) (enterStandby_keeps s)
  · exact (PairFrame.after (.recorded ..) (activeImages_frame n s)).keeps

theorem standbyRuns_keeps (n : Word) (fresh : Bool) (s : State) : BoundaryKeeps s (standbyRuns n fresh s) := by
  have hcompared := PairFrame.after (compareOutputs_frame n _) (.after (compareShadow_frame fresh _) (yieldRefused_frame s))
  unfold standbyRuns
  dsimp only
  refine .ite (.ite (enterActive_keeps s) (.logOpen ..)) (.ite (enterActive_keeps s) (.ite (enterActive_keeps s) (.ite (enterActive_keeps s) ?_)))
  exact .ite (.ite (.after (.onTether _ _) hcompared.keeps) hcompared.keeps) (.ite (.onTether _ s) (.refl s))

theorem partnerLost_keeps (s : State) : BoundaryKeeps s (partnerLost s) := by
  unfold partnerLost
  exact .after (PairFrame.recorded ..).keeps (.onDies _ s)

theorem claimLineStep_gotEnd (s : State) : (claimLineStep s).tether.gotEnd = s.tether.gotEnd := by
  have hrecord : ∀ u, (recordClaimLine u).tether.gotEnd = u.tether.gotEnd := by
    intro u
    unfold recordClaimLine
    split
    · split <;> rfl
    · rfl
  unfold claimLineStep
  exact hrecord _

/-- Without its END item a pass is not complete (12 R367). -/
theorem transferComplete_none {t : TetherSt} (h : t.gotEnd = false) : transferComplete t = none := by
  unfold transferComplete
  split
  · rw [h]
    rfl
  · rfl

/-- A standby that has not the end of a final pass runs on in its cycle. -/
theorem standbyBoundary_keeps {s : State} (h : s.tether.gotEnd = false) (n : Word) (fresh : Bool) :
    BoundaryKeeps s (standbyBoundary n fresh s) := by
  have hnone := transferComplete_none ((claimLineStep_gotEnd s).trans h)
  have hline := PairFrame.after (transferLimits_frame _) (claimLineStep_frame s)
  unfold standbyBoundary
  dsimp only
  rw [hnone]
  dsimp only
  refine .ite (.ite ?_ ?_) (.ite (PairFrame.after (.onTether _ _) hline).keeps (.after (standbyRuns_keeps n fresh _) hline.keeps))
  · exact .after (enterActive_keeps _) (.after (partnerLost_keeps _) hline.keeps)
  · exact .after (partnerLost_keeps _) hline.keeps

/-- The pair's counts of a boundary, before the rows of its role. -/
def rolePrepared (first : Bool) (k n : Word) (s0 : State) : State :=
  let s := onTether (countTether n (decide (s0.ao.stopReq ≠ .none))) s0
  if (partnerPos s).isNone then s else prefConflict (if first then s else onTether heartInterval (noteOwn k s))

theorem rolePrepared_frame (first : Bool) (k n : Word) (s : State) : PairFrame s (rolePrepared first k n s) := by
  unfold rolePrepared
  dsimp only
  refine .ite (.onTether _ s) (.after (prefConflict_frame _) (.ite (.onTether _ s) ?_))
  exact .after (.onTether _ _) (.after (noteOwn_frame k _) (.onTether _ s))

theorem prefConflict_gotEnd (s : State) : (prefConflict s).tether.gotEnd = s.tether.gotEnd := by
  have hite : ∀ (c : Prop) [Decidable c] (t : State), t.tether.gotEnd = s.tether.gotEnd → (if c then t else s).tether.gotEnd = s.tether.gotEnd := by
    intro c _ t ht
    split
    · exact ht
    · rfl
  unfold prefConflict
  exact hite _ _ rfl

theorem heartInterval_gotEnd (t : TetherSt) : (heartInterval t).gotEnd = t.gotEnd := by
  unfold heartInterval
  split <;> rfl

theorem rolePrepared_gotEnd (first : Bool) (k n : Word) (s : State) : (rolePrepared first k n s).tether.gotEnd = s.tether.gotEnd := by
  unfold rolePrepared
  dsimp only
  split
  · rfl
  · rw [prefConflict_gotEnd]
    split
    · rfl
    · exact heartInterval_gotEnd _

/-- The rows of the role that the module has. -/
def roleRows (first fresh : Bool) (n : Word) (s : State) : State :=
  match s.mode with
  | .wake => negotiate (if first then onTether (fun t => { t with negSince := s.ao.ms }) s else s)
  | .active => activeBoundary n s
  | .standby => standbyBoundary n fresh s
  | _ => s

theorem roleRows_keeps {s : State} (h : s.mode = .standby → s.tether.gotEnd = false) (first fresh : Bool) (n : Word) :
    BoundaryKeeps s (roleRows first fresh n s) := by
  unfold roleRows
  split
  · exact .after (negotiate_keeps _) (.ite (.onTether _ s) (.refl s))
  · exact activeBoundary_keeps n s
  · rename_i hm
    exact standbyBoundary_keeps (h hm) n fresh
  · exact .refl s

/-- A module without a partner has the output to itself; one of a pair goes through the rows of its role. -/
theorem roleBoundary_eq (first : Bool) (k n : Word) (s : State) : ∃ fresh,
    roleBoundary first k n s = (if (partnerPos (onTether (countTether n (decide (s.ao.stopReq ≠ .none))) s)).isNone then
      (if s.mode = .wake then enterActive (rolePrepared first k n s) else rolePrepared first k n s)
    else
      let s2 := roleRows first fresh n (rolePrepared first k n s)
      onTether (fun t => { t with lowSeen := lowGroups s2.outs }) s2) := by
  refine ⟨(onTether (countTether n (decide (s.ao.stopReq ≠ .none))) s).tether.heartNew, ?_⟩
  unfold roleBoundary rolePrepared roleRows
  dsimp only
  by_cases hp : (partnerPos (onTether (countTether n (decide (s.ao.stopReq ≠ .none))) s)).isNone = true
  · simp only [if_pos hp]
    rfl
  · generalize prefConflict _ = y
    simp only [if_neg hp] <;> rfl

theorem roleBoundary_keeps {s : State} (h : s.mode = .standby → s.tether.gotEnd = false) (first : Bool) (k n : Word) :
    BoundaryKeeps s (roleBoundary first k n s) := by
  obtain ⟨fresh, hrole⟩ := roleBoundary_eq first k n s
  have hprep := rolePrepared_frame first k n s
  have hrows : BoundaryKeeps (rolePrepared first k n s) (roleRows first fresh n (rolePrepared first k n s)) := by
    refine roleRows_keeps (fun hm => ?_) first fresh n
    rw [rolePrepared_gotEnd]
    exact h (hprep.mode_eq ▸ hm)
  rw [hrole]
  dsimp only
  exact .ite (.ite (.after (enterActive_keeps _) hprep.keeps) hprep.keeps) (.after (.onTether _ _) (.after hrows hprep.keeps))

/-! ## The role of an active module (12 R370 to R381) -/

/-- The module runs as the active or the standby, with its pending stop as before. -/
def StillRuns (s t : State) : Prop := (t.mode = .active ∨ t.mode = .standby) ∧ t.ao.stopReq = s.ao.stopReq

theorem StillRuns.ite {s a b : State} {c : Prop} [Decidable c] (h : StillRuns s a) (k : StillRuns s b) : StillRuns s (if c then a else b) := by
  split
  · exact h
  · exact k

theorem refreshOuts_runs {s t : State} (h : StillRuns s t) : StillRuns s (refreshOuts t) := h

theorem PairFrame.runs {s t u : State} (h : PairFrame t u) (k : StillRuns s t) : StillRuns s u := by
  unfold StillRuns
  rw [h.mode_eq, h.ao_eq]
  exact k

theorem setMode_runs (s : State) : StillRuns s (setMode .standby (clearClaim { s with start := .idle })) := by
  refine ⟨.inr (setMode_mode _ _), ?_⟩
  rw [setMode_ao]
  rfl

theorem recordAbandoned_frame (s : State) : PairFrame s (recordAbandoned s) := by
  unfold recordAbandoned onTail
  rfl

theorem enterStandby_runs (s : State) : StillRuns s (enterStandby s) := by
  unfold enterStandby
  dsimp only
  exact refreshOuts_runs (((PairFrame.onTether _ _).after (recordAbandoned_frame _)).runs (setMode_runs s))

theorem activeBoundary_runs {s : State} (hm : s.mode = .active) (n : Word) : StillRuns s (activeBoundary n s) := by
  have hs : StillRuns s s := ⟨.inl hm, rfl⟩
  have hstandby := enterStandby_runs s
  have himages := (activeImages_frame n s).runs hs
  unfold activeBoundary
  dsimp only
  refine .ite ((PairFrame.onTether _ _).runs hstandby) (.ite ?_ (.ite (.ite ((PairFrame.onTether _ _).runs hs) ?_) (.ite ?_ himages)))
  · exact (PairFrame.recorded ..).runs hstandby
  · exact PairFrame.runs rfl hstandby
  · exact (PairFrame.recorded ..).runs himages

theorem roleBoundary_runs {s : State} (hm : s.mode = .active) (first : Bool) (k n : Word) : StillRuns s (roleBoundary first k n s) := by
  obtain ⟨fresh, hrole⟩ := roleBoundary_eq first k n s
  have hprep := rolePrepared_frame first k n s
  have hact : roleRows first fresh n (rolePrepared first k n s) = activeBoundary n (rolePrepared first k n s) := by
    unfold roleRows
    rw [hprep.mode_eq, hm]
  obtain ⟨hmode, hstop⟩ := activeBoundary_runs (hprep.mode_eq.trans hm) n
  rw [hrole, if_neg (show ¬ s.mode = .wake by rw [hm]; decide), hact]
  dsimp only
  refine .ite (hprep.runs ⟨.inl hm, rfl⟩) ((PairFrame.onTether _ _).runs ⟨hmode, hstop.trans (by rw [hprep.ao_eq])⟩)

/-! ## Stops (13 R394) -/

theorem enterShutdown_keeps (forRestart : Bool) (last : Word) (s : State) : BoundaryKeeps s (enterShutdown forRestart last s) := by
  have hdrive := (stopCycles_keeps s).trans ((setMode_keeps .shutdown _).trans (removeDrive_keeps _))
  unfold enterShutdown
  dsimp only
  generalize removeDrive (setMode .shutdown (stopCycles s)) = u at *
  exact hdrive.trans (.of_eq rfl rfl rfl rfl rfl rfl)

theorem stopStep_keeps (forRestart : Bool) (b : Nat) (again : Nat → StopReq) (last : Word) (s : State) :
    BoundaryKeeps s (stopStep forRestart b again last s) := by
  have hwait : BoundaryKeeps s (onAo (fun a => { a with stopReq := again (b + 1) }) s) := .onAo s
  have hstop := enterShutdown_keeps forRestart last s
  unfold stopStep
  dsimp only
  split
  · exact .ite hwait hstop
  · exact .ite hwait hstop
  · exact hstop
  · exact .refl s

theorem stopBoundary_keeps (last : Word) (s : State) : BoundaryKeeps s (stopBoundary last s) := by
  unfold stopBoundary
  split
  · exact .refl s
  · exact stopStep_keeps ..
  · exact stopStep_keeps ..

theorem stopBoundary_none {s : State} (h : s.ao.stopReq = .none) (last : Word) : stopBoundary last s = s := by
  unfold stopBoundary
  rw [h]

/-! ## Re-join, overlays, online change, forces (06 R217 to R221; 13 Table 13.3; 15 R442 to R448) -/

theorem haltRegion_keeps (d : Die) (r : Nat) (s : State) : BoundaryKeeps s (haltRegion d r s) := by
  unfold haltRegion
  exact .onDie d _ s

theorem abandonRejoin_keeps (d : Die) (r : Nat) (s : State) : BoundaryKeeps s (abandonRejoin d r s) := by
  unfold abandonRejoin
  exact .after (.logOpen ..) (.after (haltRegion_keeps ..) (.modCopy d r s))

theorem startRejoin_keeps (d : Die) (r : Nat) (s : State) : BoundaryKeeps s (startRejoin d r s) := by
  unfold startRejoin
  dsimp only
  exact .after (.logOpen ..) (.after (haltRegion_keeps ..) (.after (.modCopy d r _) (.onAo s)))

theorem restartCopy_keeps (d : Die) (r : Nat) (s : State) : BoundaryKeeps s (restartCopy d r s) := by
  unfold restartCopy
  dsimp only
  exact .after (.modCopy d r _) (.onDie d _ s)

theorem rejoinStep_keeps (s : State) (q : Die × Nat) : BoundaryKeeps s (rejoinStep s q) := by
  unfold rejoinStep
  dsimp only
  split
  · exact .ite (startRejoin_keeps ..) (.refl s)
  · refine .ite (abandonRejoin_keeps ..) ?_
    exact .modCopy q.1 q.2 s
  · exact restartCopy_keeps ..
  · exact .ite (.after (.logOpen ..) (.modCopy q.1 q.2 s)) (.refl s)

theorem rejoinAll_keeps (s : State) : BoundaryKeeps s (rejoinAll s) := by
  unfold rejoinAll
  exact .ite (.refl s) (.foldl rejoinStep_keeps _ s)

theorem clearOverlays_keeps (s : State) : BoundaryKeeps s (clearOverlays s) := by
  unfold clearOverlays
  dsimp only
  exact .after (setOverlays_keeps _ _) (.of_eq rfl rfl rfl rfl rfl rfl)

theorem switchBanks_keeps (n : Word) (s : State) : BoundaryKeeps s (switchBanks n s) := by
  unfold switchBanks
  dsimp only
  refine .after (.foldl (fun u r => .logOpen ..) _ _) (.after (.logOpen ..) (.after (setOverlays_keeps _ _) ?_))
  exact .after (.onDies _ _) (.after (.onDies _ _) (.of_eq rfl rfl rfl rfl rfl rfl))

theorem readPermit_keeps (n : Nat) (s : State) : BoundaryKeeps s (readPermit n s).2 := by
  unfold readPermit
  exact .ite (.logOpen ..) (.refl s)

theorem changeBoundary_keeps (n : Word) (s : State) : BoundaryKeeps s (changeBoundary n s) := by
  unfold changeBoundary
  dsimp only
  generalize hy : (if s.change.carryAt.any (· ≠ n) = true then { s with change := { s.change with carryAt := none } } else s) = y
  have hstart : BoundaryKeeps s y := hy ▸ .ite (.of_eq rfl rfl rfl rfl rfl rfl) (.refl s)
  refine .after ?_ hstart
  split
  · refine .ite (.refl y) (.ite (.after (abortChange_keeps ..) (readPermit_keeps swCHANGE y)) (.ite ?_ (switchBanks_keeps n y)))
    exact .ite (abortChange_keeps ..) (.of_eq rfl rfl rfl rfl rfl rfl)
  · exact .refl y

theorem expireForces_keeps (n : Word) (s : State) : BoundaryKeeps s (expireForces n s) := by
  unfold expireForces
  exact .foldl (fun u f => .of_voteFrame (setForces_frame _ f u)) _ s

theorem steer_keeps (jump : Bool) (off : Option Int) (s : State) : BoundaryKeeps s (steer jump off s) := by
  unfold steer
  split
  · exact .of_eq rfl rfl rfl rfl rfl rfl
  · exact .refl s
  · exact .of_eq rfl rfl rfl rfl rfl rfl

theorem shiftSetup_keeps (s : State) : BoundaryKeeps s (shiftSetup s) := by
  unfold shiftSetup
  split
  · exact .of_eq rfl rfl rfl rfl rfl rfl
  · exact .of_eq rfl rfl rfl rfl rfl rfl

theorem countClean_keeps (s : State) : BoundaryKeeps s (countClean s) := by
  unfold countClean
  dsimp only
  exact .ite (.refl s) (.after (.onWin _ _) (.of_eq rfl rfl rfl rfl rfl rfl))

theorem freezeImage_keeps (n : Word) (s : State) : BoundaryKeeps s (freezeImage n s) :=
  ⟨rfl, rfl, .refl _, rfl, rfl, (noteDrive_held _ _ _).trans (markShown_held n _)⟩

end Sys2Proof.Machine



/-!
PROOFS. The cycle boundary (04 R143, R164, 06 R213, 08 R260, 11 R331, 13 R406, 14 R413): O29.
-/

namespace Sys2Proof.Machine

/-! ## The steps of a boundary -/

/-- The module as a boundary has frozen its image and opened cycle `n`. -/
def openCycle (first : Bool) (n : Word) (s0 : State) : State :=
  let s1 := publishFrozen s0 (freezeImage n (countClean s0))
  { onDies (fun _ x => shiftEvents x) s1 with
    cycle := n, boundaries := s1.boundaries + 1, start := if first then .cycles else s1.start,
    firstBoundaryMs := if first then s1.ao.ms else s1.firstBoundaryMs }

/-- The time base is checked and the role of the module taken. -/
def rolesTaken (first : Bool) (bi : BoundaryIn) (s0 : State) : State :=
  let n := nextCycle first s0
  let s3 := roleBoundary first s0.cycle n (timeBase bi.slkCount (openCycle first n s0))
  { s3 with ins := { s3.ins with cycleNo := s3.cycle } }

/-- A pending stop is taken: the state in which RELEASE finds the module. -/
def stopsTaken (first : Bool) (bi : BoundaryIn) (s0 : State) : State := stopBoundary s0.cycle (rolesTaken first bi s0)

/-- RELEASE, with the telegrams of the boundary. -/
def imagesReleased (first : Bool) (bi : BoundaryIn) (s0 : State) : State :=
  releaseStep first s0.cycle (rolesTaken first bi s0).cycle (stopsTaken first bi s0)

/-- What follows RELEASE once the vote's record of the cycle is closed. -/
def finishBoundary (k : Word) (jump : Bool) (off : Option Int) (s4 : State) : State :=
  let s5 := steer jump off s4
  let s6 := if cyclesRun s5 then
      clearOverlays (changeBoundary s5.cycle (rejoinAll (onDies (fun _ x => expirePendings s5.cycle (periodOf s5) x) (expireForces s5.cycle s5))))
    else s5
  publishBoundary (shiftSetup (onWin (fun w => { w with pmcWords := pmcMirror k s6 }) s6))

theorem runBoundary_eq (first : Bool) (bi : BoundaryIn) (s : State) : ∃ jump,
    runBoundary first bi s = finishBoundary s.cycle jump bi.offset (onVote closeCycle (imagesReleased first bi s)) := ⟨_, rfl⟩

theorem finishBoundary_keeps (k : Word) (jump : Bool) (off : Option Int) (s : State) : BoundaryKeeps s (finishBoundary k jump off s) := by
  have hsteer := steer_keeps jump off s
  unfold finishBoundary
  dsimp only
  generalize steer jump off s = u at *
  refine .after (.of_publish (publishBoundary_frame _)) (.after (shiftSetup_keeps _) (.after (.onWin _ _) (.after ?_ hsteer)))
  refine .ite (.after (clearOverlays_keeps _) (.after (changeBoundary_keeps _ _) (.after (rejoinAll_keeps _) ?_))) (.refl u)
  exact .after (.onDies _ _) (expireForces_keeps _ u)

/-! ## The cycle opens (04 R143; 13 R406) -/

/-- Two states that agree, with the same cycle opened in both. -/
theorem BoundaryKeeps.opened {s t : State} (h : BoundaryKeeps s t) (n : Word) (p : StartPhase) (m : Nat) :
    BoundaryKeeps { s with cycle := n, boundaries := s.boundaries + 1 }
      { t with cycle := n, boundaries := t.boundaries + 1, start := p, firstBoundaryMs := m } :=
  ⟨rfl, congrArg (· + 1) h.boundaries, h.ballot, h.tbBad, h.hbHeld, h.outs⟩

theorem openCycle_keeps (first : Bool) (n : Word) (s : State) :
    BoundaryKeeps { s with cycle := n, boundaries := s.boundaries + 1 } (openCycle first n s) := by
  have hfrozen := (BoundaryKeeps.of_publish (publishFrozen_frame s _)).after ((freezeImage_keeps n _).after (countClean_keeps s))
  exact ((BoundaryKeeps.onDies (fun _ x => shiftEvents x) _).after hfrozen).opened n _ _

/-- Sending and publishing leave the role of the module, its vote and its clamps. -/
theorem PublishFrame.role {s t : State} (h : PublishFrame s t) :
    t.mode = s.mode ∧ t.tether = s.tether ∧ t.ao.stopReq = s.ao.stopReq ∧ t.vote = s.vote ∧ t.clampOpen = s.clampOpen := by
  unfold PublishFrame at h
  rw [h]
  exact ⟨rfl, rfl, rfl, rfl, rfl⟩

theorem freezeImage_role (n : Word) (s : State) : (freezeImage n s).mode = s.mode ∧ (freezeImage n s).tether = s.tether ∧
    (freezeImage n s).ao = s.ao ∧ (freezeImage n s).vote = s.vote ∧ (freezeImage n s).clampOpen = s.clampOpen := ⟨rfl, rfl, rfl, rfl, rfl⟩

theorem countClean_role (s : State) : (countClean s).mode = s.mode ∧ (countClean s).tether = s.tether ∧ (countClean s).ao = s.ao := by
  unfold countClean
  dsimp only
  split
  · exact ⟨rfl, rfl, rfl⟩
  · exact ⟨rfl, rfl, rfl⟩

theorem openCycle_role (first : Bool) (n : Word) (s : State) :
    (openCycle first n s).mode = s.mode ∧ (openCycle first n s).tether = s.tether ∧ (openCycle first n s).ao.stopReq = s.ao.stopReq := by
  obtain ⟨hmode, htether, hao⟩ := countClean_role s
  obtain ⟨fmode, ftether, fao, -, -⟩ := freezeImage_role n (countClean s)
  obtain ⟨pmode, ptether, pstop, -, -⟩ :=
    ((publishFrozen_frame s (freezeImage n (countClean s))).trans (.onDies (fun _ x => shiftEvents x) _)).role
  unfold openCycle
  dsimp only
  generalize onDies _ (publishFrozen s (freezeImage n (countClean s))) = w at *
  exact ⟨pmode.trans (fmode.trans hmode), ptether.trans (ftether.trans htether), pstop.trans (by rw [fao, hao])⟩

/-- The count of SLK lies outside its limits (13 R406). -/
def slkBad (slk : Nat) : Bool := !(decide (31840 ≤ slk) && decide (slk ≤ 32160))

theorem timeBase_eq (slk : Nat) (s : State) : timeBase slk s = { s with ao := { s.ao with
    tbBad := if slkBad slk then s.ao.tbBad + 1 else 0, hbHeld := s.ao.hbHeld || (slkBad slk && decide (1 ≤ s.ao.tbBad)) } } := by
  unfold timeBase slkBad onAo
  cases decide (31840 ≤ slk) && decide (slk ≤ 32160)
  · rfl
  · simp

theorem BoundaryKeeps.timeBase {s t : State} (h : BoundaryKeeps s t) (slk : Nat) : BoundaryKeeps (timeBase slk s) (timeBase slk t) := by
  rw [timeBase_eq, timeBase_eq]
  refine ⟨h.cycle, h.boundaries, h.ballot, ?_, ?_, h.outs⟩ <;> dsimp only <;> rw [h.tbBad]
  rw [h.hbHeld]

/-- The module with the cycle and the boundary counted and the time base checked: what roles and stops leave as it stands here. -/
def boundaryBase (first : Bool) (bi : BoundaryIn) (s : State) : State :=
  timeBase bi.slkCount { s with cycle := nextCycle first s, boundaries := s.boundaries + 1 }

theorem BoundaryKeeps.numbered {s t : State} (h : BoundaryKeeps s t) (i : InSt) : BoundaryKeeps s { t with ins := i } :=
  ⟨h.cycle, h.boundaries, h.ballot, h.tbBad, h.hbHeld, h.outs⟩

theorem rolesTaken_keeps {s : State} (h : s.mode = .standby → s.tether.gotEnd = false) (first : Bool) (bi : BoundaryIn) :
    BoundaryKeeps (boundaryBase first bi s) (rolesTaken first bi s) := by
  obtain ⟨hmode, htether, -⟩ := openCycle_role first (nextCycle first s) s
  have hopen := (openCycle_keeps first (nextCycle first s) s).timeBase bi.slkCount
  have hend : (timeBase bi.slkCount (openCycle first (nextCycle first s) s)).mode = .standby →
      (timeBase bi.slkCount (openCycle first (nextCycle first s) s)).tether.gotEnd = false := by
    rw [timeBase_eq]
    exact fun hm => (congrArg TetherSt.gotEnd htether).trans (h (hmode.symm.trans hm))
  unfold rolesTaken
  dsimp only
  exact (hopen.trans (roleBoundary_keeps hend first s.cycle (nextCycle first s))).numbered _

theorem stopsTaken_keeps {s : State} (h : s.mode = .standby → s.tether.gotEnd = false) (first : Bool) (bi : BoundaryIn) :
    BoundaryKeeps (boundaryBase first bi s) (stopsTaken first bi s) := (rolesTaken_keeps h first bi).trans (stopBoundary_keeps _ _)

/-! ## RELEASE (06 R213, 08 R260) -/

theorem onVote_keeps (f : VoteSt → VoteSt) (s : State) : (onVote f s).cycle = s.cycle ∧ (onVote f s).boundaries = s.boundaries ∧
    (onVote f s).ao = s.ao ∧ (onVote f s).vote = f s.vote ∧ (onVote f s).outs = s.outs := ⟨rfl, rfl, rfl, rfl, rfl⟩

theorem refreshClamps_onOuts_keeps (f : OutSt → OutSt) (s : State) : (refreshClamps (onOuts f s)).cycle = s.cycle ∧
    (refreshClamps (onOuts f s)).boundaries = s.boundaries ∧ (refreshClamps (onOuts f s)).ao = s.ao ∧
    (refreshClamps (onOuts f s)).vote = s.vote ∧ (refreshClamps (onOuts f s)).outs = f s.outs := ⟨rfl, rfl, rfl, rfl, rfl⟩

/-- The voted images as RELEASE passes them to the latches. -/
def imagesApplied (k : Word) (s : State) : State :=
  let s1 := onVote (fun v => { releaseDrops k v with imgH := imageH s.vote, imgL := imageL s.vote, exp := imageExpect s.vote }) s
  refreshClamps (onOuts (applyImages (outCxOf s1) k (imageH s.vote) (~~~imageL s.vote) (imageExpect s.vote)) s1)

/-- What RELEASE leaves beside the outputs, the clamps and the images. -/
theorem imagesApplied_keeps (k : Word) (s : State) : (imagesApplied k s).cycle = s.cycle ∧ (imagesApplied k s).boundaries = s.boundaries ∧
    (imagesApplied k s).ao = s.ao ∧ ∀ d r, copyOf (imagesApplied k s).vote d r = copyOf s.vote d r := by
  unfold imagesApplied
  dsimp only
  obtain ⟨ccycle, ccount, cao, cvote, -⟩ :=
    refreshClamps_onOuts_keeps (applyImages (outCxOf _) k (imageH s.vote) (~~~imageL s.vote) (imageExpect s.vote)) _
  rw [ccycle, ccount, cao, cvote]
  obtain ⟨vcycle, vcount, vao, vvote, -⟩ := onVote_keeps
    (fun v => { releaseDrops k v with imgH := imageH s.vote, imgL := imageL s.vote, exp := imageExpect s.vote }) s
  rw [vvote]
  exact ⟨vcycle, vcount, vao, fun _ _ => rfl⟩

/-- Halves that agree before a comparator that follows them pass the images (06 R210, R213). -/
theorem releaseImages_agree {s : State} (hhw : s.vote.hw.hl = none) (himg : imageL s.vote = ~~~ imageH s.vote) (k : Word) :
    releaseImages k s = imagesApplied k s := by
  have hcmp : cmpOut s.vote.hw.hl (decide (imageL s.vote = ~~~ imageH s.vote)) = 2 := by
    rw [hhw, himg, decide_eq_true rfl]
    rfl
  unfold releaseImages
  dsimp only
  rw [if_neg (by rw [hcmp]; decide)]
  rfl

/-- A trip counts as little as a RELEASE does. -/
theorem releaseImages_counts (k : Word) (s : State) :
    (releaseImages k s).cycle = s.cycle ∧ (releaseImages k s).boundaries = s.boundaries := by
  have htrip := tripBy_keeps causeNow .hlDisagree 0 0 0 s
  obtain ⟨hcycle, hcount, -, -⟩ := imagesApplied_keeps k s
  unfold releaseImages
  dsimp only
  split
  · exact ⟨htrip.cycle, htrip.boundaries⟩
  · exact ⟨hcycle, hcount⟩

theorem releaseStep_frame (first : Bool) (k n : Word) (s : State) :
    PublishFrame (if first || !cyclesRun s then s else releaseImages k s) (releaseStep first k n s) := by
  unfold releaseStep
  dsimp only
  generalize (if first || !cyclesRun s then s else releaseImages k s) = u
  have hsent : PublishFrame u (if first then u else releaseTelegrams k u) := by
    split
    · exact .refl u
    · exact releaseTelegrams_frame k u
  split
  · exact hsent
  · exact hsent
  · exact sendIdles_frame _ u

theorem releaseStep_counts (first : Bool) (k n : Word) (s : State) :
    (releaseStep first k n s).cycle = s.cycle ∧ (releaseStep first k n s).boundaries = s.boundaries := by
  have hsent := BoundaryKeeps.of_publish (releaseStep_frame first k n s)
  have himages := releaseImages_counts k s
  rw [hsent.cycle, hsent.boundaries]
  split
  · exact ⟨rfl, rfl⟩
  · exact himages

/-! ## Cycle number and count (04 R143, 11 R331, 14 R413) -/

theorem nextCycle_first (s : State) : nextCycle true s = s.alignTo.getD 0 := by
  unfold nextCycle
  cases s.alignTo <;> rfl

theorem nextCycle_wake {s : State} (hm : s.mode = .wake) : (s.alignTo = none → nextCycle false s = s.cycle + 1) ∧
    ∀ a, s.alignTo = some a → nextCycle false s = if serialAfter a (s.cycle + 1) then a else s.cycle + 1 := by
  unfold nextCycle
  refine ⟨fun h => ?_, fun a h => ?_⟩
  · rw [h]
  · rw [h, hm]
    simp

theorem nextCycle_runs {s : State} (hm : s.mode ≠ .wake) : nextCycle false s = s.cycle + 1 := by
  unfold nextCycle
  cases s.alignTo with
  | none => rfl
  | some a => simp [hm]

theorem runBoundary_counts {s : State} (h : s.mode = .standby → s.tether.gotEnd = false) (first : Bool) (bi : BoundaryIn) :
    (runBoundary first bi s).cycle = nextCycle first s ∧ (runBoundary first bi s).boundaries = s.boundaries + 1 := by
  obtain ⟨jump, hrun⟩ := runBoundary_eq first bi s
  have hfinish := finishBoundary_keeps s.cycle jump bi.offset (onVote closeCycle (imagesReleased first bi s))
  have hrelease := releaseStep_counts first s.cycle (rolesTaken first bi s).cycle (stopsTaken first bi s)
  have hstop := stopsTaken_keeps h first bi
  obtain ⟨vcycle, vcount, -⟩ := onVote_keeps closeCycle (imagesReleased first bi s)
  rw [hrun, hfinish.cycle, hfinish.boundaries, vcycle, vcount]
  exact ⟨hrelease.1.trans hstop.cycle, hrelease.2.trans hstop.boundaries⟩

/-- The first boundary has no vote to release. -/
theorem runBoundary_first_imgH {s : State} (h : s.mode = .standby → s.tether.gotEnd = false) (bi : BoundaryIn) :
    (runBoundary true bi s).vote.imgH = s.vote.imgH := by
  obtain ⟨jump, hrun⟩ := runBoundary_eq true bi s
  have hfinish := finishBoundary_keeps s.cycle jump bi.offset (onVote closeCycle (imagesReleased true bi s))
  have hrelease : BoundaryKeeps (stopsTaken true bi s) (imagesReleased true bi s) := .of_publish (releaseStep_frame true _ _ _)
  obtain ⟨-, -, -, vvote, -⟩ := onVote_keeps closeCycle (imagesReleased true bi s)
  rw [hrun, hfinish.ballot.imgH_eq, vvote, closeCycle_imgH]
  exact ((stopsTaken_keeps h true bi).trans hrelease).ballot.imgH_eq

/-! ## An active module (04 R164, 06 R213, 08 R260) -/

theorem stopsTaken_active {s : State} (hm : s.mode = .active) (hstop : s.ao.stopReq = .none) (first : Bool) (bi : BoundaryIn) :
    cyclesRun (stopsTaken first bi s) = true := by
  obtain ⟨hmode, -, hao⟩ := openCycle_role first (nextCycle first s) s
  have hbase : (timeBase bi.slkCount (openCycle first (nextCycle first s) s)).mode = .active := by
    rw [timeBase_eq]
    exact hmode.trans hm
  have hreq : (timeBase bi.slkCount (openCycle first (nextCycle first s) s)).ao.stopReq = .none := by
    rw [timeBase_eq]
    exact hao.trans hstop
  obtain ⟨hruns, hnone⟩ := roleBoundary_runs hbase first s.cycle (nextCycle first s)
  have htaken : (rolesTaken first bi s).ao.stopReq = .none := hnone.trans hreq
  unfold stopsTaken
  rw [stopBoundary_none htaken]
  unfold cyclesRun
  rcases hruns with hruns | hruns
  · rw [show (rolesTaken first bi s).mode = .active from hruns]
  · rw [show (rolesTaken first bi s).mode = .standby from hruns]

/-- RELEASE at the boundary of an active module whose halves agree. -/
theorem imagesReleased_active {s : State} (hm : s.mode = .active) (hstop : s.ao.stopReq = .none) (hhw : s.vote.hw.hl = none)
    (himg : imageL s.vote = ~~~ imageH s.vote) (bi : BoundaryIn) :
    BoundaryKeeps (imagesApplied s.cycle (stopsTaken false bi s)) (imagesReleased false bi s) := by
  have hkeep := stopsTaken_keeps (fun h => absurd (hm.symm.trans h) (by decide)) false bi
  have hballot : SameBallot s.vote (stopsTaken false bi s).vote := hkeep.ballot
  have hsent := BoundaryKeeps.of_publish (releaseStep_frame false s.cycle (rolesTaken false bi s).cycle (stopsTaken false bi s))
  have hagree : imageL (stopsTaken false bi s).vote = ~~~ imageH (stopsTaken false bi s).vote := by
    rw [hballot.imageL_eq, hballot.imageH_eq, himg]
  rw [stopsTaken_active hm hstop, releaseImages_agree ((congrArg VoteHw.hl hballot.hw_eq).trans hhw) hagree] at hsent
  exact hsent

theorem imagesApplied_latches {s : State} (himg : imageL s.vote = ~~~ imageH s.vote) (k : Word) {o : Nat} (ho : o < 96) :
    (outCell (imagesApplied k s).outs o).latchH =
        (bitOf (imageH s.vote) o && latchesFree (letGo k (imageExpect s.vote) s.outs) o && !(outCell s.outs o).hsHeld) ∧
      (outCell (imagesApplied k s).outs o).latchL =
        (bitOf (imageH s.vote) o && latchesFree (letGo k (imageExpect s.vote) s.outs) o && !(outCell s.outs o).lsHeld) := by
  have hlow : ~~~ imageL s.vote = imageH s.vote := by rw [himg, BitVec.not_not]
  unfold imagesApplied
  rw [hlow]
  exact applyImages_latches _ k _ _ _ s.outs ho

/-- An active module whose votes are closed and whose halves agree. -/
structure ReleaseDue (s : State) : Prop where
  mode : s.mode = .active
  stop : s.ao.stopReq = .none
  hw : s.vote.hw.hl = none
  images : imageL s.vote = ~~~ imageH s.vote

theorem ReleaseDue.not_standby {s : State} (h : ReleaseDue s) : s.mode = .standby → s.tether.gotEnd = false :=
  fun hm => absurd (h.mode.symm.trans hm) (by decide)

/-- What stands between RELEASE and the end of the boundary. -/
theorem ReleaseDue.steps {s : State} (h : ReleaseDue s) (bi : BoundaryIn) :
    BoundaryKeeps (boundaryBase false bi s) (stopsTaken false bi s) ∧
      BoundaryKeeps (imagesApplied s.cycle (stopsTaken false bi s)) (imagesReleased false bi s) ∧
      BoundaryKeeps (onVote closeCycle (imagesReleased false bi s)) (runBoundary false bi s) := by
  obtain ⟨jump, hrun⟩ := runBoundary_eq false bi s
  rw [hrun]
  exact ⟨stopsTaken_keeps h.not_standby false bi, imagesReleased_active h.mode h.stop h.hw h.images bi, finishBoundary_keeps _ _ _ _⟩

/-- The latches at the end of the boundary, by what held them when RELEASE came. -/
theorem ReleaseDue.latches {s : State} (h : ReleaseDue s) (bi : BoundaryIn) : ∃ x e, OutsHeld s.outs x ∧ ∀ o, o < 96 →
    (outCell (runBoundary false bi s).outs o).latchH =
        (bitOf (imageH s.vote) o && latchesFree (letGo s.cycle e x) o && !(outCell x o).hsHeld) ∧
      (outCell (runBoundary false bi s).outs o).latchL =
        (bitOf (imageH s.vote) o && latchesFree (letGo s.cycle e x) o && !(outCell x o).lsHeld) := by
  obtain ⟨hstop, hrelease, hfinish⟩ := h.steps bi
  have hballot : SameBallot s.vote (stopsTaken false bi s).vote := hstop.ballot
  have himg : imageL (stopsTaken false bi s).vote = ~~~ imageH (stopsTaken false bi s).vote := by
    rw [hballot.imageL_eq, hballot.imageH_eq, h.images]
  refine ⟨(stopsTaken false bi s).outs, imageExpect (stopsTaken false bi s).vote, hstop.outs, fun o ho => ?_⟩
  obtain ⟨-, -, -, -, vouts⟩ := onVote_keeps closeCycle (imagesReleased false bi s)
  have houts : OutsHeld (imagesReleased false bi s).outs (runBoundary false bi s).outs := vouts ▸ hfinish.outs
  obtain ⟨hH, hL, -, -⟩ := (hrelease.outs.trans houts).cells o
  obtain ⟨aH, aL⟩ := imagesApplied_latches himg s.cycle ho
  rw [hH, hL, aH, aL, hballot.imageH_eq]
  exact ⟨rfl, rfl⟩

/-- The latches of an active module follow the voted image where no rank holds them, and none is set outside it. -/
theorem ReleaseDue.follow {s : State} (h : ReleaseDue s) (bi : BoundaryIn) {o : Nat} (ho : o < 96) :
    (bitOf (imageH s.vote) o = false →
      (outCell (runBoundary false bi s).outs o).latchH = false ∧ (outCell (runBoundary false bi s).outs o).latchL = false) ∧
    ((groupSt s.outs (outGroup o)).cut = false → (groupSt s.outs (outGroup o)).held = false → s.outs.stoppedH = false →
      s.outs.stoppedL = false → (outCell s.outs o).hsHeld = false → (outCell s.outs o).lsHeld = false →
      (outCell (runBoundary false bi s).outs o).latchH = bitOf (imageH s.vote) o ∧
        (outCell (runBoundary false bi s).outs o).latchL = bitOf (imageH s.vote) o) := by
  obtain ⟨x, e, hx, hlatches⟩ := h.latches bi
  obtain ⟨hH, hL⟩ := hlatches o ho
  obtain ⟨-, -, hhs, hls⟩ := hx.cells o
  rw [hH, hL]
  refine ⟨fun hbit => ?_, fun hcut hheld hsH hsL hho hlo => ?_⟩
  · rw [hbit]
    exact ⟨rfl, rfl⟩
  · rw [latchesFree_letGo ((hx.cut _).trans hcut) ((hx.held _).trans hheld) (hx.stoppedH.trans hsH) (hx.stoppedL.trans hsL), hhs, hls, hho, hlo]
    simp

/-- The vote's record starts anew, and the misses of the cycle become those of the previous one. -/
theorem ReleaseDue.votes {s : State} (h : ReleaseDue s) (bi : BoundaryIn) :
    (∀ r, r < 16 → (regionVote (runBoundary false bi s).vote r).verdict = none) ∧ (runBoundary false bi s).vote.deadline = false ∧
      (runBoundary false bi s).vote.dropReq = [] ∧
      ∀ d r, r < 16 → (copyOf (runBoundary false bi s).vote d r).missPrev = (copyOf s.vote d r).missNow ∧
        (copyOf (runBoundary false bi s).vote d r).missNow = false := by
  obtain ⟨hstop, hrelease, hfinish⟩ := h.steps bi
  obtain ⟨-, -, -, hcopies⟩ := imagesApplied_keeps s.cycle (stopsTaken false bi s)
  have hballot : SameBallot (closeCycle (imagesReleased false bi s).vote) (runBoundary false bi s).vote := hfinish.ballot
  refine ⟨fun r hr => ?_, hballot.deadline_eq, hballot.dropReq_eq, fun d r hr => ?_⟩
  · rw [hballot.regionVote_eq]
    exact closeCycle_verdict _ hr
  · obtain ⟨hprev, hnow⟩ := closeCycle_misses (imagesReleased false bi s).vote d hr
    refine ⟨(hballot.misses d r).1.trans (hprev.trans ((hrelease.ballot.misses d r).2.trans ?_)), (hballot.misses d r).2.trans hnow⟩
    rw [hcopies]
    exact (hstop.ballot.misses d r).2

theorem ReleaseDue.slk {s : State} (h : ReleaseDue s) (bi : BoundaryIn) :
    (runBoundary false bi s).ao.tbBad = (if slkBad bi.slkCount then s.ao.tbBad + 1 else 0) ∧
      (runBoundary false bi s).ao.hbHeld = (s.ao.hbHeld || (slkBad bi.slkCount && decide (1 ≤ s.ao.tbBad))) := by
  obtain ⟨hstop, hrelease, hfinish⟩ := h.steps bi
  obtain ⟨-, -, hao, -⟩ := imagesApplied_keeps s.cycle (stopsTaken false bi s)
  have hbad := hfinish.tbBad.trans (hrelease.tbBad.trans ((congrArg AoSt.tbBad hao).trans hstop.tbBad))
  have hheld := hfinish.hbHeld.trans (hrelease.hbHeld.trans ((congrArg AoSt.hbHeld hao).trans hstop.hbHeld))
  unfold boundaryBase at hbad hheld
  rw [timeBase_eq] at hbad hheld
  exact ⟨hbad, hheld⟩

/-! ## A boundary outside cycles (04 R143, 13 R383) -/

theorem idleBoundary_keeps (s : State) : (idleBoundary s).cycle = s.cycle + 1 ∧ (idleBoundary s).mode = s.mode ∧ (idleBoundary s).vote = s.vote ∧
    (idleBoundary s).clampOpen = s.clampOpen ∧ OutsHeld s.outs (idleBoundary s).outs ∧ (idleBoundary s).boundaries = s.boundaries := by
  have hfrozen := publishFrozen_frame s (freezeImage (s.cycle + 1) s)
  obtain ⟨fmode, -, -, fvote, fclamp⟩ := freezeImage_role (s.cycle + 1) s
  have fkeep := freezeImage_keeps (s.cycle + 1) s
  obtain ⟨pmode, -, -, pvote, pclamp⟩ := hfrozen.role
  have pkeep := fkeep.trans (.of_publish hfrozen)
  unfold idleBoundary
  dsimp only
  generalize publishFrozen s (freezeImage (s.cycle + 1) s) = u at *
  have hrest := ((PublishFrame.onDies (fun _ x => shiftEvents x) { u with cycle := s.cycle + 1, slkAdjust := 0 }).trans
    (sendIdles_frame s.cycle _)).trans (publishBoundary_frame _)
  obtain ⟨rmode, -, -, rvote, rclamp⟩ := hrest.role
  have rkeep := BoundaryKeeps.of_publish hrest
  exact ⟨rkeep.cycle, rmode.trans (pmode.trans fmode), rvote.trans (pvote.trans fvote), rclamp.trans (pclamp.trans fclamp),
    pkeep.outs.trans rkeep.outs, rkeep.boundaries.trans pkeep.boundaries⟩

/-! ## Which boundary the command is -/

/-- Votes that D has closed stand. -/
theorem closeVotes_closed {s : State} (h : s.vote.deadline = true) : closeVotes s = s := by
  unfold closeVotes
  rw [h, Bool.not_true, Bool.and_false, Bool.false_and]
  rfl

theorem bridleRuns_of {s : State} (hm : s.mode ≠ .dormant) (hh : s.heldForm = false) : bridleRuns s = true := by
  unfold bridleRuns
  rw [hh, decide_eq_true hm]
  rfl

theorem boundary_of_runs {s : State} (hm : s.mode = .active ∨ s.mode = .standby) (hh : s.heldForm = false) (hd : s.vote.deadline = true)
    (bi : BoundaryIn) : execCycleBoundary bi s = .next (runBoundary false bi s) := by
  have hb : bridleRuns s = true := bridleRuns_of (by rcases hm with hm | hm <;> rw [hm] <;> decide) hh
  have hrun : cyclesRun s = true := by unfold cyclesRun; rcases hm with hm | hm <;> rw [hm]
  unfold execCycleBoundary
  rw [hb, closeVotes_closed hd]
  rcases hm with hm | hm <;> rw [hm] <;> dsimp only <;> rw [hrun] <;> rfl

theorem boundary_of_ready {s : State} (hm : s.mode = .wake) (hs : s.start = .ready) (hh : s.heldForm = false) (bi : BoundaryIn) :
    execCycleBoundary bi s = .next (runBoundary true bi s) := by
  unfold execCycleBoundary
  rw [bridleRuns_of (by rw [hm]; decide) hh, hm]
  dsimp only
  rw [if_pos hs]
  rfl

theorem boundary_of_wake {s : State} (hm : s.mode = .wake) (hs : s.start = .cycles) (hh : s.heldForm = false) (hd : s.vote.deadline = true)
    (bi : BoundaryIn) : execCycleBoundary bi s = .next (runBoundary false bi s) := by
  have hrun : cyclesRun s = true := by
    unfold cyclesRun
    rw [hm]
    exact decide_eq_true hs
  unfold execCycleBoundary
  rw [bridleRuns_of (by rw [hm]; decide) hh, closeVotes_closed hd, hm]
  dsimp only
  rw [hrun, if_neg (show ¬ s.start = .ready by rw [hs]; decide), if_pos hs]
  rfl

theorem boundary_of_idle {s : State} (hm : s.mode = .safe ∨ s.mode = .shutdown) (hh : s.heldForm = false) (bi : BoundaryIn) :
    execCycleBoundary bi s = .next (idleBoundary s) := by
  have hb : bridleRuns s = true := bridleRuns_of (by rcases hm with hm | hm <;> rw [hm] <;> decide) hh
  unfold execCycleBoundary
  rw [hb]
  rcases hm with hm | hm <;> rw [hm] <;> rfl

theorem boundary_of_none {s : State} (h : s.mode = .dormant ∨ s.heldForm = true ∨ (s.mode = .wake ∧ s.start ≠ .ready ∧ s.start ≠ .cycles))
    (bi : BoundaryIn) : execCycleBoundary bi s = .next s := by
  unfold execCycleBoundary
  rcases h with hm | hh | ⟨hm, hready, hcycles⟩
  · rw [show bridleRuns s = false by simp [bridleRuns, hm]]
    rfl
  · rw [show bridleRuns s = false by simp [bridleRuns, hh]]
    rfl
  · rw [hm]
    dsimp only
    rw [if_neg hready, if_neg hcycles, ite_self]

/-- Settles O29: between RELEASE and the end of a boundary nothing but RELEASE itself changes the vote's record, the cycle or the latches. -/
theorem boundaryReleasesAndCountsOn : Obligations.BoundaryReleasesAndCountsOn := by
  unfold Obligations.BoundaryReleasesAndCountsOn
  intro s bi
  refine ⟨fun hm _ hh hd hstop hhw himg => ?_, fun hm _ hh hd hend => ?_, fun hm hs hh => ?_, fun hm hs hh hd => ?_, fun hm hh => ?_, fun h => ?_⟩
  · have hdue : ReleaseDue s := ⟨hm, hstop, hhw, himg⟩
    obtain ⟨hcycle, hcount⟩ := runBoundary_counts hdue.not_standby false bi
    obtain ⟨hverdict, hdeadline, hdrop, hmisses⟩ := hdue.votes bi
    exact ⟨_, boundary_of_runs (.inl hm) hh hd bi, hcycle.trans (nextCycle_runs (by rw [hm]; decide)), hcount, fun o ho => (hdue.follow bi ho).1,
      fun o ho => (hdue.follow bi ho).2, hverdict, hdeadline, hdrop, hmisses, hdue.slk bi⟩
  · obtain ⟨hcycle, hcount⟩ := runBoundary_counts (fun _ => hend) false bi
    exact ⟨_, boundary_of_runs (.inr hm) hh hd bi, hcycle.trans (nextCycle_runs (by rw [hm]; decide)), hcount⟩
  · have hstandby : s.mode = .standby → s.tether.gotEnd = false := fun h => absurd (hm.symm.trans h) (by decide)
    obtain ⟨hcycle, hcount⟩ := runBoundary_counts hstandby true bi
    exact ⟨_, boundary_of_ready hm hs hh bi, hcycle.trans (nextCycle_first s), hcount, runBoundary_first_imgH hstandby bi⟩
  · obtain ⟨hcycle, hcount⟩ := runBoundary_counts (fun h => absurd (hm.symm.trans h) (by decide)) false bi
    obtain ⟨hnone, hsome⟩ := nextCycle_wake hm
    exact ⟨_, boundary_of_wake hm hs hh hd bi, hcount, fun ha => hcycle.trans (hnone ha), fun a ha => hcycle.trans (hsome a ha)⟩
  · obtain ⟨hcycle, hmode, hvote, hclamp, houts, hcount⟩ := idleBoundary_keeps s
    exact ⟨_, boundary_of_idle hm hh bi, hcycle, hmode, hvote, hclamp, fun o => ⟨(houts.cells o).1, (houts.cells o).2.1⟩, hcount⟩
  · exact ⟨_, boundary_of_none h bi, rfl⟩

end Sys2Proof.Machine


/-!
PROOFS. What an instruction of rule code leaves as it is: its charge, its retirement, its trap (05 R172, R188, R194).
-/

namespace Sys2Proof.Machine

/-! ## What the die keeps beside its regions -/

theorem regionsOnly_modReg (r : Nat) (f : RegionSt → RegionSt) (x : DieSt) : RegionsOnly x (modReg x r f) := rfl

theorem addCharge_regions (r n : Nat) (x : DieSt) : RegionsOnly x (addCharge r n x) := by
  unfold addCharge
  split <;> rfl

theorem setPc_regions (r n : Nat) (x : DieSt) : RegionsOnly x (setPc r n x) := by
  unfold setPc
  split <;> rfl

theorem rset_regions (r n : Nat) (v : Word) (x : DieSt) : RegionsOnly x (rset r n v x) := by
  unfold rset
  split
  · rfl
  · split <;> rfl

theorem afterTask_regions (r : Nat) (t : BitVec 4) (ended : Bool) (x : DieSt) : RegionsOnly x (afterTask r t ended x) := by
  unfold afterTask
  split
  · split
    · exact (regionsOnly_modReg r _ x).trans (runTasksIn_starts r 1 _).1
    · exact RegionsOnly.refl x
  split
  · exact (runTasksIn_starts r 2 x).1
  · exact RegionsOnly.refl x

theorem RegionsOnly.cells_eq {x y : DieSt} (h : RegionsOnly x y) : y.cells = x.cells := by rw [h]

theorem RegionsOnly.getCell_eq {x y : DieSt} (h : RegionsOnly x y) (n : Nat) : getCell y n = getCell x n := by
  unfold getCell
  rw [h.cells_eq]

theorem RegionsAndClock.cells_eq {x y : DieSt} (h : RegionsAndClock x y) : y.cells = x.cells := by rw [h]

/-! ## Traps -/

/-- The die with the trap recorded in region `r`, the block forced and 0xC3 posted, before its task or run stops (05 R194). -/
def trapNoted (r : Nat) (cause : BitVec 8) (x : DieSt) : DieSt :=
  postEvent r 0xC3 (dieLog 0x407 r (BitVec.ofNat 32 (curPc x r) ++ (1#1 ++ 0#19 ++ runningTask x r ++ cause : BitVec 32))
    (modReg x r (fun g => { recordTrap (runningTask x r) cause (curPc x r) g with forceNext := true })))

theorem doTrap_eq (r : Nat) (cause : BitVec 8) (x : DieSt) :
    doTrap r cause x = if inRevert x r then endRevert r true (trapNoted r cause x)
      else afterTask r (runningTask x r) false (closeTask r svTRAP (trapNoted r cause x)) := rfl

theorem trapNoted_frame (r : Nat) (cause : BitVec 8) (x : DieSt) :
    trapNoted r cause x = { x with regions := (trapNoted r cause x).regions, logOut := (trapNoted r cause x).logOut } := rfl

/-- Two dies differ at most in their regions, in whether the fast clock runs, and in the records that they have raised. -/
def RegionsClockLog (x y : DieSt) : Prop := y = { x with regions := y.regions, fastClock := y.fastClock, logOut := y.logOut }

theorem doTrap_only (r : Nat) (cause : BitVec 8) (x : DieSt) : RegionsClockLog x (doTrap r cause x) := by
  have hstop : RegionsAndClock (trapNoted r cause x) (doTrap r cause x) := by
    rw [doTrap_eq]
    split
    · exact (regionsOnly_modReg r _ _).regionsAndClock.trans (idleClock_only _)
    · exact ((regionsOnly_modReg r _ _).trans (afterTask_regions r _ false _)).regionsAndClock
  have hnoted := trapNoted_frame r cause x
  unfold RegionsClockLog RegionsAndClock at *
  rw [hstop, hnoted]

theorem doTrap_cells (r : Nat) (cause : BitVec 8) (x : DieSt) : (doTrap r cause x).cells = x.cells := by rw [doTrap_only r cause x]

/-! ## A stop by the budget -/

theorem doOverrun_cells (r : Nat) (x : DieSt) : (doOverrun r x).cells = x.cells := rfl

theorem doRevertOverrun_cells (r : Nat) (x : DieSt) : (doRevertOverrun r x).cells = x.cells := by
  have h : RegionsAndClock x (doRevertOverrun r x) :=
    (((regionsOnly_modReg r _ x).trans (regionsOnly_modReg r _ _)).trans (regionsOnly_modReg r _ _)).regionsAndClock.trans (idleClock_only _)
  exact h.cells_eq

/-! ## What an instruction makes of the cells -/

/-- The effect that an instruction answers with; none for a trap. -/
def InsRes.effect : InsRes → Option DieSt
  | .ok z | .jump z => some z
  | .trap _ => none

theorem cells_counted (r k : Nat) (z : DieSt) :
    (pmcCount r k (pmcCount r 0x01 z)).cells = z.cells := by
  rw [(pmcCount_regions r k _).cells_eq, (pmcCount_regions r 0x01 z).cells_eq]

/-- An instruction leaves the cells as they are or as its effect has them: charges, counters, PC, traps and stops are no part of them. -/
theorem runIns_cells (cx : Ctx) (r c k : Nat) (f : DieSt → InsRes) (x : DieSt) :
    (runIns cx r c k f x).cells = x.cells ∨
      ∃ z, (f (addCharge r c x)).effect = some z ∧ (runIns cx r c k f x).cells = z.cells := by
  unfold runIns
  split
  · exact .inl rfl
  split
  · split
    · exact .inl (doRevertOverrun_cells r x)
    · exact .inl (doOverrun_cells r x)
  dsimp only
  cases hf : f (addCharge r c x) with
  | trap cause => exact .inl ((doTrap_cells r cause _).trans (addCharge_regions r c x).cells_eq)
  | jump z => exact .inr ⟨z, rfl, cells_counted r k z⟩
  | ok z =>
    refine .inr ⟨z, rfl, ?_⟩
    dsimp only
    split
    · exact (doTrap_cells r _ _).trans (cells_counted r k z)
    · exact (setPc_regions r _ _).cells_eq.trans (cells_counted r k z)

/-! ## Running rule code on a die -/

theorem runRule_die (d : Die) (r c k : Nat) (f : Ctx → DieSt → InsRes) (s : State) :
    dieOf (runRule d r c k f s) d = { runIns (ctxOf s) r c k (f (ctxOf s)) (dieOf s d) with logOut := [] } := by
  unfold runRule
  rw [dieOf_takeDieLogs, dieOf_onDie_self]

theorem runRule_step (d : Die) (r c k : Nat) (f : Ctx → DieSt → InsRes) (s : State) : DieStep d s (runRule d r c k f s) :=
  dieStep_onDie_logs d _ s

end Sys2Proof.Machine


/-!
PROOFS. No rule code closes a switch, re-energises a dropped output or alters a lock (02 R76 to R79, R91, 05 R199): O57.
-/

namespace Sys2Proof.Machine

/-! ## Records that are read as they stand -/

/-- The record passes its check, and no read of a coded field rewrites it (02 R73, R76, R77). -/
def ReadsClean (c : CellRec) : Prop := CheckedCell c ∧ ∀ f, (readCoded f c).2 = c

theorem readAll_clean {c : CellRec} (h : ∀ f, (readCoded f c).2 = c) (fs : List Coded) : readAll fs c = c :=
  List.foldlRecOn (motive := (· = c)) fs _ rfl fun _ he f _ => he ▸ h f

/-! ## What the application's writes store (02 R78, R79; 05 Table 5.13) -/

/-- A write of field `q` has turned `c` into `e`: no other coded field, and beside it at most faults and T0, have changed. -/
def FieldWritten (q : Coded) (c e : CellRec) : Prop :=
  e = { c with occ := e.occ, pos := e.pos, aspect := e.aspect, cmd := e.cmd, fault := e.fault, t0 := e.t0, checkErr := 0 } ∧
    ∀ p, p ≠ q → rawCoded p e = rawCoded p c

theorem FieldWritten.refl {c : CellRec} (h : c.checkErr = 0) (q : Coded) : FieldWritten q c c := ⟨by rw [← h], fun _ _ => rfl⟩

theorem FieldWritten.trans {q : Coded} {a b c : CellRec} (h : FieldWritten q a b) (k : FieldWritten q b c) : FieldWritten q a c :=
  ⟨by rw [k.1, h.1], fun p hp => (k.2 p hp).trans (h.2 p hp)⟩

theorem rawCoded_putCoded {p q : Coded} (h : p ≠ q) (v : Half) (c : CellRec) : rawCoded p (putCoded q v c) = rawCoded p c := by
  cases q <;> cases p <;> simp [rawCoded, putCoded] at h ⊢

theorem fieldWritten_putCoded {q : Coded} (hq : q ≠ .lock) (v : Half) (c : CellRec) : FieldWritten q c (putCoded q v c) := by
  refine ⟨?_, fun p hp => rawCoded_putCoded hp v c⟩
  match q, hq with
  | .occ, _ | .pos, _ | .aspect, _ | .cmd, _ => rfl

theorem rawCoded_addFault (p : Coded) (n : Nat) (c : CellRec) : rawCoded p (addFault n c) = rawCoded p c := by cases p <;> rfl

theorem fieldWritten_addFault (q : Coded) (n : Nat) (c : CellRec) : FieldWritten q c (addFault n c) :=
  ⟨rfl, fun p _ => rawCoded_addFault p n c⟩

/-- A command that is written, with what it makes of T0. -/
theorem CallOnly.written {c e : CellRec} (hc : c.checkErr = 0) (h : CallOnly c e) : FieldWritten .cmd c e := by
  obtain ⟨hframe, hcheck⟩ := h
  have herr := hcheck hc
  refine ⟨?_, fun p hp => ?_⟩
  · rw [hframe, herr]
  · rw [hframe]
    cases p <;> simp [rawCoded] at hp ⊢

theorem refuseWrite_written {q : Coded} (hq : q ≠ .lock) (pr : CellProf) {c : CellRec} (hc : c.checkErr = 0) :
    FieldWritten q c (refuseWrite q pr c).2 := by
  cases q with
  | cmd => exact ((writeCmdCode_callOnly pr _ c).written hc).trans (fieldWritten_addFault _ _ _)
  | occ | pos | aspect => exact (fieldWritten_putCoded hq _ c).trans (fieldWritten_addFault _ _ _)
  | lock => exact absurd rfl hq

/-- A write of a field by the application changes that field, faults and T0 alone. -/
theorem appWrite_written {q : Coded} (hq : q ≠ .lock) {c : CellRec} (hc : ReadsClean c) (v : Word) (pr : CellProf) (ok clear : Bool) :
    FieldWritten q c (appWrite q v pr ok clear c).2 := by
  obtain ⟨⟨herr, -⟩, hread⟩ := hc
  have hrefuse := refuseWrite_written hq pr herr
  unfold appWrite
  split
  · exact .refl herr q
  · exact hrefuse
  dsimp only
  split
  · exact hrefuse
  cases q with
  | lock => exact absurd rfl hq
  | occ | pos =>
    dsimp only
    split
    · exact fieldWritten_putCoded hq _ c
    · exact hrefuse
  | aspect =>
    dsimp only
    rw [readAll_clean hread]
    split
    · exact fieldWritten_putCoded hq _ c
    split
    · exact hrefuse
    exact iteInduction (motive := fun p : Word × CellRec => FieldWritten .aspect c p.2) (fun _ => hrefuse)
      fun _ => fieldWritten_putCoded hq _ c
  | cmd =>
    dsimp only
    rw [readAll_clean hread]
    split
    · exact (writeCmdCode_callOnly pr _ c).written herr
    split
    · exact (writeCmdCode_callOnly pr _ c).written herr
    split
    · exact (writeCmdCode_callOnly pr _ c).written herr
    · exact (writeCmdCode_callOnly pr _ c).written herr

/-! ## Locks -/

/-- The lock of a record and its owner stand as before. -/
def SameLock (c e : CellRec) : Prop := e.lock = c.lock ∧ e.owned = c.owned ∧ e.ownerRoute = c.ownerRoute

theorem SameLock.refl (c : CellRec) : SameLock c c := ⟨rfl, rfl, rfl⟩

theorem FieldWritten.sameLock {q : Coded} (hq : q ≠ .lock) {c e : CellRec} (h : FieldWritten q c e) : SameLock c e :=
  ⟨h.2 .lock hq.symm, by rw [h.1], by rw [h.1]⟩

theorem putTimer_sameLock (k : Nat) (t : Timer) (c : CellRec) : SameLock c (putTimer k t c) := by
  unfold putTimer
  split <;> exact ⟨rfl, rfl, rfl⟩

theorem foldl_clearFault_sameLock (l : List Nat) (c : CellRec) :
    SameLock c (l.foldl (fun c n => { c with fault := setBitOf c.fault n false, checkErr := 0 }) c) :=
  List.foldlRecOn (motive := SameLock c) l _ (.refl c) fun _ h _ _ => h

theorem clearFaults_sameLock (cx : Ctx) (x : DieSt) (mask : BitVec 16) (c : CellRec) : SameLock c (clearFaults cx x mask c) := by
  unfold clearFaults
  dsimp only
  split
  · obtain ⟨h1, h2, h3⟩ := foldl_clearFault_sameLock
      ((numsFrom 4 12).filter (fun n => bitOf mask n && hasFault c n && causeAbsent cx x c n)) c
    obtain ⟨k1, k2, k3⟩ := putTimer_sameLock 0 (stopTimer (List.foldl _ c _).t0) (List.foldl _ c _)
    exact ⟨k1.trans h1, k2.trans h2, k3.trans h3⟩
  · exact foldl_clearFault_sameLock _ c

/-- A read, where it gives a value, leaves the record as it stands, but for the fault that a damaged timer sets. -/
def ReadLeaves (c : CellRec) (a : Option (Word × CellRec)) : Prop := ∀ p ∈ a, p.2 = c ∨ p.2 = addFault fTIMER c

theorem ReadLeaves.ite {c : CellRec} {q : Prop} [Decidable q] {a b : Option (Word × CellRec)} (ha : ReadLeaves c a) (hb : ReadLeaves c b) :
    ReadLeaves c (if q then a else b) := iteInduction (fun _ => ha) fun _ => hb

theorem crdValue_leaves (id f : Nat) {c : CellRec} (hc : ReadsClean c) : ReadLeaves c (crdValue id f c) := by
  obtain ⟨hcheck, hread⟩ := hc
  have plain : ∀ w : Word, ReadLeaves c (some (w, c)) := fun w p hp => .inl (by cases hp; rfl)
  have code : ∀ q : Coded, ReadLeaves c (some ((readCoded q c).1.setWidth 32, (readCoded q c).2)) := fun q => by
    rw [hread]
    exact plain _
  have damaged : ∀ w : Word, ReadLeaves c (some (w, addFault fTIMER c)) := fun w p hp => .inr (by cases hp; rfl)
  unfold crdValue
  dsimp only
  rw [verifyCell_checked hcheck]
  exact .ite (plain _) <| .ite (plain _) <| .ite (plain _) <| .ite (code .occ) <| .ite (code .pos) <| .ite (code .lock) <|
    .ite (code .aspect) <| .ite (code .cmd) <| .ite (plain _) <| .ite (plain _) <| .ite (plain _) <|
    .ite (.ite (damaged _) (plain _)) <| .ite (plain _) <| .ite (plain _) <| .ite (plain _) <| .ite (plain _) fun _ hp => by cases hp

/-! ## Locks of a die -/

/-- Every cell of the first die that is read as it stands has its lock and owner in the second. -/
def LocksKept (x y : DieSt) : Prop := ∀ n, ReadsClean (getCell x n) → SameLock (getCell x n) (getCell y n)

theorem locksKept_of_cells {x y : DieSt} (h : y.cells = x.cells) : LocksKept x y := fun n _ => by
  unfold getCell
  rw [h]
  exact .refl _

theorem LocksKept.of_cells {x y z : DieSt} (h : LocksKept x y) (hz : z.cells = y.cells) : LocksKept x z := fun n hn => by
  have hcell : getCell z n = getCell y n := by
    unfold getCell
    rw [hz]
  rw [hcell]
  exact h n hn

theorem locksKept_setCell {x : DieSt} {id : Nat} {e : CellRec} (h : ReadsClean (getCell x id) → SameLock (getCell x id) e) :
    LocksKept x (setCell x id e) := fun n hn => by
  rw [getCell_setCell]
  split
  · rename_i hid
    subst hid
    exact h hn
  · exact .refl _

/-- What an instruction answers keeps the locks. -/
def AnswersLocked (x : DieSt) (a : InsRes) : Prop := ∀ z, a.effect = some z → LocksKept x z

theorem answersLocked_trap (x : DieSt) (cause : BitVec 8) : AnswersLocked x (.trap cause) := fun _ h => by cases h

theorem answersLocked_ok {x z : DieSt} (h : LocksKept x z) : AnswersLocked x (.ok z) := fun _ hz => by
  cases hz
  exact h

theorem answersLocked_jump {x z : DieSt} (h : LocksKept x z) : AnswersLocked x (.jump z) := fun _ hz => by
  cases hz
  exact h

/-- An effect on a register after one on the cells. -/
theorem answersLocked_rset {x y : DieSt} (h : LocksKept x y) (r n : Nat) (v : Word) : AnswersLocked x (.ok (rset r n v y)) :=
  answersLocked_ok (h.of_cells (rset_regions r n v y).cells_eq)

/-! ## The operations of the rows -/

theorem insAlu_locked (r n : Nat) (v : Word) (x : DieSt) : AnswersLocked x (insAlu r n v x) := answersLocked_rset (locksKept_of_cells rfl) r n v

theorem insLoad_locked (cx : Ctx) (r rd ra : Nat) (imm : BitVec 18) (n : Nat) (x : DieSt) : AnswersLocked x (insLoad cx r rd ra imm n x) := by
  unfold insLoad
  dsimp only
  split
  · exact answersLocked_trap x _
  split
  · exact answersLocked_trap x _
  · exact answersLocked_trap x _
  · exact answersLocked_rset (locksKept_of_cells rfl) r rd _

theorem insStore_locked (r rd ra : Nat) (imm : BitVec 18) (n : Nat) (x : DieSt) : AnswersLocked x (insStore r rd ra imm n x) := by
  unfold insStore
  dsimp only
  split
  · exact answersLocked_trap x _
  split
  · exact answersLocked_trap x _
  split
  · exact answersLocked_trap x _
  · split
    · refine answersLocked_ok (locksKept_of_cells ?_)
      split <;> rfl
    · exact answersLocked_trap x _
  · exact answersLocked_ok (locksKept_of_cells rfl)

theorem goTo_locked (r : Nat) (t : Int) (x : DieSt) : AnswersLocked x (goTo r t x) := by
  unfold goTo
  split
  · exact answersLocked_trap x _
  · exact answersLocked_jump (locksKept_of_cells ((setPc_regions r _ x).trans (pmcCount_regions r 0x0A _)).cells_eq)

theorem insBranch_locked (r : Nat) (taken : Bool) (off : BitVec 18) (x : DieSt) : AnswersLocked x (insBranch r taken off x) := by
  unfold insBranch
  split
  · exact goTo_locked r _ x
  · exact answersLocked_ok (locksKept_of_cells rfl)

theorem insJal_locked (r rd : Nat) (imm : BitVec 18) (x : DieSt) : AnswersLocked x (insJal r rd imm x) := by
  unfold insJal
  dsimp only
  have h := goTo_locked r ((curPc x r : Int) + 4 * imm.toInt) x
  split
  · rename_i y hy
    rw [hy] at h
    exact answersLocked_jump ((h y rfl).of_cells (rset_regions r rd _ y).cells_eq)
  · exact h

theorem insJr_locked (r ra : Nat) (x : DieSt) : AnswersLocked x (insJr r ra x) := by
  unfold insJr
  dsimp only
  have h := goTo_locked r (rget x r ra).toNat x
  split
  · split
    · exact answersLocked_trap x _
    · rename_i y hy _
      rw [hy] at h
      exact h
  · exact h

theorem insCrd_locked (r rd ra f : Nat) (x : DieSt) : AnswersLocked x (insCrd r rd ra f x) := by
  unfold insCrd
  dsimp only
  split
  · exact answersLocked_trap x _
  split
  · exact answersLocked_trap x _
  split
  · exact answersLocked_trap x _
  · rename_i v c hv
    refine answersLocked_rset ?_ r rd v
    split
    · exact locksKept_of_cells rfl
    · rename_i hp
      rw [if_neg hp] at hv
      refine locksKept_setCell fun hc => ?_
      rcases crdValue_leaves _ f hc _ hv with rfl | rfl <;> exact ⟨rfl, rfl, rfl⟩

/-- A field that the application may write is not the lock (05 Table 5.12). -/
theorem cwrField_ne_lock {f : Nat} {q : Coded} (h : cwrField f = some q) : q ≠ .lock := by
  unfold cwrField at h
  split at h <;> cases h <;> decide

theorem insCwr_locked (cx : Ctx) (r rd ra rb f : Nat) (x : DieSt) : AnswersLocked x (insCwr cx r rd ra rb f x) := by
  unfold insCwr
  dsimp only
  split
  · exact answersLocked_trap x _
  split
  · split
    · refine answersLocked_rset (locksKept_setCell fun hc => ?_) r rd _
      rw [verifyCell_checked hc.1]
      exact .refl _
    · refine answersLocked_rset (locksKept_setCell fun hc => ?_) r rd _
      rw [verifyCell_checked hc.1]
      exact ⟨rfl, rfl, rfl⟩
  split
  · exact answersLocked_trap x _
  · rename_i q hq
    refine answersLocked_rset (locksKept_setCell fun hc => ?_) r rd _
    rw [verifyCell_checked hc.1, hc.2]
    exact (appWrite_written (cwrField_ne_lock hq) hc _ _ _ _).sameLock (cwrField_ne_lock hq)

theorem insCfc_locked (cx : Ctx) (r rd ra rb f : Nat) (x : DieSt) : AnswersLocked x (insCfc cx r rd ra rb f x) := by
  unfold insCfc
  dsimp only
  split
  · exact answersLocked_trap x _
  split
  · exact answersLocked_trap x _
  · refine answersLocked_rset (locksKept_setCell fun hc => ?_) r rd _
    rw [verifyCell_checked hc.1]
    exact clearFaults_sameLock cx x _ _

/-- What a check of a record writes back keeps the locks. -/
theorem verified_locked (x : DieSt) (id : Nat) (b : Bool) : LocksKept x (if b then x else setCell x id (verifyCell (getCell x id))) := by
  split
  · exact locksKept_of_cells rfl
  · refine locksKept_setCell fun hc => ?_
    rw [verifyCell_checked hc.1]
    exact .refl _

theorem insIrd_locked (cx : Ctx) (r rd ra k : Nat) (x : DieSt) : AnswersLocked x (insIrd cx r rd ra k x) := by
  unfold insIrd
  dsimp only
  split
  · exact answersLocked_trap x _
  split
  · exact answersLocked_trap x _
  · exact answersLocked_rset (verified_locked x _ _) r rd _

theorem insOwr_locked (r ra rb k : Nat) (x : DieSt) : AnswersLocked x (insOwr r ra rb k x) := by
  unfold insOwr
  dsimp only
  split
  · exact answersLocked_trap x _
  split
  · exact answersLocked_trap x _
  split
  · exact answersLocked_trap x _
  split
  · exact answersLocked_trap x _
  · exact answersLocked_ok ((verified_locked x _ _).of_cells rfl)

theorem modTimer_locked (x : DieSt) (id k : Nat) (t : CellRec → Timer) :
    LocksKept x (modCell x id (fun c => putTimer k (t (verifyCell c)) (verifyCell c))) := by
  refine locksKept_setCell fun hc => ?_
  dsimp only
  rw [verifyCell_checked hc.1]
  exact putTimer_sameLock k _ _

theorem insTst_locked (r ra rb k : Nat) (x : DieSt) : AnswersLocked x (insTst r ra rb k x) := by
  unfold insTst
  dsimp only
  split
  · exact answersLocked_trap x _
  split
  · exact answersLocked_trap x _
  · exact answersLocked_ok (modTimer_locked x _ k fun _ => startTimer _)

theorem insTsp_locked (r ra k : Nat) (x : DieSt) : AnswersLocked x (insTsp r ra k x) := by
  unfold insTsp
  dsimp only
  split
  · exact answersLocked_trap x _
  · exact answersLocked_ok (modTimer_locked x _ k fun c => stopTimer (timerOf c k))

theorem insEwait_locked (r rd : Nat) (x : DieSt) : AnswersLocked x (insEwait r rd x) := by
  have hend : AnswersLocked x (.jump (afterTask r (reg x r).task true (closeTask r svENDED x))) :=
    answersLocked_jump (locksKept_of_cells ((regionsOnly_modReg r _ x).trans (afterTask_regions r _ true _)).cells_eq)
  unfold insEwait
  dsimp only
  split
  · split
    · exact answersLocked_rset (locksKept_of_cells rfl) r rd _
    · exact answersLocked_jump (locksKept_of_cells ((regionsOnly_modReg r _ x).regionsAndClock.trans (idleClock_only _)).cells_eq)
  split
  · split
    · exact answersLocked_rset (locksKept_of_cells rfl) r rd _
    · exact hend
  · exact hend

theorem insDacc_locked (r ra : Nat) (x : DieSt) : AnswersLocked x (insDacc r ra x) := by
  unfold insDacc
  split
  · exact answersLocked_trap x _
  · exact answersLocked_ok (locksKept_of_cells rfl)

/-! ## What a step of rule code leaves to the vote (05 R199) -/

/-- No command latch is set, no drop is lifted and the voted image stays. -/
structure DriveKept (s t : State) : Prop where
  latches : ∀ o, (outCell t.outs o).latchH = (outCell s.outs o).latchH ∧ (outCell t.outs o).latchL = (outCell s.outs o).latchL
  drops : ∀ o, isDropped s.vote o = true → isDropped t.vote o = true
  image : t.vote.imgH = s.vote.imgH

theorem DriveKept.refl (s : State) : DriveKept s s := ⟨fun _ => ⟨rfl, rfl⟩, fun _ => id, rfl⟩

theorem DriveKept.trans {s t u : State} (h : DriveKept s t) (k : DriveKept t u) : DriveKept s u := by
  refine ⟨fun o => ?_, fun o ho => k.drops o (h.drops o ho), k.image.trans h.image⟩
  obtain ⟨hh, hl⟩ := h.latches o
  obtain ⟨kh, kl⟩ := k.latches o
  exact ⟨kh.trans hh, kl.trans hl⟩

theorem driveKept_of_eq {s t : State} (ho : t.outs = s.outs) (hv : t.vote = s.vote) : DriveKept s t := by
  exact ⟨fun o => by rw [ho]; exact ⟨rfl, rfl⟩, fun o h => by rwa [hv], by rw [hv]⟩

/-- The cells of every die stand as before. -/
def CellsStand (s t : State) : Prop := ∀ d, (dieOf t d).cells = (dieOf s d).cells

/-- What 05 R199 asks of a step. -/
structure Restricts (s t : State) : Prop where
  drive : DriveKept s t
  locks : ∀ d, LocksKept (dieOf s d) (dieOf t d)

theorem Restricts.refl (s : State) : Restricts s s := ⟨.refl s, fun _ => locksKept_of_cells rfl⟩

/-- A step of rule code, with something after it that leaves the cells alone. -/
theorem Restricts.andThen {s t u : State} (h : Restricts s t) (hd : DriveKept t u) (hc : CellsStand t u) : Restricts s u :=
  ⟨h.drive.trans hd, fun d => (h.locks d).of_cells (hc d)⟩

/-- An instruction whose answer keeps the locks of its die. -/
theorem runRule_restricts {f : Ctx → DieSt → InsRes} (hf : ∀ cx y, AnswersLocked y (f cx y)) (d : Die) (r c k : Nat) (s : State) :
    Restricts s (runRule d r c k f s) := by
  obtain ⟨hframe, hothers⟩ := runRule_step d r c k f s
  refine ⟨driveKept_of_eq (by rw [hframe]) (by rw [hframe]), fun e => ?_⟩
  by_cases he : e = d
  · subst he
    rw [runRule_die]
    have hcharged : LocksKept (dieOf s e) (addCharge r c (dieOf s e)) := locksKept_of_cells (addCharge_regions r c _).cells_eq
    rcases runIns_cells (ctxOf s) r c k (f (ctxOf s)) (dieOf s e) with hsame | ⟨z, hz, hcells⟩
    · exact locksKept_of_cells hsame
    · intro n hn
      have hget : getCell (addCharge r c (dieOf s e)) n = getCell (dieOf s e) n := (addCharge_regions r c _).getCell_eq n
      have hlock := (hf _ _ z hz).of_cells (z := { runIns (ctxOf s) r c k (f (ctxOf s)) (dieOf s e) with logOut := [] }) hcells n
      rw [hget] at hlock
      exact hlock hn
  · rw [hothers e he]
    exact locksKept_of_cells rfl

/-! ## SECDED and drop requests -/

theorem excludeCopy_driveKept (d : Die) (r : Nat) (c : ExclCause) (s : State) : DriveKept s (excludeCopy d r c s) := by
  have hv : (excludeCopy d r c s).vote.drops = s.vote.drops ∧ (excludeCopy d r c s).vote.imgH = s.vote.imgH := by
    rw [excludeCopy_vote]
    split <;> exact ⟨rfl, rfl⟩
  have ho : (excludeCopy d r c s).outs = s.outs := by rw [excludeCopy_eq]
  refine ⟨fun o => by rw [ho]; exact ⟨rfl, rfl⟩, fun o h => ?_, hv.2⟩
  unfold isDropped at h ⊢
  rwa [hv.1]

theorem onDie_driveKept (d : Die) (f : DieSt → DieSt) (s : State) : DriveKept s (onDie d f s) := driveKept_of_eq rfl rfl

theorem haltRegion_cells (d : Die) (r : Nat) (s : State) : CellsStand s (haltRegion d r s) := fun e => by
  by_cases he : e = d
  · subst he
    exact (haltRegion_die e r s).cells_eq
  · exact congrArg DieSt.cells (dieOf_onDie_other s _ he)

theorem onRegion_cells (d : Die) (r : Nat) (f : RegionSt → RegionSt) (s : State) : CellsStand s (onDie d (fun x => modReg x r f) s) := fun e => by
  rw [dieOf_onDie]
  split
  · rename_i he
    subst he
    rfl
  · rfl

/-- What SECDED does about a read changes no cell and lifts no drop. -/
theorem eccEvent_kept (d : Die) (r a : Nat) (e : Ecc) (s : State) : DriveKept s (eccEvent d r a e s) ∧ CellsStand s (eccEvent d r a e s) := by
  cases e with
  | ok => exact ⟨.refl s, fun _ => rfl⟩
  | corrected => exact ⟨onDie_driveKept d _ s, onRegion_cells d r _ s⟩
  | uncorrectable =>
    unfold eccEvent
    dsimp only
    refine ⟨DriveKept.trans ?_ (excludeCopy_driveKept d r .halted _), fun q => ?_⟩
    · exact driveKept_of_eq rfl rfl
    · refine (excludeCopy_posts d r .halted _ q).1.cells_eq.trans ?_
      rw [dieOf_logOpen]
      exact (haltRegion_cells d r _ q).trans (onRegion_cells d r _ s q)

/-- A drop request lifts no drop and leaves the image (04 R164). -/
theorem dropRequest_kept (d : Die) (o : Nat) (k : Word) (live : Bool) (v : VoteSt) :
    (∀ p, isDropped v p = true → isDropped (dropRequest d o k live v) p = true) ∧ (dropRequest d o k live v).imgH = v.imgH := by
  cases ho : outOwner v o with
  | none =>
    rw [dropRequest_unowned ho]
    exact ⟨fun _ => id, rfl⟩
  | some r =>
    by_cases ha : (availDies v r).length < 2 ∨ isAvail v d r = true
    · rw [dropRequest_counted ho ha]
      exact ⟨fun p hp => by rw [isDropped_requestCounted, hp, Bool.true_or], rfl⟩
    · rw [not_or, Nat.not_lt, Bool.not_eq_true] at ha
      rw [dropRequest_barred ho ha.1 ha.2]
      exact ⟨fun _ => id, rfl⟩

theorem bridleDrop_kept (d : Die) (o : Nat) (s : State) : DriveKept s (bridleDrop d o s) ∧ CellsStand s (bridleDrop d o s) := by
  cases hl : s.ao.tripLatch with
  | true => rw [show bridleDrop d o s = s from if_pos hl]; exact ⟨.refl s, fun _ => rfl⟩
  | false =>
    rw [bridleDrop_eq hl]
    obtain ⟨hdrops, himg⟩ := dropRequest_kept d o s.cycle (outDriven s o) s.vote
    refine ⟨⟨fun p => ?_, hdrops, himg⟩, fun _ => rfl⟩
    obtain ⟨hh, hlow, -⟩ := (refreshOuts_keeps { s with vote := dropRequest d o s.cycle (outDriven s o) s.vote }).outs.cells p
    exact ⟨hh, hlow⟩

theorem ruleLoad_restricts (d : Die) (r rd ra : Nat) (imm : BitVec 18) (n : Nat) (e : Ecc) (s : State) :
    Restricts s (ruleLoad d r rd ra imm n e s) := by
  have hload := runRule_restricts (fun cx y => insLoad_locked cx r rd ra imm n y) d r 12 knLDST s
  unfold ruleLoad
  dsimp only
  split
  · obtain ⟨hdrive, hcells⟩ := eccEvent_kept d r (rget (dieOf s d) r ra + imm.signExtend 32).toNat e s
    exact (Restricts.refl s).andThen hdrive hcells
  split
  · obtain ⟨hdrive, hcells⟩ := eccEvent_kept d r (rget (dieOf s d) r ra + imm.signExtend 32).toNat e
      (runRule d r 12 knLDST (fun cx x => insLoad cx r rd ra imm n x) s)
    exact hload.andThen hdrive hcells
  · exact hload

theorem ruleDrop_restricts (d : Die) (r ra k : Nat) (s : State) : Restricts s (ruleDrop d r ra k s) := by
  unfold ruleDrop
  dsimp only
  cases dropTarget (dieOf s d) r ra k with
  | inr c => exact runRule_restricts (fun _ y => answersLocked_trap y c) d r 24 knCELL s
  | inl o =>
    have hcharged := runRule_restricts (f := fun _ y => .ok y) (fun _ y => answersLocked_ok (locksKept_of_cells rfl)) d r 24 knCELL s
    dsimp only
    split
    · obtain ⟨hdrive, hcells⟩ := bridleDrop_kept d o (runRule d r 24 knCELL (fun _ y => .ok y) s)
      exact hcharged.andThen hdrive hcells
    · exact hcharged

/-! ## Every row of rule code -/

theorem atPc_restricts {f : State → State} {s : State} (h : Restricts s (f s)) (d : Die) (r : Nat) (w : Word) : Restricts s (atPc d r w f s) := by
  unfold atPc
  split
  · exact h
  · exact .refl s

theorem illegal_restricts (d : Die) (r : Nat) (w : Word) (s : State) : Answers (.illegal d r w) s (Restricts s) := by
  have hrow : Restricts s (if illegalWord w then runRule d r 0 knPLAIN (fun _ _ => .trap cILLEGAL) s else s) := by
    split
    · exact runRule_restricts (fun _ y => answersLocked_trap y cILLEGAL) d r 0 knPLAIN s
    · exact .refl s
  exact ⟨_, rfl, atPc_restricts (f := fun s => if illegalWord w then runRule d r 0 knPLAIN (fun _ _ => .trap cILLEGAL) s else s) hrow d r w⟩

/-- A row of rule code answers a state in which nothing but what 05 R199 allows has changed. -/
theorem ruleCode_restricts {i : Instr} (hi : isRuleCode i = true) (s : State) : Answers i s (Restricts s) := by
  unfold isRuleCode at hi
  split at hi
  case h_1 | h_2 | h_3 => exact ⟨_, rfl, atPc_restricts (ruleLoad_restricts _ _ _ _ _ _ _ s) _ _ _⟩
  case h_4 | h_5 | h_6 => exact ⟨_, rfl, atPc_restricts (runRule_restricts (fun _ y => insStore_locked _ _ _ _ _ y) _ _ _ _ s) _ _ _⟩
  case h_26 | h_27 | h_28 | h_29 => exact ⟨_, rfl, atPc_restricts (runRule_restricts (fun _ y => insBranch_locked _ _ _ y) _ _ _ _ s) _ _ _⟩
  case h_30 => exact ⟨_, rfl, atPc_restricts (runRule_restricts (fun _ y => insJal_locked _ _ _ y) _ _ _ _ s) _ _ _⟩
  case h_31 => exact ⟨_, rfl, atPc_restricts (runRule_restricts (fun _ y => insJr_locked _ _ y) _ _ _ _ s) _ _ _⟩
  case h_32 => exact ⟨_, rfl, atPc_restricts (runRule_restricts (fun _ y => insCrd_locked _ _ _ _ y) _ _ _ _ s) _ _ _⟩
  case h_33 => exact ⟨_, rfl, atPc_restricts (runRule_restricts (fun cx y => insCwr_locked cx _ _ _ _ _ y) _ _ _ _ s) _ _ _⟩
  case h_34 => exact ⟨_, rfl, atPc_restricts (runRule_restricts (fun cx y => insCfc_locked cx _ _ _ _ _ y) _ _ _ _ s) _ _ _⟩
  case h_35 => exact ⟨_, rfl, atPc_restricts (runRule_restricts (fun cx y => insIrd_locked cx _ _ _ _ y) _ _ _ _ s) _ _ _⟩
  case h_36 => exact ⟨_, rfl, atPc_restricts (runRule_restricts (fun _ y => insOwr_locked _ _ _ _ y) _ _ _ _ s) _ _ _⟩
  case h_37 => exact ⟨_, rfl, atPc_restricts (runRule_restricts (fun _ y => insTst_locked _ _ _ _ y) _ _ _ _ s) _ _ _⟩
  case h_38 => exact ⟨_, rfl, atPc_restricts (runRule_restricts (fun _ y => insTsp_locked _ _ _ y) _ _ _ _ s) _ _ _⟩
  case h_39 => exact ⟨_, rfl, atPc_restricts (ruleDrop_restricts _ _ _ _ s) _ _ _⟩
  case h_40 => exact ⟨_, rfl, atPc_restricts (runRule_restricts (fun _ y => insEwait_locked _ _ y) _ _ _ _ s) _ _ _⟩
  case h_41 => exact ⟨_, rfl, atPc_restricts (runRule_restricts (fun _ y => insDacc_locked _ _ y) _ _ _ _ s) _ _ _⟩
  case h_42 => exact illegal_restricts _ _ _ s
  case h_43 => cases hi
  all_goals exact ⟨_, rfl, atPc_restricts (runRule_restricts (fun _ y => insAlu_locked _ _ _ y) _ _ _ _ s) _ _ _⟩

/-! ## Shares at COMMIT (02 R89) -/

theorem bitOf_setBitOf_imp {w : Nat} {v : BitVec w} {n o : Nat} (h : bitOf (setBitOf v n true) o = true) : o = n ∨ bitOf v o = true := by
  by_cases ho : o = n
  · exact .inl ho
  · exact .inr (by rwa [bitOf_setBitOf_other v true ho] at h)

/-- A bit of a set that grows by one rule is justified by that rule. -/
theorem bitOf_foldl_setBitOf {α : Type} {w o : Nat} {P : Prop} {f : BitVec w → α → BitVec w} {l : List α}
    (hf : ∀ v, ∀ a ∈ l, bitOf (f v a) o = true → P ∨ bitOf v o = true) {v : BitVec w} (h : bitOf (l.foldl f v) o = true) :
    P ∨ bitOf v o = true := by
  induction l generalizing v with
  | nil => exact .inr h
  | cons a l ih =>
    rcases ih (fun v b hb => hf v b (by simp [hb])) h with hP | hv
    · exact .inl hP
    · exact hf v a (by simp) hv

/-- A share that COMMIT takes is set in the table and goes through an open gate of a cell of the region that binds its output. -/
theorem gatedShares_gate {x : DieSt} {r o : Nat} (h : bitOf (gatedShares x r) o = true) : bitOf (reg x r).sup.shares o = true ∧
    ∃ q ∈ x.cells, ∃ k, regionOf q.1 = r ∧ outBase q.2 + k = o ∧ k < outCount q.2 ∧ gate q.2 k = true := by
  unfold gatedShares at h
  refine (bitOf_foldl_setBitOf (fun v q hq hv => bitOf_foldl_setBitOf (fun u k hk hu => ?_) hv) h).resolve_right (by simp [bitOf])
  obtain ⟨hmem, hcell⟩ := List.mem_filter.mp hq
  dsimp only at hu
  simp only [Bool.and_eq_true, decide_eq_true_eq] at hcell
  split at hu
  · rename_i hgate
    obtain ⟨hshare, hopen⟩ := Bool.and_eq_true_iff.mp hgate
    rcases bitOf_setBitOf_imp hu with ho | hu
    · exact .inl ⟨ho ▸ hshare, q, hmem, k, hcell.1.1, ho.symm, by have := mem_numsFrom.mp hk; omega, hopen⟩
    · exact .inr hu
  · exact .inr hu

/-- Settles O57: every row of rule code keeps drive and locks (`ruleCode_restricts`), and a share enters the COMMIT block through a gate
(`gatedShares_gate`). -/
theorem ruleCodeActsOnlyRestrictively : Obligations.RuleCodeActsOnlyRestrictively := by
  refine ⟨fun i s t hi hx => ?_, fun x r o h => gatedShares_gate h⟩
  obtain ⟨u, hu, hdrive, hlocks⟩ := ruleCode_restricts hi s
  obtain rfl := Host.Outcome.next.inj (hu.symm.trans hx)
  refine ⟨fun o => ?_, hdrive.image, fun d n hchecked hread => hlocks d n ⟨hchecked, hread⟩⟩
  obtain ⟨hh, hl⟩ := hdrive.latches o
  exact ⟨fun h => hh ▸ h, fun h => hl ▸ h, hdrive.drops o⟩

end Sys2Proof.Machine

/-!
PROOFS. Registers, branches and jumps (05 R172, R188): O1, O2, O3.
-/

namespace Sys2Proof.Machine

/-! ## What the charge leaves -/

/-- What an instruction reads of its region once its charge is taken. -/
theorem addCharge_reads {r : Nat} (hr : r < 16) (c : Nat) (x : DieSt) :
    (∀ k, rget (addCharge r c x) r k = rget x r k) ∧ curPc (addCharge r c x) r = curPc x r ∧
      curCharge (addCharge r c x) r = curCharge x r + c ∧ inRevert (addCharge r c x) r = inRevert x r ∧
      codeLen (addCharge r c x) r = codeLen x r := by
  obtain ⟨hS, hR, hget, hpc, hch, hrev⟩ := addCharge_only hr c x
  exact ⟨hget, hpc, hch, hrev, codeLen_congr hS.active_eq hrev (by rw [hR.1]) hR.mem_eq⟩

/-! ## An instruction that retires (05 R188, 19 R494) -/

/-- A region after an instruction that has retired: the PC of the running set has been set and the counters have counted. -/
def Retired (a b : RegionSt) : Prop :=
  b = { a with pc := b.pc, rpc := b.rpc, pmc := b.pmc, posted := b.posted } ∧ (if a.revert then b.pc = a.pc else b.rpc = a.rpc) ∧
    ∀ src, src < 200 ∨ 208 ≤ src → bitOf b.posted src = bitOf a.posted src

theorem CountsOnly.setPc {r : Nat} (hr : r < 16) {z w : DieSt} (h : CountsOnly (reg z r) (reg w r)) (n : Nat) :
    Retired (reg z r) (reg (setPc r n w) r) := by
  have hrev : inRevert w r = (reg z r).revert := inRevert_of_countsOnly h
  obtain ⟨heq, hposted⟩ := h
  unfold Machine.setPc
  cases hv : (reg z r).revert
  all_goals
    rw [hrev, hv]
    simp only [Bool.false_eq_true, if_false, if_true]
    rw [reg_modReg_self w hr]
    refine ⟨by rw [heq], ?_, hposted⟩
    simp only [hv, Bool.false_eq_true, if_false, if_true]
    rw [heq]

theorem Retired.registersOnly {a b : RegionSt} (h : Retired a b) : RegistersOnly a b := by
  obtain ⟨heq, hset, hposted⟩ := h
  refine ⟨by rw [heq], ?_, hposted⟩
  cases hv : a.revert <;> simp only [hv, Bool.false_eq_true, if_false, if_true] at hset ⊢ <;> rw [heq]
  · exact ⟨rfl, hset, rfl⟩
  · exact ⟨rfl, hset, rfl⟩

/-- The die after an instruction that has taken effect as `z` has retired, with PC at the next word. -/
structure RetiresAs (r : Nat) (z w : DieSt) : Prop where
  frame : SameButRegion r z w
  region : Retired (reg z r) (reg w r)
  gets : ∀ k, rget w r k = rget z r k
  next : curPc w r = (curPc z r + 4) % 2 ^ 17
  charge : curCharge w r = curCharge z r

/-- The counters of retired instructions. -/
theorem counted_only {r : Nat} (hr : r < 16) (k : Nat) (z : DieSt) :
    SameButRegion r z (pmcCount r k (pmcCount r 0x01 z)) ∧ CountsOnly (reg z r) (reg (pmcCount r k (pmcCount r 0x01 z)) r) := by
  obtain ⟨h1S, h1C⟩ := pmcCount_only hr 0x01 z
  obtain ⟨h2S, h2C⟩ := pmcCount_only hr k (pmcCount r 0x01 z)
  exact ⟨h1S.trans h2S, h1C.trans h2C⟩

theorem SameButRegion.strap_eq {r : Nat} {x y : DieSt} (h : SameButRegion r x y) : y.strap = x.strap := by rw [h.1]

/-- An instruction that falls through retires with whatever effect it had, as long as the code and its PC stand. -/
theorem runIns_retires {s : State} {d : Die} {r c : Nat} {f : Ctx → DieSt → InsRes} {z : DieSt} (kind : Nat) (hft : FallsThrough s d r c)
    (hf : f (ctxOf s) (addCharge r c (dieOf s d)) = .ok z) (hpc : curPc z r = curPc (dieOf s d) r)
    (hlen : codeLen z r = codeLen (dieOf s d) r) : RetiresAs r z (runIns (ctxOf s) r c kind (f (ctxOf s)) (dieOf s d)) := by
  obtain ⟨hgo, hlo, hhi⟩ := hft
  have hr := insGoes_lt hgo
  obtain ⟨hcan, hbud⟩ : canRun (dieOf s d) r = true ∧ curCharge (dieOf s d) r + c ≤ curBudget (ctxOf s) (dieOf s d) r := by
    simpa [insGoes] using hgo
  obtain ⟨hS, hC⟩ := counted_only hr kind z
  have hrun := runIns_ok (k := kind) hcan hbud hf
  generalize pmcCount r kind (pmcCount r 0x01 z) = w at *
  obtain ⟨hget, hwPc, hwCh, hmem⟩ := countsOnly_reads hS.strap_eq hC
  have hwLen : codeLen w r = codeLen z r := codeLen_congr hS.active_eq (inRevert_of_countsOnly hC) (by rw [hC.1]) hmem
  rw [hrun (by rw [hwPc, hpc]; omega) (by rw [hwPc, hpc, hwLen, hlen]; omega)]
  obtain ⟨hpS, -, hpGet, hpPc, hpCh, -⟩ := setPc_only hr (curPc w r + 4) w
  exact ⟨hS.trans hpS, hC.setPc hr _, fun k => (hpGet k).trans (hget k), by rw [hpPc, hwPc], hpCh.trans hwCh⟩

/-- An instruction that sets PC itself retires with its effect. -/
theorem runIns_jumps {s : State} {d : Die} {r c : Nat} {f : Ctx → DieSt → InsRes} {z : DieSt} (kind : Nat) (hgo : insGoes s d r c = true)
    (hf : f (ctxOf s) (addCharge r c (dieOf s d)) = .jump z) :
    SameButRegion r z (runIns (ctxOf s) r c kind (f (ctxOf s)) (dieOf s d)) ∧
      CountsOnly (reg z r) (reg (runIns (ctxOf s) r c kind (f (ctxOf s)) (dieOf s d)) r) := by
  obtain ⟨hcan, hbud⟩ : canRun (dieOf s d) r = true ∧ curCharge (dieOf s d) r + c ≤ curBudget (ctxOf s) (dieOf s d) r := by
    simpa [insGoes] using hgo
  rw [runIns_jump hcan hbud hf]
  exact counted_only (insGoes_lt hgo) kind z

/-- A jump as the module shows it. -/
theorem runRule_jump {s : State} {d : Die} {r c : Nat} {f : Ctx → DieSt → InsRes} {z : DieSt} (kind : Nat) (hgo : insGoes s d r c = true)
    (hf : f (ctxOf s) (addCharge r c (dieOf s d)) = .jump z) (hz : SameButRegion r (addCharge r c (dieOf s d)) z) :
    let y := dieOf (runRule d r c kind f s) d
    (∀ k, rget y r k = rget z r k) ∧ curPc y r = curPc z r ∧ curCharge y r = curCharge z r ∧ CountsOnly (reg z r) (reg y r) ∧
      RegionStep d r s (runRule d r c kind f s) := by
  obtain ⟨hS, hC⟩ := runIns_jumps kind hgo hf
  obtain ⟨hget, hpc, hch, -⟩ := countsOnly_reads hS.strap_eq hC
  dsimp only
  rw [runRule_die]
  exact ⟨hget, hpc, hch, hC, regionStep_of (((addCharge_only (insGoes_lt hgo) c (dieOf s d)).1.trans hz).trans hS)⟩

/-! ## Arithmetic and logic -/

theorem lui_value (imm : BitVec 16) : (imm ++ 0#16 : BitVec 32) = imm.setWidth 32 <<< 16 := by
  apply BitVec.eq_of_getLsbD_eq
  intro i hi
  rw [BitVec.getLsbD_append, BitVec.getLsbD_shiftLeft, BitVec.getLsbD_setWidth]
  by_cases h : i < 16
  · simp [h]
  · simp [h, hi, show i - 16 < 32 by omega]

theorem shiftBy_eq (w : Word) : shiftBy w = w.toNat % 32 := by simp [shiftBy, BitVec.extractLsb'_toNat]

theorem b2w_decide (p : Prop) [Decidable p] : b2w (decide p) = if p then 1 else 0 := by simp [b2w]

/-- A comparison with an immediate compares values (05 Table 5.7). -/
theorem eq_setWidth_iff (w : Word) (imm : BitVec 16) : w = imm.setWidth 32 ↔ w.toNat = imm.toNat := by
  rw [BitVec.toNat_eq, BitVec.toNat_setWidth, Nat.mod_eq_of_lt (by omega)]

/-- The rows of Table 5.7 that compute a register are one operation. -/
theorem exec_alu {i : Instr} {s : State} {d : Die} {r : Nat} {rd : BitVec 4} {v : Word} (h : aluResult s i = some (d, r, rd, v))
    (hF : Fetched i s) : ∃ val : DieSt → Word, (∀ y, (∀ k, rget y r k = rget (dieOf s d) r k) → val y = v) ∧
      exec i s = .next (runRule d r 1 knPLAIN (fun _ y => insAlu r rd.toNat (val y) y) s) := by
  unfold aluResult at h
  split at h
  case h_20 => cases h
  all_goals
    simp only [Option.some.injEq, Prod.mk.injEq] at h
    obtain ⟨rfl, rfl, rfl, rfl⟩ := h
    refine ⟨_, ?_, congrArg Host.Outcome.next (atPc_of_fetched hF rfl _)⟩
    intro y hy
  case h_1 => exact lui_value _
  case h_12 | h_13 | h_14 => simp only [hy, shiftBy_eq, gReg]
  case h_15 | h_19 =>
    simp only [hy, b2w_decide, gReg]
    rfl
  case h_16 =>
    simp only [hy, BitVec.slt, b2w_decide, gReg]
    rfl
  case h_17 =>
    simp only [hy, BitVec.ult, b2w_decide, gReg]
    rfl
  case h_18 =>
    simp only [hy, b2w_decide, eq_setWidth_iff, gReg]
    rfl
  all_goals simp only [hy, gReg]

theorem reg0_iff (n : BitVec 4) : n.toNat = 0 ↔ n = 0 := BitVec.toNat_inj (y := 0)

/-- An instruction whose one effect is a register: rd takes the value, and g0 none. -/
theorem runRule_rset {s : State} {d : Die} {r c : Nat} {f : Ctx → DieSt → InsRes} {rd : BitVec 4} {v : Word} (kind : Nat)
    (hft : FallsThrough s d r c) (hf : f (ctxOf s) (addCharge r c (dieOf s d)) = .ok (rset r rd.toNat v (addCharge r c (dieOf s d)))) :
    let t := runRule d r c kind f s
    gReg t d r rd = (if rd = 0 then 0 else v) ∧ OtherRegisters rd.toNat r (dieOf s d) (dieOf t d) ∧
      Advances r c (dieOf s d) (dieOf t d) ∧ RegistersOnly (reg (dieOf s d) r) (reg (dieOf t d) r) ∧ RegionStep d r s t := by
  have hr := insGoes_lt hft.1
  obtain ⟨hzS, hzR, hzPc, hzCh, -⟩ := rset_only hr rd.toNat v (addCharge r c (dieOf s d))
  obtain ⟨hget, hadv, hregs, hstep⟩ := runRule_ok (kind := kind) hft hf hzS hzR hzPc hzCh
  refine ⟨?_, fun k hk => ?_, hadv, hregs, hstep⟩
  · unfold gReg
    rw [hget, rget_rset hr, if_pos rfl]
    simp only [reg0_iff]
  · rw [hget, rget_rset hr, if_neg hk, (addCharge_reads hr c _).1]

/-- Settles O1: a row of Table 5.7 that computes a register (`exec_alu`) has that register as its one effect (`runRule_rset`). -/
theorem aluInstructionsWriteRdOnly : Obligations.AluInstructionsWriteRdOnly := by
  intro i s d r rd v h hft hF
  obtain ⟨val, hval, hx⟩ := exec_alu h hF
  refine ⟨_, hx, runRule_rset knPLAIN hft ?_⟩
  rw [← hval _ (addCharge_reads (insGoes_lt hft.1) 1 (dieOf s d)).1]
  rfl

/-! ## The tasks that follow one (05 R179) -/

theorem SameButRegion.ite {r : Nat} {x y z : DieSt} {p : Prop} [Decidable p] (hy : SameButRegion r x y) (hz : SameButRegion r x z) :
    SameButRegion r x (if p then y else z) := iteInduction (fun _ => hy) fun _ => hz

/-- Region memory, traps, counters and sources stand as a task starts in a region. -/
def Started (a b : RegionSt) : Prop :=
  b = { a with g := b.g, pc := b.pc, task := b.task, evtCur := b.evtCur, errLeft := b.errLeft, sup := { a.sup with initDone := b.sup.initDone } }

/-- Two dies differ at most in a task that has started in region `r`. -/
def StartsIn (r : Nat) (x y : DieSt) : Prop := SameButRegion r x y ∧ Started (reg x r) (reg y r)

theorem StartsIn.refl (r : Nat) (x : DieSt) : StartsIn r x x := ⟨.refl r x, rfl⟩

theorem StartsIn.trans {r : Nat} {x y z : DieSt} (h : StartsIn r x y) (k : StartsIn r y z) : StartsIn r x z := by
  obtain ⟨hS, hreg⟩ := h
  obtain ⟨kS, kreg⟩ := k
  refine ⟨hS.trans kS, ?_⟩
  unfold Started at *
  rw [kreg, hreg]

theorem StartsIn.ite {r : Nat} {x y z : DieSt} {p : Prop} [Decidable p] (hy : StartsIn r x y) (hz : StartsIn r x z) :
    StartsIn r x (if p then y else z) := iteInduction (fun _ => hy) fun _ => hz

theorem startsIn_modReg (r : Nat) (x : DieSt) {f : RegionSt → RegionSt} (hf : ∀ g, Started g (f g)) : StartsIn r x (modReg x r f) := by
  refine ⟨sameButRegion_modReg r x f, ?_⟩
  rw [reg_modReg]
  split
  · exact hf _
  · rfl

theorem startTask_startsIn (r : Nat) (t : BitVec 4) (x : DieSt) : StartsIn r x (startTask r t x) := startsIn_modReg r x fun _ => rfl

theorem runTasksIn_startsIn (r k : Nat) (x : DieSt) : StartsIn r x (runTasksIn r k x) := by
  have cyc : ∀ y, StartsIn r y (if decide (entryPoint x r tkCYCIN ≠ 0) then startTask r tkCYCIN y else y) := fun y =>
    .ite (startTask_startsIn r tkCYCIN y) (.refl r y)
  have err : ∀ y, StartsIn r y
      (if (errorSources (reg y r).sup.snap).isEmpty || !decide (entryPoint x r tkERROR ≠ 0) then
        if decide (entryPoint x r tkCYCIN ≠ 0) then startTask r tkCYCIN y else y
      else startTask r tkERROR (modReg y r (fun g => { g with errLeft := errorSources (reg y r).sup.snap }))) := fun y =>
    .ite (cyc y) ((startsIn_modReg r y fun _ => by exact rfl).trans (startTask_startsIn r tkERROR _))
  unfold runTasksIn
  dsimp only
  exact .ite (.refl r x) <| .ite
    (.ite (err x) <| .ite (startTask_startsIn r tkINIT x) <| (startsIn_modReg r x fun _ => by exact rfl).trans (err _))
    (.ite (err x) <| .ite (cyc x) <| .refl r x)

theorem afterTask_startsIn (r : Nat) (t : BitVec 4) (ended : Bool) (x : DieSt) : StartsIn r x (afterTask r t ended x) := by
  unfold afterTask
  exact .ite (.ite ((startsIn_modReg r x fun _ => by exact rfl).trans (runTasksIn_startsIn r 1 _)) (.refl r x))
    (.ite (runTasksIn_startsIn r 2 x) (.refl r x))

/-! ## A trap (05 R173, R194) -/

/-- The end of a task: its registers and status go to its save block. -/
theorem reg_closeTask {r : Nat} (hr : r < 16) (status : Word) (x : DieSt) :
    reg (closeTask r status x) r = { reg x r with
      mem := storeSaved x.strap (reg x r).mem (reg x r).task (reg x r).g status, g := [], task := 0, dirty := putA false 188 true (reg x r).dirty } :=
  reg_modReg_self x hr _

theorem recordTrap_frame (t : BitVec 4) (cause : BitVec 8) (pc : Nat) (g : RegionSt) :
    recordTrap t cause pc g = { g with trap := (recordTrap t cause pc g).trap, trapPc := (recordTrap t cause pc g).trapPc } := by
  unfold recordTrap
  split <;> rfl

/-- The first trap since VALID was cleared stands (05 Table 5.6). -/
theorem recordTrap_record (t : BitVec 4) (cause : BitVec 8) (pc : Nat) (g : RegionSt) :
    if bitOf g.trap 31 then (recordTrap t cause pc g).trap = g.trap ∧ (recordTrap t cause pc g).trapPc = g.trapPc
    else (recordTrap t cause pc g).trap = (1#1 ++ 0#19 ++ t ++ cause : BitVec 32) ∧ (recordTrap t cause pc g).trapPc = BitVec.ofNat 32 pc := by
  unfold recordTrap
  split <;> exact ⟨rfl, rfl⟩

theorem reg_dieLog (code : BitVec 16) (place : Nat) (data : BitVec 64) (x : DieSt) (q : Nat) : reg (dieLog code place data x) q = reg x q := rfl

theorem reg_trapNoted {r : Nat} (hr : r < 16) (cause : BitVec 8) (x : DieSt) :
    reg (trapNoted r cause x) r = { reg x r with
      trap := (recordTrap (runningTask x r) cause (curPc x r) (reg x r)).trap,
      trapPc := (recordTrap (runningTask x r) cause (curPc x r) (reg x r)).trapPc,
      forceNext := true, posted := setBitOf (reg x r).posted 0xC3 true } := by
  have hrecord := recordTrap_frame (runningTask x r) cause (curPc x r) (reg x r)
  unfold trapNoted postEvent
  rw [reg_modReg_self _ hr, reg_dieLog, reg_modReg_self _ hr]
  dsimp only
  generalize recordTrap (runningTask x r) cause (curPc x r) (reg x r) = g at *
  rw [hrecord]

/-- What a trap leaves in its region: the record, the forced block, the posted source, and the end of its task or run. -/
structure TrapLeaves (r : Nat) (cause : BitVec 8) (x y : DieSt) : Prop where
  frame : RegionsClockLog x y
  others : ∀ q, q ≠ r → reg y q = reg x q
  forced : (reg y r).forceNext = true
  posted : bitOf (reg y r).posted 0xC3 = true
  trap : (reg y r).trap = (recordTrap (runningTask x r) cause (curPc x r) (reg x r)).trap
  trapPc : (reg y r).trapPc = (recordTrap (runningTask x r) cause (curPc x r) (reg x r)).trapPc
  stops : if inRevert x r then (reg y r).revert = false ∧ (reg y r).rg = [] ∧ (reg y r).pend = 0
    else (reg y r).mem = storeSaved x.strap (reg x r).mem (reg x r).task (reg x r).g svTRAP

theorem doTrap_leaves {r : Nat} (hr : r < 16) (cause : BitVec 8) (x : DieSt) : TrapLeaves r cause x (doTrap r cause x) := by
  have hframe := doTrap_only r cause x
  have hnoted := reg_trapNoted hr cause x
  have hnotedOthers : ∀ q, q ≠ r → reg (trapNoted r cause x) q = reg x q := fun q hq => by
    unfold trapNoted postEvent
    rw [reg_modReg_other _ hq, reg_dieLog, reg_modReg_other _ hq]
  have hposted : bitOf (reg (trapNoted r cause x) r).posted 0xC3 = true := by
    rw [hnoted]
    exact bitOf_setBitOf_true _ (by decide)
  rw [doTrap_eq] at hframe ⊢
  cases hv : inRevert x r with
  | true =>
    simp only [hv, if_true] at hframe ⊢
    obtain ⟨-, hothers, hend⟩ := endRevert_region hr true (trapNoted r cause x)
    refine ⟨hframe, fun q hq => (hothers q hq).trans (hnotedOthers q hq), ?_, ?_, ?_, ?_, ?_⟩
    · rw [hend, hnoted]
    · rw [hend]
      exact hposted
    · rw [hend, hnoted]
    · rw [hend, hnoted]
    · rw [hv, if_pos rfl, hend]
      exact ⟨rfl, rfl, rfl⟩
  | false =>
    simp only [hv, Bool.false_eq_true, if_false] at hframe ⊢
    obtain ⟨⟨-, hothers⟩, hstart⟩ := afterTask_startsIn r (runningTask x r) false (closeTask r svTRAP (trapNoted r cause x))
    rw [reg_closeTask hr] at hstart
    unfold Started at hstart
    refine ⟨hframe, fun q hq => ?_, ?_, ?_, ?_, ?_, ?_⟩
    · exact (hothers q hq).trans ((reg_modReg_other _ hq _).trans (hnotedOthers q hq))
    · rw [hstart, hnoted]
    · rw [hstart]
      exact hposted
    · rw [hstart, hnoted]
    · rw [hstart, hnoted]
    · rw [hv, if_neg Bool.false_ne_true, hstart, hnoted]
      rfl

/-- A trap as the state shows it, from a die `z` in which the instruction has changed registers of the running set alone. -/
theorem trappedWith_of {s : State} {d : Die} {r : Nat} {cause : BitVec 8} {f : DieSt → DieSt} {z : DieSt} {g : Nat → Word} (hr : r < 16)
    (hf : f (dieOf s d) = doTrap r cause z) (hz : SameButRegion r (dieOf s d) z) (hro : RegistersOnly (reg (dieOf s d) r) (reg z r))
    (hpc : curPc z r = curPc (dieOf s d) r) (hg : ∀ k, 1 ≤ k → k ≤ 15 → rget z r k = g k) :
    TrappedWith g d r cause s (takeDieLogs d (onDie d f s)) := by
  obtain ⟨hframe, hothers, hforced, hposted, htrap, htrapPc, hstops⟩ := doTrap_leaves hr cause z
  have hregion : reg (dieOf (takeDieLogs d (onDie d f s)) d) r = reg (doTrap r cause z) r := reg_of_taken hf r
  have hrev : inRevert z r = (reg (dieOf s d) r).revert := hro.revert_eq
  have htask : runningTask z r = runningTask (dieOf s d) r := by
    unfold runningTask inRevert
    rw [hro.1]
  have hstood : (reg z r).trap = (reg (dieOf s d) r).trap ∧ (reg z r).trapPc = (reg (dieOf s d) r).trapPc := by
    rw [hro.1]
    exact ⟨rfl, rfl⟩
  unfold TrappedWith
  dsimp only
  rw [hregion]
  refine ⟨hforced, hposted, ?_, ?_, ?_⟩
  · rw [htrap, htrapPc, htask, hpc]
    have hrecord := recordTrap_record (runningTask (dieOf s d) r) cause (curPc (dieOf s d) r) (reg z r)
    rwa [hstood.1, hstood.2] at hrecord
  · rw [hrev] at hstops
    cases hv : (reg (dieOf s d) r).revert with
    | true => simpa [hv] using hstops
    | false =>
      rw [hv, if_neg Bool.false_ne_true] at hstops
      have hsave : (reg z r).task = (reg (dieOf s d) r).task := by rw [hro.1]
      obtain ⟨hstatus, hsaved⟩ := memWord_storeSaved z.strap (reg z r).mem (reg z r).task (reg z r).g svTRAP
      rw [if_neg Bool.false_ne_true, hstops, ← hsave]
      refine ⟨hstatus, fun k h1 h15 => (hsaved k h1 h15).trans ?_⟩
      rw [← hg k h1 h15]
      unfold rget
      rw [if_neg (by omega), hrev, hv, if_neg Bool.false_ne_true]
  · have hstep := dieStep_onDie_logs d f s
    obtain ⟨hlogs, helse⟩ := hstep
    refine ⟨hlogs, helse, ?_, fun q hq => ?_⟩
    · rw [dieOf_takeDieLogs, dieOf_onDie_self, hf, hframe, hz.1]
    · rw [reg_of_taken hf, hothers q hq, hz.2 q hq]

/-- An instruction that traps leaves the registers of its task as they stood. -/
theorem runRule_traps {s : State} {d : Die} {r c : Nat} {f : Ctx → DieSt → InsRes} {cause : BitVec 8} (kind : Nat)
    (hgo : insGoes s d r c = true) (hf : f (ctxOf s) (addCharge r c (dieOf s d)) = .trap cause) :
    Trapped d r cause s (runRule d r c kind f s) := by
  obtain ⟨hcan, hbud⟩ : canRun (dieOf s d) r = true ∧ curCharge (dieOf s d) r + c ≤ curBudget (ctxOf s) (dieOf s d) r := by
    simpa [insGoes] using hgo
  have hr := insGoes_lt hgo
  obtain ⟨hS, hR, hget, hpc, -, -⟩ := addCharge_only hr c (dieOf s d)
  exact trappedWith_of hr (runIns_trap hcan hbud hf) hS hR hpc fun k _ _ => hget k

/-- An instruction that falls off the code traps after its effect on the registers. -/
theorem runRule_falls_off {s : State} {d : Die} {r c : Nat} {f : Ctx → DieSt → InsRes} {z : DieSt} {g : Nat → Word} (kind : Nat)
    (hgo : insGoes s d r c = true) (hout : ¬ codePlace s d r (curPc (dieOf s d) r + 4))
    (hf : f (ctxOf s) (addCharge r c (dieOf s d)) = .ok z) (hz : SameButRegion r (addCharge r c (dieOf s d)) z)
    (hro : RegistersOnly (reg (addCharge r c (dieOf s d)) r) (reg z r)) (hpc : curPc z r = curPc (addCharge r c (dieOf s d)) r)
    (hg : ∀ k, 1 ≤ k → k ≤ 15 → rget z r k = g k) : TrappedWith g d r cPCRANGE s (runRule d r c kind f s) := by
  obtain ⟨hcan, hbud⟩ : canRun (dieOf s d) r = true ∧ curCharge (dieOf s d) r + c ≤ curBudget (ctxOf s) (dieOf s d) r := by
    simpa [insGoes] using hgo
  have hr := insGoes_lt hgo
  obtain ⟨haS, haR, -, haPc, -, -⟩ := addCharge_only hr c (dieOf s d)
  obtain ⟨hS, hC⟩ := counted_only hr kind z
  obtain ⟨hget, hwPc, -, -⟩ := countsOnly_reads hS.strap_eq hC
  have hrun : runIns (ctxOf s) r c kind (f (ctxOf s)) (dieOf s d) =
      if curPc (pmcCount r kind (pmcCount r 0x01 z)) r + 4 < 0x20 ||
          codeLen (pmcCount r kind (pmcCount r 0x01 z)) r < curPc (pmcCount r kind (pmcCount r 0x01 z)) r + 8 then
        doTrap r cPCRANGE (pmcCount r kind (pmcCount r 0x01 z))
      else setPc r (curPc (pmcCount r kind (pmcCount r 0x01 z)) r + 4) (pmcCount r kind (pmcCount r 0x01 z)) := by
    unfold runIns
    simp [hcan, Nat.not_lt.mpr hbud, hf]
  generalize pmcCount r kind (pmcCount r 0x01 z) = w at *
  have hwS := (haS.trans hz).trans hS
  have hwR := (haR.trans hro).trans hC.registersOnly
  have hpcw : curPc w r = curPc (dieOf s d) r := (hwPc.trans hpc).trans haPc
  have hlen : codeLen w r = codeLen (dieOf s d) r := codeLen_congr hwS.active_eq hwR.revert_eq (by rw [hwR.1]) hwR.mem_eq
  have hbad : (curPc w r + 4 < 0x20 || codeLen w r < curPc w r + 8) = true := by
    unfold codePlace at hout
    simp only [hpcw, hlen, Bool.or_eq_true, decide_eq_true_eq]
    omega
  rw [if_pos hbad] at hrun
  exact trappedWith_of hr hrun hwS hwR hpcw fun k h1 h15 => (hget k).trans (hg k h1 h15)

/-! ## Branches (05 R188) -/

/-- The die `z` after a jump to `t` from `y`. -/
structure Jumped (r : Nat) (t : Int) (y z : DieSt) : Prop where
  frame : SameButRegion r y z
  registers : RegistersOnly (reg y r) (reg z r)
  gets : ∀ k, rget z r k = rget y r k
  pc : curPc z r = t.toNat % 2 ^ 17
  charge : curCharge z r = curCharge y r

/-- A place of the code is jumped to; the jump is counted. -/
theorem goTo_place {r : Nat} (hr : r < 16) {t : Int} {y : DieSt} (h : 0x20 ≤ t ∧ t ≤ (codeLen y r : Int) - 4) :
    ∃ z, goTo r t y = .jump z ∧ Jumped r t y z := by
  obtain ⟨hS, hR, hget, hpc, hch, -⟩ := setPc_only hr t.toNat y
  obtain ⟨cS, cC⟩ := pmcCount_only hr 0x0A (setPc r t.toNat y)
  obtain ⟨cget, cpc, cch, -⟩ := countsOnly_reads cS.strap_eq cC
  refine ⟨pmcCount r 0x0A (setPc r t.toNat y), ?_, hS.trans cS, hR.trans cC.registersOnly, fun k => (cget k).trans (hget k),
    cpc.trans hpc, cch.trans hch⟩
  unfold goTo
  rw [if_neg (by omega)]

theorem goTo_out {r : Nat} {t : Int} {y : DieSt} (h : ¬ (0x20 ≤ t ∧ t ≤ (codeLen y r : Int) - 4)) : goTo r t y = .trap cPCRANGE := by
  unfold goTo
  rw [if_pos (by omega)]

/-- The branches of Table 5.7 are one operation. -/
theorem exec_branch {i : Instr} {s : State} {d : Die} {r : Nat} {taken : Bool} {off : BitVec 18} (h : branchOf s i = some (d, r, taken, off))
    (hF : Fetched i s) : ∃ p : DieSt → Bool, (∀ y, (∀ k, rget y r k = rget (dieOf s d) r k) → p y = taken) ∧
      exec i s = .next (runRule d r 3 knPLAIN (fun _ y => insBranch r (p y) off y) s) := by
  unfold branchOf at h
  split at h
  case h_5 => cases h
  all_goals
    simp only [Option.some.injEq, Prod.mk.injEq] at h
    obtain ⟨rfl, rfl, rfl, rfl⟩ := h
    refine ⟨_, ?_, congrArg Host.Outcome.next (atPc_of_fetched hF rfl _)⟩
    intro y hy
    simp only [hy, gReg]
    rfl

/-- A jump that a row of rule code takes, with what it has put in registers. -/
theorem runRule_jumped {s : State} {d : Die} {r c : Nat} {f : Ctx → DieSt → InsRes} {t : Int} {z : DieSt} (kind : Nat)
    (hgo : insGoes s d r c = true) (hf : f (ctxOf s) (addCharge r c (dieOf s d)) = .jump z) (hz : Jumped r t (addCharge r c (dieOf s d)) z) :
    let y := dieOf (runRule d r c kind f s) d
    curPc y r = t.toNat % 2 ^ 17 ∧ curCharge y r = curCharge (dieOf s d) r + c ∧ (∀ k, rget y r k = rget (dieOf s d) r k) ∧
      RegistersOnly (reg (dieOf s d) r) (reg y r) ∧ RegionStep d r s (runRule d r c kind f s) := by
  have hr := insGoes_lt hgo
  obtain ⟨-, haR, haGet, -, haCh, -⟩ := addCharge_only hr c (dieOf s d)
  obtain ⟨hget, hpc, hch, hC, hstep⟩ := runRule_jump kind hgo hf hz.frame
  exact ⟨hpc.trans hz.pc, (hch.trans hz.charge).trans haCh, fun k => ((hget k).trans (hz.gets k)).trans (haGet k),
    (haR.trans hz.registers).trans hC.registersOnly, hstep⟩

/-- Settles O2: a branch that is taken goes where `goTo_place` and `goTo_out` say; one that is not is an instruction without an effect. -/
theorem branchesSetPcOrTrap : Obligations.BranchesSetPcOrTrap := by
  intro i s d r taken off h hgo
  have hr := insGoes_lt hgo
  obtain ⟨-, -, haGet, haPc, -, -⟩ := addCharge_only hr 3 (dieOf s d)
  have haLen := (addCharge_reads hr 3 (dieOf s d)).2.2.2.2
  dsimp only
  refine ⟨?_, ?_, ?_, ?_⟩
  all_goals
    rintro rfl hplace hF
    obtain ⟨p, hp, hx⟩ := exec_branch h hF
    refine ⟨_, hx, ?_⟩
    have hp' := hp _ haGet
  · obtain ⟨z, hz, hjump⟩ := goTo_place hr (t := (curPc (dieOf s d) r : Int) + 4 * off.toInt) (y := addCharge r 3 (dieOf s d))
      (by rw [haLen]; exact hplace)
    have hf : insBranch r (p (addCharge r 3 (dieOf s d))) off (addCharge r 3 (dieOf s d)) = .jump z := by
      rw [hp', ← hz, ← haPc]
      rfl
    obtain ⟨hpc, hch, hget, hregs, hstep⟩ := runRule_jumped knPLAIN hgo (f := fun _ y => insBranch r (p y) off y) hf hjump
    exact ⟨hpc, hch, fun n => hget n.toNat, hregs, hstep⟩
  · refine runRule_traps knPLAIN hgo ?_
    have hout := goTo_out (r := r) (t := (curPc (dieOf s d) r : Int) + 4 * off.toInt) (y := addCharge r 3 (dieOf s d))
      (by rw [haLen]; exact hplace)
    rw [hp', ← hout, ← haPc]
    rfl
  · obtain ⟨hget, hadv, hregs, hstep⟩ := runRule_ok (kind := knPLAIN) (f := fun _ y => insBranch r (p y) off y)
      (z := addCharge r 3 (dieOf s d)) ⟨hgo, hplace⟩ (by rw [hp']; rfl) (.refl r _) (.refl _) rfl rfl
    exact ⟨hadv, fun n => (hget n.toNat).trans (haGet n.toNat), hregs, hstep⟩
  · exact runRule_falls_off knPLAIN hgo hplace (f := fun _ y => insBranch r (p y) off y) (z := addCharge r 3 (dieOf s d))
      (by rw [hp']; rfl) (.refl r _) (.refl _) rfl fun k _ _ => haGet k

/-! ## Jumps (05 R188) -/

/-- The register that JAL writes is not among those that a jump sets. -/
theorem Jumped.rset {r : Nat} (hr : r < 16) {t : Int} {y z : DieSt} (h : Jumped r t y z) (n : Nat) (v : Word) :
    SameButRegion r y (rset r n v z) ∧ RegistersOnly (reg y r) (reg (rset r n v z) r) ∧
      (∀ k, rget (rset r n v z) r k = if k = n then (if n = 0 then 0 else v) else rget y r k) ∧
      curPc (rset r n v z) r = t.toNat % 2 ^ 17 ∧ curCharge (rset r n v z) r = curCharge y r := by
  obtain ⟨hS, hR, hpc, hch, -⟩ := rset_only hr n v z
  refine ⟨h.frame.trans hS, h.registers.trans hR, fun k => ?_, hpc.trans h.pc, hch.trans h.charge⟩
  rw [rget_rset hr, h.gets]

/-- Settles O3: both go where `goTo_place` says; JAL writes its link on top. -/
theorem jumpsLinkAndGo : Obligations.JumpsLinkAndGo := by
  intro s d r rd ra imm hgo
  have hr := insGoes_lt hgo
  obtain ⟨-, haR, haGet, haPc, haCh, -⟩ := addCharge_only hr 3 (dieOf s d)
  have haLen := (addCharge_reads hr 3 (dieOf s d)).2.2.2.2
  dsimp only
  refine ⟨fun hplace hF => ?_, fun hplace hal hF => ?_⟩
  · obtain ⟨z, hz, hjump⟩ := goTo_place hr (t := (curPc (dieOf s d) r : Int) + 4 * imm.toInt) (y := addCharge r 3 (dieOf s d))
      (by rw [haLen]; exact hplace)
    have hf : insJal r rd.toNat imm (addCharge r 3 (dieOf s d)) =
        .jump (rset r rd.toNat (BitVec.ofNat 32 (curPc (dieOf s d) r + 4)) z) := by
      unfold insJal
      rw [haPc, hz]
    obtain ⟨hzS, hzR, hzGet, hzPc, hzCh⟩ := hjump.rset hr rd.toNat (BitVec.ofNat 32 (curPc (dieOf s d) r + 4))
    obtain ⟨hget, hpc, hch, hC, hstep⟩ := runRule_jump knPLAIN hgo (f := fun _ y => insJal r rd.toNat imm y) hf hzS
    refine ⟨_, congrArg Host.Outcome.next (atPc_of_fetched hF rfl _), hpc.trans hzPc, ?_, fun k hk => ?_, (hch.trans hzCh).trans haCh,
      (haR.trans hzR).trans hC.registersOnly, hstep⟩
    · unfold gReg
      rw [hget, hzGet, if_pos rfl]
      simp only [reg0_iff]
    · rw [hget, hzGet, if_neg hk, haGet]
  · obtain ⟨z, hz, hjump⟩ := goTo_place hr (t := (gReg s d r ra).toNat) (y := addCharge r 3 (dieOf s d)) (by rw [haLen]; exact hplace)
    have hf : insJr r ra.toNat (addCharge r 3 (dieOf s d)) = .jump z := by
      unfold insJr
      dsimp only
      rw [show rget (addCharge r 3 (dieOf s d)) r ra.toNat = gReg s d r ra from haGet _, hz]
      exact if_neg (not_not_intro hal)
    obtain ⟨hpc, hch, hget, hregs, hstep⟩ := runRule_jumped knPLAIN hgo (f := fun _ y => insJr r ra.toNat y) hf hjump
    exact ⟨_, congrArg Host.Outcome.next (atPc_of_fetched hF rfl _), hpc, fun n => hget n.toNat, hch, hregs, hstep⟩

end Sys2Proof.Machine

/-!
PROOFS. Loads and stores (00 R10, 05 R174, R188): O4, O6.
-/

namespace Sys2Proof.Machine

/-! ## Loads -/

/-- A load of which SECDED makes nothing, or that reads no region memory, is the load alone. -/
theorem ruleLoad_clean {s : State} {d : Die} {r n : Nat} {rd ra : BitVec 4} {imm : BitVec 18} {e : Ecc}
    (h : e = .ok ∨ ¬ (memAddr s d r ra imm % n = 0 ∧ loadArea (dieOf s d) r (memAddr s d r ra imm) = .mem)) :
    ruleLoad d r rd.toNat ra.toNat imm n e s = runRule d r 12 knLDST (fun cx x => insLoad cx r rd.toNat ra.toNat imm n x) s := by
  unfold ruleLoad
  dsimp only
  rw [show (rget (dieOf s d) r ra.toNat + imm.signExtend 32).toNat = memAddr s d r ra imm from rfl]
  rcases h with rfl | hm
  · rw [if_neg (by simp)]
    exact ite_self _
  · rw [if_neg (by simp; tauto), if_neg (by simp; tauto)]

theorem toNat_leWord (b0 b1 b2 b3 : Byte) : (leWord b0 b1 b2 b3).toNat = b0.toNat + 2 ^ 8 * (b1.toNat + 2 ^ 8 * (b2.toNat + 2 ^ 8 * b3.toNat)) := by
  unfold leWord
  simp only [BitVec.toNat_append, Nat.shiftLeft_eq, Nat.mul_comm _ (2 ^ 8),
    ← Nat.two_pow_add_eq_or_of_lt (BitVec.isLt _)]
  omega

/-- A load of `n` bytes is zero-extended (05 R188). -/
theorem loadN_lt (cx : Ctx) (x : DieSt) (r a : Nat) {n : Nat} (hn : n = 1 ∨ n = 2 ∨ n = 4) : (loadN cx x r a n).toNat < 2 ^ (8 * n) := by
  unfold loadN
  rw [toNat_leWord]
  rcases hn with rfl | rfl | rfl
  · simp
    omega
  · simp
    omega
  · simp
    omega

theorem rget_zero (x : DieSt) (r : Nat) : rget x r 0 = 0 := if_pos rfl

/-- Settles O4: where SECDED has no part in it a load is `runRule_load`; what it reads is little-endian and zero-extended (`extract_loadN`,
`loadN_lt`). -/
theorem loadsReadLittleEndian : Obligations.LoadsReadLittleEndian := by
  intro i s d r rd a n e hl ht hft he hF
  obtain ⟨ra, imm, rfl, hn, hx⟩ := exec_load hl hF
  refine ⟨_, hx, ?_⟩
  rw [ruleLoad_clean (he.imp_right fun hm h => hm h.2)]
  have hr := insGoes_lt hft.1
  obtain ⟨-, haR, -, -, -, haRev⟩ := addCharge_only hr 12 (dieOf s d)
  obtain ⟨hget, hadv, hregs, hstep⟩ := runRule_load (kind := knLDST) rd ra imm hft ht
  refine ⟨fun hrd => ?_, rget_zero _ r, fun k hk => (hget k).trans (if_neg hk), hadv, hregs, hstep⟩
  have hval : gReg (runRule d r 12 knLDST (fun cx x => insLoad cx r rd.toNat ra.toNat imm n x) s) d r rd =
      loadN (ctxOf s) (addCharge r 12 (dieOf s d)) r (memAddr s d r ra imm) n :=
    ((hget rd.toNat).trans (if_pos rfl)).trans (if_neg (mt (reg0_iff rd).mp hrd))
  rw [hval]
  refine ⟨fun k hk => extract_loadN _ _ _ _ hn hk, loadN_lt _ _ _ _ hn, fun hm k hk => ?_⟩
  obtain ⟨hmk, hdk⟩ := loadArea_mem_add hn (loadTrap_none ht).1 hk hm
  rw [extract_loadN _ _ _ _ hn hk, loadByte_mem _ ((loadArea_congr haRev _).trans hmk) hdk, haR.mem_eq]

/-! ## Stores -/

/-- The three stores of Table 5.7 are one operation. -/
theorem exec_store {i : Instr} {s : State} {d : Die} {r a n : Nat} {v : Word} (h : storeOf s i = some (d, r, a, n, v)) (hF : Fetched i s) :
    ∃ (rd ra : BitVec 4) (imm : BitVec 18), memAddr s d r ra imm = a ∧ gReg s d r rd = v ∧ (n = 1 ∨ n = 2 ∨ n = 4) ∧
      exec i s = .next (runRule d r 12 knLDST (fun _ y => insStore r rd.toNat ra.toNat imm n y) s) := by
  unfold storeOf at h
  split at h
  case h_4 => cases h
  all_goals
    simp only [Option.some.injEq, Prod.mk.injEq] at h
    obtain ⟨rfl, rfl, rfl, rfl, rfl⟩ := h
    exact ⟨_, _, _, rfl, rfl, by decide, congrArg Host.Outcome.next (atPc_of_fetched hF rfl _)⟩

/-- Bytes put at places of a store, read back at one of them or apart from them. -/
theorem memByte_foldl_memPut (a q : Nat) (w : Word) : ∀ (ks : List Nat) (m : List Host.Cell),
    memByte (ks.foldl (fun m k => memPut m (a + k) (byteOf w k)) m) q = if a ≤ q ∧ q - a ∈ ks then byteOf w (q - a) else memByte m q
  | [], m => by simp
  | k :: ks, m => by
    rw [List.foldl_cons, memByte_foldl_memPut a q w ks, memByte_memPut]
    by_cases hk : a + k = q
    · subst hk
      simp
    · have hne : a ≤ q → q - a ≠ k := by omega
      by_cases ha : a ≤ q
      · simp [hk, ha, hne ha]
      · simp [hk, ha]

/-- A store writes its bytes, the low byte at the lowest address, and no other (00 R10). -/
theorem memByte_storeMem (m : List Host.Cell) (a : Nat) {n : Nat} (hn : n ≤ 4) (w : Word) (q : Nat) :
    memByte (storeMem m a n w) q = if a ≤ q ∧ q < a + n then w.extractLsb' (8 * (q - a)) 8 else memByte m q := by
  unfold storeMem
  rw [memByte_foldl_memPut]
  by_cases h : a ≤ q ∧ q < a + n
  · rw [if_pos h, if_pos ⟨h.1, mem_numsFrom.mpr ⟨Nat.zero_le _, by omega⟩⟩]
    unfold byteOf
    rw [Nat.mod_eq_of_lt (by omega)]
  · rw [if_neg h, if_neg fun h' => h ⟨h'.1, by have := mem_numsFrom.mp h'.2; omega⟩]

/-- The code lies below the retained data, so a change above leaves its length (05 Table 5.2). -/
theorem codeLen_of_code {x y : DieSt} {r : Nat} (ha : y.active = x.active) (hr : inRevert y r = inRevert x r)
    (hb : (reg y r).revertBank = (reg x r).revertBank) (hm : ∀ q, q < memDATA → memByte (reg y r).mem q = memByte (reg x r).mem q) :
    codeLen y r = codeLen x r := by
  have hbase : runBase y r = runBase x r := by
    unfold runBase codeBase
    rw [ha, hr, hb]
  have hlow : runBase x r + 0x18 ≤ memDATA := by
    have hbank : ∀ b, bankBase b + 0x18 ≤ memDATA := by decide
    unfold runBase codeBase
    split
    · exact hbank _
    · exact hbank _
  unfold codeLen memWord
  rw [hbase, hm _ (by omega), hm _ (by omega), hm _ (by omega), hm _ (by omega)]

/-- RR.TRAP after a store of `n` bytes at `a`: VALID is cleared where a 1 is written to it (05 Table 5.6). -/
def trapCleared (a n : Nat) (v trap : Word) : Word :=
  if a = 0x200004 ∧ n = 4 ∧ bitOf v 31 then setBitOf trap 31 false
  else if a = 0x200006 ∧ n = 2 ∧ bitOf v 15 then setBitOf trap 31 false
  else if a = 0x200007 ∧ n = 1 ∧ bitOf v 7 then setBitOf trap 31 false else trap

theorem storeArea_range (x : DieSt) (r a : Nat) :
    (storeArea x r a = .mem ∧ memDATA ≤ a) ∨ storeArea x r a = .rr ∨ storeArea x r a = .none := by
  unfold storeArea memDATA memSCRATCH
  simp only [Bool.and_eq_true, decide_eq_true_eq]
  split_ifs <;> simp_all
  omega

theorem storeTrap_none {x : DieSt} {r a n : Nat} (h : storeTrap x r a n = none) :
    a % n = 0 ∧ ((storeArea x r a = .mem ∧ memDATA ≤ a) ∨ (storeArea x r a = .rr ∧ 0x200004 ≤ a ∧ a < 0x200008)) := by
  unfold storeTrap at h
  split at h <;> [cases h; skip]
  split at h <;> [cases h; skip]
  split at h <;> [cases h; skip]
  split at h <;> [cases h; skip]
  rename_i hal hnone hrr
  refine ⟨by omega, ?_⟩
  rcases storeArea_range x r a with hm | hm | hm
  · exact .inl hm
  · simp only [hm, decide_true, Bool.true_and, Bool.not_eq_true', Bool.and_eq_false_iff, decide_eq_false_iff_not] at hrr
    exact .inr ⟨hm, by omega, by omega⟩
  · exact absurd hm hnone

/-- The die `z` after a store of `n` bytes of `v` at `a`. -/
structure Stored (r a n : Nat) (v : Word) (y z : DieSt) : Prop where
  frame : SameButRegion r y z
  region : reg z r = { reg y r with mem := (reg z r).mem, trap := (reg z r).trap, dirty := (reg z r).dirty }
  code : ∀ q, q < memDATA → memByte (reg z r).mem q = memByte (reg y r).mem q
  mem : storeArea y r a = .mem → (reg z r).trap = (reg y r).trap ∧
    ∀ q, memByte (reg z r).mem q = if a ≤ q ∧ q < a + n then v.extractLsb' (8 * (q - a)) 8 else memByte (reg y r).mem q
  registers : storeArea y r a = .rr → (reg z r).mem = (reg y r).mem ∧ (reg z r).trap = trapCleared a n v (reg y r).trap

theorem markDirty_frame (a : Nat) (g : RegionSt) : markDirty a g = { g with dirty := (markDirty a g).dirty } := by
  unfold markDirty
  split <;> rfl

/-- A store into region memory. -/
theorem stored_mem {r a n : Nat} (hr : r < 16) (hn : n ≤ 4) (v : Word) {y : DieSt} (hm : storeArea y r a = .mem) (ha : memDATA ≤ a) :
    Stored r a n v y (modReg y r (fun g => markDirty a { g with mem := storeMem g.mem a n v })) := by
  have hreg := reg_modReg_self y hr (fun g => markDirty a { g with mem := storeMem g.mem a n v })
  have hframe := markDirty_frame a { reg y r with mem := storeMem (reg y r).mem a n v }
  have hmem : (markDirty a { reg y r with mem := storeMem (reg y r).mem a n v }).mem = storeMem (reg y r).mem a n v := by rw [hframe]
  have htrap : (markDirty a { reg y r with mem := storeMem (reg y r).mem a n v }).trap = (reg y r).trap := by rw [hframe]
  refine ⟨sameButRegion_modReg r y _, ?_, fun q hq => ?_, fun _ => ⟨?_, fun q => ?_⟩, fun hrr => ?_⟩
  · rw [hreg, hmem, htrap]
    exact hframe
  · rw [hreg, hmem, memByte_storeMem _ _ hn, if_neg (by omega)]
  · rw [hreg, htrap]
  · rw [hreg, hmem, memByte_storeMem _ _ hn]
  · rw [hm] at hrr
    cases hrr

theorem bitOf_shiftLeft (v : Word) {k i : Nat} (hi : i < 32) (hk : k ≤ i) : bitOf (v <<< k) i = bitOf v (i - k) := by
  unfold bitOf
  rw [BitVec.getLsbD_shiftLeft, decide_eq_true hi, decide_eq_false (by omega)]
  simp

/-- VALID is bit 31 of RR.TRAP: the model's test of a store there, by the three forms of store. -/
theorem trapCleared_eq {a n : Nat} (hn : n = 1 ∨ n = 2 ∨ n = 4) (hal : a % n = 0) (hlo : 0x200004 ≤ a) (hhi : a < 0x200008) (v trap : Word) :
    trapCleared a n v trap =
      if bitOf (v <<< (8 * (a - 0x200004))) 31 && decide (0x200007 < a + n) then setBitOf trap 31 false else trap := by
  rw [bitOf_shiftLeft v (by decide) (by omega)]
  unfold trapCleared
  obtain ⟨k, rfl, hk⟩ : ∃ k, a = 0x200004 + k ∧ k < 4 := ⟨a - 0x200004, by omega, by omega⟩
  have hk4 : k = 0 ∨ k = 1 ∨ k = 2 ∨ k = 3 := by omega
  rcases hn with rfl | rfl | rfl <;> rcases hk4 with rfl | rfl | rfl | rfl <;> simp at hal ⊢

/-- A store into RR.TRAP. -/
theorem stored_trap {r a n : Nat} (hr : r < 16) {v : Word} {y : DieSt} {b : Bool} (hrr : storeArea y r a = .rr)
    (hb : trapCleared a n v (reg y r).trap = if b then setBitOf (reg y r).trap 31 false else (reg y r).trap) :
    Stored r a n v y (if b then modReg y r (fun g => { g with trap := setBitOf g.trap 31 false }) else y) := by
  have hmem : storeArea y r a = .mem → False := fun h => by rw [hrr] at h; cases h
  cases b with
  | false => exact ⟨.refl r y, rfl, fun _ _ => rfl, fun h => (hmem h).elim, fun _ => ⟨rfl, hb.symm⟩⟩
  | true =>
    have hreg := reg_modReg_self y hr (fun g => { g with trap := setBitOf g.trap 31 false })
    rw [if_pos rfl]
    refine ⟨sameButRegion_modReg r y _, ?_, fun q _ => ?_, fun h => (hmem h).elim, fun _ => ⟨?_, ?_⟩⟩ <;> rw [hreg]
    exact hb.symm

/-- A store without a trap cause. -/
theorem insStore_ok {r rd ra n a : Nat} (hr : r < 16) (hn : n = 1 ∨ n = 2 ∨ n = 4) (imm : BitVec 18) {y : DieSt}
    (ha : (rget y r ra + imm.signExtend 32).toNat = a) (h : storeTrap y r a n = none) :
    ∃ z, insStore r rd ra imm n y = .ok z ∧ Stored r a n (rget y r rd) y z := by
  obtain ⟨hal, hm⟩ := storeTrap_none h
  unfold insStore
  rw [ha]
  dsimp only
  rcases hm with ⟨hm, hge⟩ | ⟨hrr, hlo, hhi⟩
  · rw [if_neg (by simp [hm]), if_neg (not_not_intro hal), hm]
    exact ⟨_, rfl, stored_mem hr (by omega) _ hm hge⟩
  · rw [if_neg (by simp [hrr]), if_neg (not_not_intro hal), hrr]
    dsimp only
    rw [if_pos (by simp [hlo, hhi])]
    exact ⟨_, rfl, stored_trap hr hrr (trapCleared_eq hn hal hlo hhi _ _)⟩

theorem storeArea_congr {x y : DieSt} {r : Nat} (h : inRevert y r = inRevert x r) (a : Nat) : storeArea y r a = storeArea x r a := by
  unfold storeArea
  rw [h]

theorem storeTrap_congr {x y : DieSt} {r : Nat} (h : inRevert y r = inRevert x r) (a n : Nat) : storeTrap y r a n = storeTrap x r a n := by
  unfold storeTrap
  rw [storeArea_congr h, h]

/-- The charge of an instruction is all that it adds to its region. -/
theorem reg_addCharge {r : Nat} (hr : r < 16) (c : Nat) (x : DieSt) :
    reg (addCharge r c x) r = { reg x r with charge := (reg (addCharge r c x) r).charge, rcharge := (reg (addCharge r c x) r).rcharge } := by
  unfold addCharge
  split <;> rw [reg_modReg_self x hr]

/-- Both register sets of a region stand, with their PCs and charges. -/
def SameSets (a b : RegionSt) : Prop :=
  b.revert = a.revert ∧ b.g = a.g ∧ b.rg = a.rg ∧ b.pc = a.pc ∧ b.rpc = a.rpc ∧ b.charge = a.charge ∧ b.rcharge = a.rcharge

theorem SameSets.reads {r : Nat} {y z : DieSt} (hs : z.strap = y.strap) (h : SameSets (reg y r) (reg z r)) :
    (∀ k, rget z r k = rget y r k) ∧ curPc z r = curPc y r ∧ curCharge z r = curCharge y r ∧ inRevert z r = inRevert y r := by
  obtain ⟨hrev, hg, hrg, hpc, hrpc, hch, hrch⟩ := h
  refine ⟨fun k => ?_, ?_, ?_, hrev⟩
  · unfold rget inRevert
    rw [hs, hrev, hg, hrg]
  · unfold curPc inRevert
    rw [hrev, hpc, hrpc]
  · unfold curCharge inRevert
    rw [hrev, hch, hrch]

/-- An instruction with an effect on its region, as the module shows it. -/
theorem runRule_retires {s : State} {d : Die} {r c : Nat} {f : Ctx → DieSt → InsRes} {z : DieSt} (kind : Nat) (hft : FallsThrough s d r c)
    (hf : f (ctxOf s) (addCharge r c (dieOf s d)) = .ok z) (hz : SameButRegion r (addCharge r c (dieOf s d)) z)
    (hpc : curPc z r = curPc (addCharge r c (dieOf s d)) r) (hch : curCharge z r = curCharge (addCharge r c (dieOf s d)) r)
    (hlen : codeLen z r = codeLen (addCharge r c (dieOf s d)) r) :
    let t := runRule d r c kind f s
    (∀ k, rget (dieOf t d) r k = rget z r k) ∧ Advances r c (dieOf s d) (dieOf t d) ∧ Retired (reg z r) (reg (dieOf t d) r) ∧
      RegionStep d r s t := by
  obtain ⟨-, haPc, haCh, -, haLen⟩ := addCharge_reads (insGoes_lt hft.1) c (dieOf s d)
  obtain ⟨hS, hret, hget, hnext, hcharge⟩ := runIns_retires kind hft hf (hpc.trans haPc) (hlen.trans haLen)
  dsimp only
  rw [runRule_die]
  exact ⟨hget, ⟨hnext.trans (by rw [hpc, haPc]), (hcharge.trans hch).trans haCh⟩, hret,
    regionStep_of (((addCharge_only (insGoes_lt hft.1) c (dieOf s d)).1.trans hz).trans hS)⟩

/-- Settles O6: a store without a trap cause is `Stored` (`insStore_ok`); as code lies below what it can reach, it retires
(`runRule_retires`). -/
theorem storesChangeTheirBytesOnly : Obligations.StoresChangeTheirBytesOnly := by
  intro i s d r a n v h ht hft hF
  obtain ⟨rd, ra, imm, rfl, rfl, hn, hx⟩ := exec_store h hF
  have hr := insGoes_lt hft.1
  obtain ⟨haGet, -, -, haRev, -⟩ := addCharge_reads hr 12 (dieOf s d)
  have haReg := reg_addCharge hr 12 (dieOf s d)
  have haddr : (rget (addCharge r 12 (dieOf s d)) r ra.toNat + imm.signExtend 32).toNat = memAddr s d r ra imm :=
    congrArg (fun w => (w + imm.signExtend 32).toNat) (haGet ra.toNat)
  obtain ⟨z, hz, hstored⟩ := insStore_ok (rd := rd.toNat) hr hn imm haddr ((storeTrap_congr haRev _ n).trans ht)
  rw [haGet] at hstored
  obtain ⟨hS, hregion, hcode, hmem, htrap⟩ := hstored
  have hsets : SameSets (reg (addCharge r 12 (dieOf s d)) r) (reg z r) := by
    rw [hregion]
    exact ⟨rfl, rfl, rfl, rfl, rfl, rfl, rfl⟩
  obtain ⟨hzGet, hzPc, hzCh, hzRev⟩ := hsets.reads hS.strap_eq
  have hzLen := codeLen_of_code hS.active_eq hzRev (by rw [hregion]) hcode
  obtain ⟨hget, hadv, ⟨hreg, -⟩, hstep⟩ :=
    runRule_retires knLDST (f := fun _ y => insStore r rd.toNat ra.toNat imm n y) hft hz hS hzPc hzCh hzLen
  refine ⟨_, hx, ?_⟩
  rw [storeArea_congr haRev] at hmem htrap
  generalize runRule d r 12 knLDST _ s = t at *
  have hbMem : (reg (dieOf t d) r).mem = (reg z r).mem := by rw [hreg]
  have hbTrap : (reg (dieOf t d) r).trap = (reg z r).trap := by rw [hreg]
  have hyMem : (reg (addCharge r 12 (dieOf s d)) r).mem = (reg (dieOf s d) r).mem := by rw [haReg]
  have hyTrap : (reg (addCharge r 12 (dieOf s d)) r).trap = (reg (dieOf s d) r).trap := by rw [haReg]
  rw [hyMem, hyTrap] at hmem htrap
  dsimp only
  rw [hbMem, hbTrap]
  refine ⟨hmem, htrap, fun k => ?_, hadv, ?_, hstep⟩
  · exact ((hget k.toNat).trans (hzGet k.toNat)).trans (haGet k.toNat)
  · rw [hreg, hregion, haReg]

end Sys2Proof.Machine

/-!
PROOFS. Rows of rule code that meet a trap cause (05 R194, Table 5.11): O7.
-/

namespace Sys2Proof.Machine

/-! ## What a charged die reads as -/

theorem getCell_addCharge (r c : Nat) (x : DieSt) (n : Nat) : getCell (addCharge r c x) n = getCell x n := (addCharge_regions r c x).getCell_eq n

theorem inPropagate_addCharge (r c : Nat) (x : DieSt) : inPropagate (addCharge r c x) = inPropagate x := by
  unfold inPropagate
  rw [addCharge_regions r c x]

/-! ## Cell IDs (05 R187) -/

theorem extract_high_iff (w : Word) : w.extractLsb' 12 20 = 0 ↔ w.toNat < 4096 := by
  rw [BitVec.toNat_eq, BitVec.extractLsb'_toNat, Nat.shiftRight_eq_div_pow]
  have hw := w.isLt
  simp
  omega

theorem cellIdOf_isSome (w : Word) : (cellIdOf w).isSome = decide (w.toNat < 4096) := by
  unfold cellIdOf
  rw [apply_ite Option.isSome]
  by_cases h : w.toNat < 4096
  · rw [if_pos ((extract_high_iff w).mpr h), decide_eq_true h]
    rfl
  · rw [if_neg (mt (extract_high_iff w).mp h), decide_eq_false h]
    rfl

theorem cellIdOf_isNone (w : Word) : (cellIdOf w).isNone = decide (4096 ≤ w.toNat) := by
  rw [← Option.not_isSome, cellIdOf_isSome, ← decide_not, decide_eq_decide]
  omega

/-! ## The causes of the rows -/

theorem loadTrap_congr {x y : DieSt} {r : Nat} (h : inRevert y r = inRevert x r) (a n : Nat) : loadTrap y r a n = loadTrap x r a n := by
  unfold loadTrap
  rw [loadArea_congr h]

theorem insLoad_trap (cx : Ctx) {y : DieSt} {r n a : Nat} (rd ra : Nat) (imm : BitVec 18) {cause : BitVec 8}
    (ha : (rget y r ra + imm.signExtend 32).toNat = a) (h : loadTrap y r a n = some cause) : insLoad cx r rd ra imm n y = .trap cause := by
  unfold loadTrap at h
  unfold insLoad
  rw [ha]
  split at h
  · cases h
    exact if_pos ‹_›
  rw [if_neg ‹_›]
  cases hm : loadArea y r a <;> simp [hm] at h ⊢ <;> exact h

/-- A load that meets a trap cause reads nothing. -/
theorem ruleLoad_trap {s : State} {d : Die} {r n : Nat} {rd ra : BitVec 4} {imm : BitVec 18} (e : Ecc) {cause : BitVec 8}
    (h : loadTrap (dieOf s d) r (memAddr s d r ra imm) n = some cause) :
    ruleLoad d r rd.toNat ra.toNat imm n e s = runRule d r 12 knLDST (fun cx x => insLoad cx r rd.toNat ra.toNat imm n x) s := by
  refine ruleLoad_clean (.inr fun ⟨hal, hm⟩ => ?_)
  simp [loadTrap, hal, hm] at h

theorem insStore_trap {y : DieSt} {r n a : Nat} (rd ra : Nat) (imm : BitVec 18) {cause : BitVec 8}
    (ha : (rget y r ra + imm.signExtend 32).toNat = a) (h : storeTrap y r a n = some cause) : insStore r rd ra imm n y = .trap cause := by
  unfold storeTrap at h
  unfold insStore
  rw [ha]
  dsimp only
  split at h
  · cases h
    exact if_pos ‹_›
  rw [if_neg ‹_›]
  split at h
  · cases h
    exact if_pos ‹_›
  rw [if_neg ‹_›]
  rcases storeArea_range y r a with ⟨hm, -⟩ | hm | hm
  · simp [hm] at h
  · simp only [hm] at h ⊢
    by_cases hin : (decide (0x200004 ≤ a) && decide (a < 0x200008)) = true
    · simp [hin] at h
    · rw [if_neg hin]
      simp [hin] at h
      rw [h]
  · simp only [hm, if_true] at h ⊢
    cases h
    rfl

theorem insJal_trap {s : State} {d : Die} {r : Nat} {imm : BitVec 18} {y : DieSt} {cause : BitVec 8} (rd : Nat)
    (hpc : curPc y r = curPc (dieOf s d) r) (hlen : codeLen y r = codeLen (dieOf s d) r)
    (h : jumpTrap s d r (curPc (dieOf s d) r + 4 * imm.toInt) true = some cause) : insJal r rd imm y = .trap cause := by
  unfold jumpTrap at h
  split at h
  · cases h
    unfold insJal
    dsimp only
    rw [hpc, goTo_out (by omega)]
  · cases h

theorem insJr_trap {s : State} {d : Die} {r : Nat} {ra : BitVec 4} {y : DieSt} {cause : BitVec 8} (hr : r < 16)
    (hget : rget y r ra.toNat = gReg s d r ra) (hlen : codeLen y r = codeLen (dieOf s d) r)
    (h : jumpTrap s d r (gReg s d r ra).toNat (decide ((gReg s d r ra).toNat % 4 = 0)) = some cause) : insJr r ra.toNat y = .trap cause := by
  unfold jumpTrap at h
  unfold insJr
  dsimp only
  rw [hget]
  split at h
  · cases h
    rw [goTo_out (by omega)]
  · obtain ⟨z, hz, -⟩ := goTo_place hr (t := (gReg s d r ra).toNat) (y := y) (by omega)
    rw [hz]
    by_cases hal : (gReg s d r ra).toNat % 4 = 0
    · simp [hal] at h
    · simp [hal] at h
      rw [h]
      exact if_pos hal

/-- CRD knows no selector beyond 0x18 (05 Table 5.12). -/
theorem crdValue_none (id : Nat) {f : Nat} (h : 0x19 ≤ f) (c : CellRec) : crdValue id f c = none := by
  unfold crdValue
  dsimp only
  iterate 11 rw [if_neg (by omega)]
  iterate 5 rw [if_neg (by omega)]

/-- The causes that CRD meets, lowest first (05 Table 5.11). -/
def crdTrap (y : DieSt) (r f : Nat) (w : Word) : Option (BitVec 8) :=
  if inPropagate y = true ∧ regionOf (w.extractLsb' 0 12).toNat ≠ r ∧ w.toNat < 4096 then some cCELLFOREIGN
  else if 4096 ≤ w.toNat then some cCELLRANGE else if 0x19 ≤ f then some cFIELD else none

theorem insCrd_trap {y : DieSt} {r ra f : Nat} (rd : Nat) {cause : BitVec 8} (h : crdTrap y r f (rget y r ra) = some cause) :
    insCrd r rd ra f y = .trap cause := by
  unfold crdTrap at h
  unfold insCrd
  dsimp only
  rw [cellIdOf_isSome, cellIdOf_isNone]
  split at h
  · rename_i hforeign
    cases h
    exact if_pos (by simpa [and_assoc] using hforeign)
  · rename_i hforeign
    rw [if_neg (by simpa [and_assoc] using hforeign)]
    split at h
    · cases h
      exact if_pos (decide_eq_true ‹_›)
    · rw [if_neg (mt of_decide_eq_true ‹_›)]
      split at h
      · cases h
        rw [crdValue_none _ ‹_›]
      · cases h

theorem cellWriteCause_eq (x : DieSt) (r : Nat) (w : Word) : cellWriteCause x r w = cellTrap x r w := by
  unfold cellWriteCause cellTrap
  rw [cellIdOf_isSome, cellIdOf_isNone]

theorem cellTrap_congr {x y : DieSt} {r : Nat} (hrev : inRevert y r = inRevert x r) (hprop : inPropagate y = inPropagate x)
    (hcell : ∀ n, getCell y n = getCell x n) (w : Word) : cellTrap y r w = cellTrap x r w := by
  unfold cellTrap
  rw [hrev, hprop]
  simp only [hcell]

theorem insCwr_trap (cx : Ctx) {y : DieSt} {r ra f : Nat} (rd rb : Nat) {cause : BitVec 8}
    (h : (cellTrap y r (rget y r ra)).or (if [0x03, 0x04, 0x06, 0x07, 0x17].contains f then none else some cFIELD) = some cause) :
    insCwr cx r rd ra rb f y = .trap cause := by
  unfold insCwr
  dsimp only
  rw [cellWriteCause_eq]
  cases hc : cellTrap y r (rget y r ra) with
  | some c =>
    rw [hc] at h
    cases h
    rfl
  | none =>
    rw [hc, Option.none_or] at h
    split at h
    · cases h
    · rename_i hf
      cases h
      obtain ⟨h3, h4, h6, h7, h17⟩ : f ≠ 3 ∧ f ≠ 4 ∧ f ≠ 6 ∧ f ≠ 7 ∧ f ≠ 0x17 := by simpa using hf
      have hfield : cwrField f = none := by
        unfold cwrField
        split
        case h_5 => rfl
        all_goals contradiction
      dsimp only
      rw [if_neg h17, hfield]

theorem insCfc_trap (cx : Ctx) {y : DieSt} {r ra : Nat} {f : BitVec 5} (rd rb : Nat) {cause : BitVec 8}
    (h : (cellTrap y r (rget y r ra)).or (if f = 0x08 then none else some cFIELD) = some cause) :
    insCfc cx r rd ra rb f.toNat y = .trap cause := by
  unfold insCfc
  dsimp only
  rw [cellWriteCause_eq]
  cases hc : cellTrap y r (rget y r ra) with
  | some c =>
    rw [hc] at h
    cases h
    rfl
  | none =>
    rw [hc, Option.none_or] at h
    split at h
    · cases h
    · rename_i hf
      cases h
      exact if_pos fun hn => hf (BitVec.eq_of_toNat_eq hn)

theorem timerCause_eq (y : DieSt) (r ra k : Nat) :
    timerCause y r ra k = (cellTrap y r (rget y r ra)).or
      (if timerRo (getCell y ((rget y r ra).extractLsb' 0 12).toNat) k then some cTIMERRO else none) := by
  unfold timerCause
  dsimp only
  rw [cellWriteCause_eq]
  cases cellTrap y r (rget y r ra) <;> rfl

theorem insTst_trap {y : DieSt} {r ra rb k : Nat} {cause : BitVec 8}
    (h : (cellTrap y r (rget y r ra)).or (if timerRo (getCell y ((rget y r ra).extractLsb' 0 12).toNat) k then some cTIMERRO
      else if 16777215 < (rget y r rb).toNat then some cVALUE else none) = some cause) : insTst r ra rb k y = .trap cause := by
  unfold insTst
  dsimp only
  rw [timerCause_eq]
  cases hc : cellTrap y r (rget y r ra) with
  | some c =>
    rw [hc] at h
    cases h
    rfl
  | none =>
    rw [hc, Option.none_or] at h
    rw [Option.none_or]
    split at h
    · cases h
      rw [if_pos ‹_›]
    · rw [if_neg ‹_›]
      dsimp only
      split at h
      · cases h
        exact if_pos ‹_›
      · cases h

theorem insTsp_trap {y : DieSt} {r ra k : Nat} {cause : BitVec 8}
    (h : (cellTrap y r (rget y r ra)).or (if timerRo (getCell y ((rget y r ra).extractLsb' 0 12).toNat) k then some cTIMERRO else none) =
      some cause) : insTsp r ra k y = .trap cause := by
  unfold insTsp
  dsimp only
  rw [timerCause_eq, h]

/-- The causes that IRD meets, lowest first. -/
def irdTrap (w : Word) (c : CellRec) (k : Nat) : Option (BitVec 8) :=
  if 4096 ≤ w.toNat then some cCELLRANGE else if inCount c ≤ k then some cIOBIND else none

theorem insIrd_trap (cx : Ctx) {y : DieSt} {r ra k : Nat} (rd : Nat) {cause : BitVec 8}
    (h : irdTrap (rget y r ra) (verifyCell (getCell y ((rget y r ra).extractLsb' 0 12).toNat)) k = some cause) :
    insIrd cx r rd ra k y = .trap cause := by
  unfold irdTrap at h
  unfold insIrd
  dsimp only
  rw [cellIdOf_isNone]
  split at h
  · cases h
    exact if_pos (decide_eq_true ‹_›)
  rw [if_neg (mt of_decide_eq_true ‹_›)]
  split at h
  · cases h
    exact if_pos ‹_›
  · cases h

theorem dropTarget_trap {x : DieSt} {r ra k : Nat} {cause : BitVec 8}
    (h : outTrap r (rget x r ra) (getCell x ((rget x r ra).extractLsb' 0 12).toNat) k = some cause) : dropTarget x r ra k = .inr cause := by
  unfold outTrap at h
  unfold dropTarget
  dsimp only
  rw [cellIdOf_isSome, cellIdOf_isNone]
  split at h
  · cases h
    exact if_pos ‹_›
  rw [if_neg ‹_›]
  split at h
  · cases h
    exact if_pos (decide_eq_true ‹_›)
  rw [if_neg (mt of_decide_eq_true ‹_›)]
  split at h
  · cases h
    exact if_pos ‹_›
  · cases h

theorem insOwr_trap {y : DieSt} {r ra k : Nat} (rb : Nat) {cause : BitVec 8}
    (h : (if inRevert y r then some cREVERT
      else outTrap r (rget y r ra) (verifyCell (getCell y ((rget y r ra).extractLsb' 0 12).toNat)) k) = some cause) :
    insOwr r ra rb k y = .trap cause := by
  unfold outTrap at h
  unfold insOwr
  dsimp only
  rw [cellIdOf_isSome, cellIdOf_isNone]
  split at h
  · cases h
    exact if_pos ‹_›
  rw [if_neg ‹_›]
  split at h
  · cases h
    exact if_pos ‹_›
  rw [if_neg ‹_›]
  split at h
  · cases h
    exact if_pos (decide_eq_true ‹_›)
  rw [if_neg (mt of_decide_eq_true ‹_›)]
  split at h
  · cases h
    exact if_pos ‹_›
  · cases h

/-! ## The rows -/

/-- A DROP that meets a cause is its trap. -/
theorem ruleDrop_trap {s : State} {d : Die} {r ra k : Nat} {cause : BitVec 8} (h : dropTarget (dieOf s d) r ra k = .inr cause) :
    ruleDrop d r ra k s = runRule d r 24 knCELL (fun _ _ => .trap cause) s := by
  unfold ruleDrop
  rw [h]

theorem trapOf_crd (s : State) (d : Die) (r : Nat) (rd ra : BitVec 4) (f : BitVec 5) :
    trapOf s (.crd d r rd ra f) = (crdTrap (dieOf s d) r f.toNat (gReg s d r ra)).map
      (fun c => (d, r, if regionOf ((gReg s d r ra).extractLsb' 0 12).toNat = r then 14 else 48, c)) := by
  simp only [trapOf, crdTrap, apply_ite (Option.map _), Option.map_some, Option.map_none]

theorem trapOf_ird (s : State) (d : Die) (r : Nat) (rd ra : BitVec 4) (k : BitVec 3) :
    trapOf s (.ird d r rd ra k) = (irdTrap (gReg s d r ra) (verifyCell (namedCell s d r ra)) k.toNat).map (fun c => (d, r, 14, c)) := by
  simp only [trapOf, irdTrap, apply_ite (Option.map _), Option.map_some, Option.map_none]

theorem trapOf_owr (s : State) (d : Die) (r : Nat) (ra rb : BitVec 4) (k : BitVec 3) :
    trapOf s (.owr d r ra rb k) =
      (if inRevert (dieOf s d) r then some cREVERT else outTrap r (gReg s d r ra) (verifyCell (namedCell s d r ra)) k.toNat).map
        (fun c => (d, r, 14, c)) := by
  simp only [trapOf, apply_ite (Option.map _), Option.map_some]

theorem crdTrap_charged (x : DieSt) (r c f : Nat) (w : Word) : crdTrap (addCharge r c x) r f w = crdTrap x r f w := by
  unfold crdTrap
  rw [inPropagate_addCharge]

/-- A row that meets a trap cause of Table 5.11 answers as an instruction that traps with it. -/
theorem exec_traps {s : State} {i : Instr} {d : Die} {r c : Nat} {cause : BitVec 8} (h : trapOf s i = some (d, r, c, cause)) (hr : r < 16)
    (hF : Fetched i s) : ∃ kind f, f (ctxOf s) (addCharge r c (dieOf s d)) = .trap cause ∧ exec i s = .next (runRule d r c kind f s) := by
  obtain ⟨hget, hpc, -, hrev, hlen⟩ := addCharge_reads hr c (dieOf s d)
  have hcell := getCell_addCharge r c (dieOf s d)
  have hprop := inPropagate_addCharge r c (dieOf s d)
  have hcause := cellTrap_congr hrev hprop hcell
  have haddr : ∀ (ra : BitVec 4) (imm : BitVec 18),
      (rget (addCharge r c (dieOf s d)) r ra.toNat + imm.signExtend 32).toNat = memAddr s d r ra imm := fun ra imm =>
    congrArg (fun w => (w + imm.signExtend 32).toNat) (hget ra.toNat)
  unfold trapOf at h
  split at h
  case h_1 | h_2 | h_3 =>
    obtain ⟨_, ht, he⟩ := Option.map_eq_some_iff.mp h
    cases he
    exact ⟨_, _, insLoad_trap _ _ _ _ (haddr _ _) ((loadTrap_congr hrev _ _).trans ht),
      congrArg Host.Outcome.next ((atPc_of_fetched hF rfl _).trans (ruleLoad_trap _ ht))⟩
  case h_4 | h_5 | h_6 =>
    obtain ⟨_, ht, he⟩ := Option.map_eq_some_iff.mp h
    cases he
    exact ⟨_, fun _ y => insStore _ _ _ _ _ y, insStore_trap _ _ _ (haddr _ _) ((storeTrap_congr hrev _ _).trans ht),
      congrArg Host.Outcome.next (atPc_of_fetched hF rfl _)⟩
  case h_7 =>
    obtain ⟨_, ht, he⟩ := Option.map_eq_some_iff.mp h
    cases he
    exact ⟨_, fun _ y => insJal _ _ _ y, insJal_trap _ hpc hlen ht, congrArg Host.Outcome.next (atPc_of_fetched hF rfl _)⟩
  case h_8 =>
    obtain ⟨_, ht, he⟩ := Option.map_eq_some_iff.mp h
    cases he
    exact ⟨_, fun _ y => insJr _ _ y, insJr_trap hr (hget _) hlen ht, congrArg Host.Outcome.next (atPc_of_fetched hF rfl _)⟩
  case h_9 =>
    split at h
    · rename_i hv
      cases h
      exact ⟨_, fun _ y => insDacc _ _ y, if_pos (hrev.trans hv), congrArg Host.Outcome.next (atPc_of_fetched hF rfl _)⟩
    · cases h
  case h_10 =>
    obtain ⟨_, ht, he⟩ := Option.map_eq_some_iff.mp ((trapOf_crd s _ _ 0 _ _).symm.trans h)
    cases he
    exact ⟨_, fun _ y => insCrd _ _ _ _ y, insCrd_trap _ (by rw [hget, crdTrap_charged]; exact ht),
      congrArg Host.Outcome.next (atPc_of_fetched hF rfl _)⟩
  case h_11 =>
    obtain ⟨_, ht, he⟩ := Option.map_eq_some_iff.mp h
    cases he
    exact ⟨_, fun cx y => insCwr cx _ _ _ _ _ y, insCwr_trap _ _ _ (by rw [hcause, hget]; exact ht),
      congrArg Host.Outcome.next (atPc_of_fetched hF rfl _)⟩
  case h_12 =>
    obtain ⟨_, ht, he⟩ := Option.map_eq_some_iff.mp h
    cases he
    exact ⟨_, fun cx y => insCfc cx _ _ _ _ _ y, insCfc_trap _ _ _ (by rw [hcause, hget]; exact ht),
      congrArg Host.Outcome.next (atPc_of_fetched hF rfl _)⟩
  case h_13 =>
    obtain ⟨_, ht, he⟩ := Option.map_eq_some_iff.mp ((trapOf_ird s _ _ 0 _ _).symm.trans h)
    cases he
    exact ⟨_, fun cx y => insIrd cx _ _ _ _ y, insIrd_trap _ _ (by rw [hcell, hget]; exact ht),
      congrArg Host.Outcome.next (atPc_of_fetched hF rfl _)⟩
  case h_14 =>
    obtain ⟨_, ht, he⟩ := Option.map_eq_some_iff.mp ((trapOf_owr s _ _ _ 0 _).symm.trans h)
    cases he
    exact ⟨_, fun _ y => insOwr _ _ _ _ y, insOwr_trap _ (by rw [hcell, hget, hrev]; exact ht),
      congrArg Host.Outcome.next (atPc_of_fetched hF rfl _)⟩
  case h_15 =>
    obtain ⟨_, ht, he⟩ := Option.map_eq_some_iff.mp h
    cases he
    exact ⟨_, fun _ y => insTst _ _ _ _ y, insTst_trap (by rw [hcause, hcell, hget, hget]; exact ht),
      congrArg Host.Outcome.next (atPc_of_fetched hF rfl _)⟩
  case h_16 =>
    obtain ⟨_, ht, he⟩ := Option.map_eq_some_iff.mp h
    cases he
    exact ⟨_, fun _ y => insTsp _ _ _ y, insTsp_trap (by rw [hcause, hcell, hget]; exact ht),
      congrArg Host.Outcome.next (atPc_of_fetched hF rfl _)⟩
  case h_17 =>
    obtain ⟨_, ht, he⟩ := Option.map_eq_some_iff.mp h
    cases he
    exact ⟨_, fun _ _ => .trap _, rfl, congrArg Host.Outcome.next ((atPc_of_fetched hF rfl _).trans (ruleDrop_trap (dropTarget_trap ht)))⟩
  case h_18 =>
    split at h
    · rename_i hw
      cases h
      exact ⟨_, fun _ _ => .trap _, rfl, congrArg Host.Outcome.next ((atPc_of_fetched hF rfl _).trans (if_pos hw))⟩
    · cases h
  case h_19 => cases h

/-- Settles O7: a row that meets a cause traps with it (`exec_traps`, `runRule_traps`); one that computes a register and falls off the code
traps with that register written (`runRule_falls_off`). -/
theorem trapsRecordStopAndForce : Obligations.TrapsRecordStopAndForce := by
  intro i s d r
  refine ⟨fun c cause h hgo hF => ?_, fun rd v h hgo hout hF => ?_⟩
  · obtain ⟨kind, f, hf, hx⟩ := exec_traps h (insGoes_lt hgo) hF
    exact ⟨_, hx, runRule_traps kind hgo hf⟩
  · have hr := insGoes_lt hgo
    have haGet := (addCharge_reads hr 1 (dieOf s d)).1
    obtain ⟨val, hval, hx⟩ := exec_alu h hF
    obtain ⟨hS, hR, hpc, -, -⟩ := rset_only hr rd.toNat v (addCharge r 1 (dieOf s d))
    refine ⟨_, hx, runRule_falls_off knPLAIN hgo hout ?_ hS hR hpc fun k h1 _ => ?_⟩
    · rw [← hval _ haGet]
      rfl
    · rw [rget_rset hr, haGet]
      by_cases hk : k = rd.toNat
      · rw [if_pos hk, if_neg (by omega : rd.toNat ≠ 0)]
        exact (if_pos ⟨hk, by omega⟩).symm
      · rw [if_neg hk]
        exact (if_neg fun h => hk h.1).symm

end Sys2Proof.Machine

/-!
PROOFS. Inputs, shares and the digest, and EWAIT (05 R191 to R193): O9, O10.
-/

namespace Sys2Proof.Machine

/-! ## An instruction with an effect on one cell -/

/-- Cell `id` of a die has been written with `e`, or it stands and holds `e`; nothing else has changed. -/
def CellPut (id : Nat) (e : CellRec) (x y : DieSt) : Prop := OnlyCell id e x y ∧ y.regions = x.regions

theorem cellPut_setCell (id : Nat) (e : CellRec) (x : DieSt) : CellPut id e x (setCell x id e) := ⟨onlyCell_setCell id e x, rfl⟩

theorem CellPut.self {id : Nat} {e : CellRec} {x : DieSt} (h : getCell x id = e) : CellPut id e x x := ⟨h ▸ onlyCell_self id x, rfl⟩

theorem CellPut.strap_active {id : Nat} {e : CellRec} {x y : DieSt} (h : CellPut id e x y) : y.strap = x.strap ∧ y.active = x.active := by
  obtain ⟨⟨hframe, -⟩, -⟩ := h
  rw [hframe]
  exact ⟨rfl, rfl⟩

theorem CellPut.reg_eq {id : Nat} {e : CellRec} {x y : DieSt} (h : CellPut id e x y) (r : Nat) : reg y r = reg x r :=
  reg_of_regions h.2 r

/-- A cell's record is no part of what an instruction reads of its region. -/
theorem CellPut.reads {id : Nat} {e : CellRec} {x y : DieSt} (h : CellPut id e x y) (r : Nat) :
    (∀ k, rget y r k = rget x r k) ∧ curPc y r = curPc x r ∧ curCharge y r = curCharge x r ∧ inRevert y r = inRevert x r ∧
      codeLen y r = codeLen x r := by
  obtain ⟨hstrap, hactive⟩ := h.strap_active
  have hreg := h.reg_eq r
  obtain ⟨hget, hpc, hch, hrev⟩ := SameSets.reads (r := r) hstrap (by rw [hreg]; exact ⟨rfl, rfl, rfl, rfl, rfl, rfl, rfl⟩)
  exact ⟨hget, hpc, hch, hrev, codeLen_congr hactive hrev (by rw [hreg]) (by rw [hreg])⟩

theorem OnlyCell.of_regions {id : Nat} {e : CellRec} {x y z : DieSt} (h : RegionsOnly x y) (k : OnlyCell id e y z) : OnlyCell id e x z := by
  obtain ⟨hframe, hcell, hother⟩ := k
  refine ⟨?_, hcell, fun m hm => (hother m hm).trans (h.getCell_eq m)⟩
  conv_lhs => rw [hframe, h]

/-- A change of one region and one cell of a die, with its records taken. -/
theorem cellStep_of {d : Die} {r id : Nat} {e : CellRec} {s : State} {f : DieSt → DieSt} (h : OnlyCell id e (dieOf s d) (f (dieOf s d)))
    (hq : ∀ q, q ≠ r → reg (f (dieOf s d)) q = reg (dieOf s d) q) :
    CellStep d r s (takeDieLogs d (onDie d f s)) ∧ OtherCells id d s (takeDieLogs d (onDie d f s)) ∧
      getCell (dieOf (takeDieLogs d (onDie d f s)) d) id = e := by
  obtain ⟨hframe, hcell, hother⟩ := h
  obtain ⟨hlogs, helse⟩ := dieStep_onDie_logs d f s
  have hd : dieOf (takeDieLogs d (onDie d f s)) d = { f (dieOf s d) with logOut := [] } := by
    rw [dieOf_takeDieLogs, dieOf_onDie_self]
  refine ⟨⟨hlogs, fun hl => ?_, helse, ?_, fun q hne => ?_⟩, fun n hn => ?_, ?_⟩
  · refine (takeDieLogs_tail d _ ?_).trans rfl
    rw [dieOf_onDie_self, hframe]
    exact hl
  · rw [hd]
    conv_lhs => rw [hframe]
  · rw [hd]
    exact hq q hne
  · rw [hd]
    exact hother n hn
  · rw [hd]
    exact hcell

/-- An instruction with an effect on its region and on one cell, as the module shows it. -/
theorem runRule_cell {s : State} {d : Die} {r c id : Nat} {e : CellRec} {f : Ctx → DieSt → InsRes} {u z : DieSt} (kind : Nat)
    (hft : FallsThrough s d r c) (hf : f (ctxOf s) (addCharge r c (dieOf s d)) = .ok z) (hu : CellPut id e (addCharge r c (dieOf s d)) u)
    (hz : SameButRegion r u z) (hpc : curPc z r = curPc u r) (hch : curCharge z r = curCharge u r) (hlen : codeLen z r = codeLen u r) :
    let t := runRule d r c kind f s
    (∀ k, rget (dieOf t d) r k = rget z r k) ∧ Advances r c (dieOf s d) (dieOf t d) ∧ Retired (reg z r) (reg (dieOf t d) r) ∧
      CellStep d r s t ∧ OtherCells id d s t ∧ getCell (dieOf t d) id = e := by
  obtain ⟨-, haPc, haCh, -, haLen⟩ := addCharge_reads (insGoes_lt hft.1) c (dieOf s d)
  obtain ⟨-, huPc, huCh, -, huLen⟩ := hu.reads r
  obtain ⟨hS, hret, hget, hnext, hcharge⟩ := runIns_retires kind hft hf ((hpc.trans huPc).trans haPc) ((hlen.trans huLen).trans haLen)
  have hcell : OnlyCell id e (dieOf s d) (runIns (ctxOf s) r c kind (f (ctxOf s)) (dieOf s d)) :=
    .of_regions (addCharge_regions r c (dieOf s d)) ((hu.1.regions hz.1).regions hS.1)
  have hstep := cellStep_of (r := r) hcell fun q hq => by
    rw [hS.2 q hq, hz.2 q hq, hu.reg_eq, (addCharge_only (insGoes_lt hft.1) c (dieOf s d)).1.2 q hq]
  dsimp only
  rw [runRule_die]
  refine ⟨hget, ⟨?_, ?_⟩, hret, ?_⟩
  · exact hnext.trans (by rw [hpc, huPc, haPc])
  · exact (((hcharge.trans hch).trans huCh).trans haCh)
  · rw [← runRule_die]
    exact hstep

/-- The same, where the effect on the region is a register. -/
theorem runRule_cell_rset {s : State} {d : Die} {r c id n : Nat} {e : CellRec} {v : Word} {f : Ctx → DieSt → InsRes} {u : DieSt} (kind : Nat)
    (hft : FallsThrough s d r c) (hf : f (ctxOf s) (addCharge r c (dieOf s d)) = .ok (rset r n v u))
    (hu : CellPut id e (addCharge r c (dieOf s d)) u) :
    let t := runRule d r c kind f s
    (∀ k, rget (dieOf t d) r k = if k = n then (if n = 0 then 0 else v) else rget (dieOf s d) r k) ∧
      Advances r c (dieOf s d) (dieOf t d) ∧ RegistersOnly (reg (dieOf s d) r) (reg (dieOf t d) r) ∧ CellStep d r s t ∧
      OtherCells id d s t ∧ getCell (dieOf t d) id = e := by
  have hr := insGoes_lt hft.1
  obtain ⟨hzS, hzR, hzPc, hzCh, hzRev⟩ := rset_only hr n v u
  obtain ⟨huGet, -⟩ := hu.reads r
  obtain ⟨hget, hadv, hret, hstep⟩ := runRule_cell kind hft hf hu hzS hzPc hzCh
    (codeLen_congr hzS.active_eq hzRev (by rw [hzR.1]) hzR.mem_eq)
  refine ⟨fun k => ?_, hadv, ?_, hstep⟩
  · rw [hget, rget_rset hr, huGet, (addCharge_reads hr c _).1]
  · have haR := (addCharge_only hr c (dieOf s d)).2.1
    rw [hu.reg_eq] at hzR
    exact (haR.trans hzR).trans hret.registersOnly

/-- The registers after a row whose register is `rd`. -/
theorem registers_of_rset {s t : State} {d : Die} {r : Nat} {rd : BitVec 4} {v : Word}
    (h : ∀ k, rget (dieOf t d) r k = if k = rd.toNat then (if rd.toNat = 0 then 0 else v) else rget (dieOf s d) r k) :
    gReg t d r rd = (if rd = 0 then 0 else v) ∧ OtherRegisters rd.toNat r (dieOf s d) (dieOf t d) := by
  refine ⟨?_, fun k hk => (h k).trans (if_neg hk)⟩
  unfold gReg
  rw [h, if_pos rfl]
  simp only [reg0_iff]

/-! ## The cell that a register names -/

/-- What a register says that names a cell. -/
structure Names (w : Word) (id : Nat) : Prop where
  low : (w.extractLsb' 0 12).toNat = id
  isSome : (cellIdOf w).isSome = true
  isNone : (cellIdOf w).isNone = false

theorem names_ofNat {id : Nat} (h : id < 4096) : Names (BitVec.ofNat 32 id) id := by
  have hlow : ((BitVec.ofNat 32 id).extractLsb' 0 12).toNat = id := by
    rw [BitVec.extractLsb'_toNat, BitVec.toNat_ofNat, Nat.shiftRight_zero]
    omega
  have hhigh : (BitVec.ofNat 32 id).extractLsb' 12 20 = 0 := by
    rw [extract_high_iff, BitVec.toNat_ofNat]
    omega
  have hsome : (cellIdOf (BitVec.ofNat 32 id)).isSome = true := by
    unfold cellIdOf
    rw [if_pos hhigh]
    rfl
  exact ⟨hlow, hsome, by rw [Option.isNone_eq_false_iff]; exact hsome⟩

/-- A row of one cell finds the cell that its register names, and the charge leaves it as it reads. -/
theorem NamesCell.charged {s : State} {d : Die} {r id : Nat} {ra : BitVec 4} (h : NamesCell s d r ra id) (hr : r < 16) (c : Nat) :
    Names (rget (addCharge r c (dieOf s d)) r ra.toNat) id ∧ getCell (addCharge r c (dieOf s d)) id = getCell (dieOf s d) id ∧
      verifyCell (getCell (dieOf s d) id) = getCell (dieOf s d) id := by
  obtain ⟨hreg, hid, hchecked⟩ := h
  refine ⟨?_, getCell_addCharge r c _ id, verifyCell_checked hchecked⟩
  rw [(addCharge_reads hr c (dieOf s d)).1, show rget (dieOf s d) r ra.toNat = BitVec.ofNat 32 id from hreg]
  exact names_ofNat hid

/-- The reading of a cell by a row that stores it back, which it does not in PROPAGATE. -/
theorem cellPut_stored {id : Nat} {e : CellRec} {x : DieSt} (h : getCell x id = e) : CellPut id e x (if inPropagate x then x else setCell x id e) :=
  iteInduction (fun _ => .self h) fun _ => cellPut_setCell id e x

theorem sameCells_of {id : Nat} {d : Die} {s t : State} (ho : OtherCells id d s t) (h : getCell (dieOf t d) id = getCell (dieOf s d) id) :
    SameCells d s t := fun n => by
  by_cases hn : n = id
  · exact hn ▸ h
  · exact ho n hn

/-! ## Inputs, shares and the digest -/

theorem inputOn_addCharge (cx : Ctx) (r c : Nat) (x : DieSt) (e : CellRec) (n : Nat) :
    inputOn cx (addCharge r c x) e n = inputOn cx x e n := by
  rw [addCharge_regions r c x]
  rfl

/-- IRD of a bound input. -/
theorem insIrd_ok (cx : Ctx) {r rd ra k id : Nat} {x : DieSt} (hn : Names (rget x r ra) id) (hv : verifyCell (getCell x id) = getCell x id)
    (hk : k < inCount (getCell x id)) : insIrd cx r rd ra k x =
      .ok (rset r rd (b2w (inputOn cx x (getCell x id) (inBase (getCell x id) + k)))
        (if inPropagate x then x else setCell x id (getCell x id))) := by
  unfold insIrd
  dsimp only
  rw [hn.low, hn.isNone, hv, if_neg Bool.false_ne_true, if_neg (by omega)]

/-- A region after an OWR: bit `n` of its output share table is `b` (05 R193). -/
def withShare (n : Nat) (b : Bool) (g : RegionSt) : RegionSt := { g with sup := { g.sup with shares := setBitOf g.sup.shares n b } }

/-- A region after a DACC of `w` (05 R192). -/
def withDigest (w : Word) (g : RegionSt) : RegionSt := { g with dacc := crc64Feed g.dacc (leBytes w), daccN := g.daccN + 1 }

/-- OWR of a bound output of a cell of the own region. -/
theorem insOwr_ok {r ra rb k id : Nat} {x : DieSt} (hn : Names (rget x r ra) id) (hv : verifyCell (getCell x id) = getCell x id)
    (hrev : inRevert x r = false) (hr : regionOf id = r) (hk : k < outCount (getCell x id)) (hb : bindRemote (getCell x id) = false) :
    insOwr r ra rb k x =
      .ok (modReg (if inPropagate x then x else setCell x id (getCell x id)) r
        (withShare (outBase (getCell x id) + k) (bitOf (rget x r rb) 0))) := by
  unfold insOwr withShare
  dsimp only
  rw [hn.low, hn.isNone, hn.isSome, hv, hrev, hr, hb]
  simp [Nat.not_le.mpr hk]

/-- A change of a region outside its registers and its memory is no part of what an instruction reads there. -/
theorem modReg_reads {r : Nat} (hr : r < 16) (u : DieSt) {f : RegionSt → RegionSt} (hs : SameSets (reg u r) (f (reg u r)))
    (hbank : (f (reg u r)).revertBank = (reg u r).revertBank) (hmem : (f (reg u r)).mem = (reg u r).mem) :
    (∀ k, rget (modReg u r f) r k = rget u r k) ∧ curPc (modReg u r f) r = curPc u r ∧ curCharge (modReg u r f) r = curCharge u r ∧
      codeLen (modReg u r f) r = codeLen u r := by
  have hreg := reg_modReg_self u hr f
  obtain ⟨hget, hpc, hch, hrev⟩ := SameSets.reads (r := r) (y := u) (z := modReg u r f) rfl (by rw [hreg]; exact hs)
  exact ⟨hget, hpc, hch, codeLen_congr rfl hrev (by rw [hreg, hbank]) (by rw [hreg, hmem])⟩

/-- Outside REVERT an instruction that retires leaves the set of REVERT. -/
theorem Retired.region {a b : RegionSt} (h : Retired a b) (hr : a.revert = false) :
    b = { a with pc := b.pc, pmc := b.pmc, posted := b.posted } := by
  obtain ⟨heq, hset, -⟩ := h
  rw [hr, if_neg Bool.false_ne_true] at hset
  rwa [hset] at heq

theorem reg_addCharge_running {r : Nat} (hr : r < 16) (c : Nat) {x : DieSt} (h : inRevert x r = false) :
    reg (addCharge r c x) r = { reg x r with charge := (reg (addCharge r c x) r).charge } := by
  unfold addCharge
  rw [h, if_neg Bool.false_ne_true, reg_modReg_self x hr]

/-- Settles O9: IRD is a row of one cell whose effect is a register (`runRule_cell_rset`), OWR one whose effect is a share
(`runRule_cell`), and DACC changes its region alone (`runRule_retires`). -/
theorem inputsSharesAndDigest : Obligations.InputsSharesAndDigest := by
  intro s d r rd ra rb k id
  dsimp only
  refine ⟨fun hn hk hft hF => ?_, fun hn hreg hrev hk hb hft hF => ?_, fun hrev hft hF => ?_⟩
  · obtain ⟨hname, hcell, hv⟩ := hn.charged (insGoes_lt hft.1) 14
    refine ⟨_, congrArg Host.Outcome.next (atPc_of_fetched hF rfl _), ?_⟩
    have hins := insIrd_ok (ctxOf s) (rd := rd.toNat) hname (by rw [hcell]; exact hv) (by rw [hcell]; exact hk)
    rw [hcell, inputOn_addCharge] at hins
    obtain ⟨hget, hadv, hregs, hstep, hothers, hsame⟩ := runRule_cell_rset knCELL (f := fun cx y => insIrd cx r rd.toNat ra.toNat k.toNat y)
      hft hins (cellPut_stored hcell)
    obtain ⟨hrd, hrest⟩ := registers_of_rset hget
    exact ⟨hrd, hrest, hadv, hregs, hstep, sameCells_of hothers hsame⟩
  · have hr := insGoes_lt hft.1
    obtain ⟨haGet, -, -, haRev, -⟩ := addCharge_reads hr 14 (dieOf s d)
    have haReg := reg_addCharge_running hr 14 hrev
    obtain ⟨hname, hcell, hv⟩ := hn.charged hr 14
    refine ⟨_, congrArg Host.Outcome.next (atPc_of_fetched hF rfl _), ?_⟩
    have hins := insOwr_ok (rb := rb.toNat) hname (by rw [hcell]; exact hv) (haRev.trans hrev) hreg (by rw [hcell]; exact hk)
      (by rw [hcell]; exact hb)
    rw [hcell, haGet] at hins
    have hu := cellPut_stored hcell
    generalize (if inPropagate (addCharge r 14 (dieOf s d)) then _ else _ : DieSt) = u at hins hu
    obtain ⟨huGet, -⟩ := hu.reads r
    obtain ⟨hzGet, hzPc, hzCh, hzLen⟩ := modReg_reads hr u (f := withShare (outBase (getCell (dieOf s d) id) + k.toNat)
      (bitOf (rget (dieOf s d) r rb.toNat) 0)) ⟨rfl, rfl, rfl, rfl, rfl, rfl, rfl⟩ rfl rfl
    obtain ⟨hget, hadv, hret, hstep, hothers, hsame⟩ := runRule_cell knCELL (f := fun _ y => insOwr r ra.toNat rb.toNat k.toNat y)
      hft hins hu (sameButRegion_modReg r u _) hzPc hzCh hzLen
    rw [reg_modReg_self u hr, hu.reg_eq] at hret
    have hb := hret.region (haRev.trans hrev)
    generalize runRule d r 14 knCELL _ s = t at *
    refine ⟨?_, fun n => ((hget n.toNat).trans (hzGet _)).trans ((huGet _).trans (haGet _)), hadv, ?_, hstep, sameCells_of hothers hsame⟩
    · rw [hb, haReg]
      rfl
    · rw [hb, haReg]
      rfl
  · have hr := insGoes_lt hft.1
    obtain ⟨haGet, -, -, haRev, -⟩ := addCharge_reads hr 6 (dieOf s d)
    have haReg := reg_addCharge_running hr 6 hrev
    refine ⟨_, congrArg Host.Outcome.next (atPc_of_fetched hF rfl _), ?_⟩
    have hins : insDacc r ra.toNat (addCharge r 6 (dieOf s d)) =
        .ok (modReg (addCharge r 6 (dieOf s d)) r (withDigest (rget (dieOf s d) r ra.toNat))) := by
      unfold insDacc
      rw [haRev, hrev, haGet]
      rfl
    obtain ⟨hzGet, hzPc, hzCh, hzLen⟩ := modReg_reads hr (addCharge r 6 (dieOf s d)) 
      (f := withDigest (rget (dieOf s d) r ra.toNat)) ⟨rfl, rfl, rfl, rfl, rfl, rfl, rfl⟩ rfl rfl
    obtain ⟨hget, hadv, hret, hstep⟩ := runRule_retires knPLAIN (f := fun _ y => insDacc r ra.toNat y) hft hins
      (sameButRegion_modReg r _ _) hzPc hzCh hzLen
    rw [reg_modReg_self _ hr] at hret
    have hb := hret.region (haRev.trans hrev)
    generalize runRule d r 6 knPLAIN _ s = t at *
    refine ⟨?_, ?_, fun n => ((hget n.toNat).trans (hzGet _)).trans (haGet _), hadv, ?_, hstep⟩
    all_goals
      rw [hb, haReg]
      rfl

/-! ## EWAIT ends a task (05 R173, R179, R191) -/

/-- A save block lies above the code (05 Table 5.2). -/
theorem memWord_storeSaved_below (strap : BitVec 2) (m : List Host.Cell) (t : BitVec 4) (g : List (Nat × Word)) (status : Word) {a : Nat}
    (h : a + 4 ≤ memSAVE) : memWord (storeSaved strap m t g status) a = memWord m a := by
  have hb : memSAVE ≤ saveBlock t := Nat.le_add_right _ _
  unfold storeSaved
  rw [memWord_memPutWord_apart _ _ _ _ (.inr (by omega))]
  generalize numsFrom 1 15 = ks
  induction ks generalizing m with
  | nil => rfl
  | cons k ks ih => rw [List.foldl_cons, ih, memWord_memPutWord_apart _ _ _ _ (.inr (by omega))]

theorem entryPoint_closeTask {r : Nat} (hr : r < 16) (status : Word) (x : DieSt) (t : BitVec 4) :
    entryPoint (closeTask r status x) r t = entryPoint x r t := by
  have hoff : entryOffset t ≤ 0x10 := by
    unfold entryOffset
    split_ifs <;> decide
  have hbank : ∀ b, bankBase b + 0x14 ≤ memSAVE := by decide
  have hlow : codeBase x + entryOffset t + 4 ≤ memSAVE := by
    have := hbank x.active
    unfold codeBase
    omega
  unfold entryPoint
  rw [reg_closeTask hr]
  exact memWord_storeSaved_below _ _ _ _ _ hlow

theorem insEwait_ends {r rd : Nat} {x : DieSt} (hrev : (reg x r).revert = false) (h : (reg x r).task = tkERROR → (reg x r).errLeft = []) :
    insEwait r rd x = .jump (afterTask r (reg x r).task true (closeTask r svENDED x)) := by
  unfold insEwait
  dsimp only
  rw [hrev, if_neg Bool.false_ne_true]
  by_cases ht : (reg x r).task = tkERROR
  · rw [if_pos ht, h ht]
  · rw [if_neg ht]

/-- EWAIT that ends a task: its save block is written, and the die goes on as `afterTask` says. -/
theorem ewait_ends {s : State} {d : Die} {r : Nat} (rd : BitVec 4) (hgo : insGoes s d r 10 = true) (hrev : (reg (dieOf s d) r).revert = false)
    (h : (reg (dieOf s d) r).task = tkERROR → (reg (dieOf s d) r).errLeft = []) :
    let t := runRule d r 10 knPLAIN (fun _ x => insEwait r rd.toNat x) s
    let z := afterTask r (reg (dieOf s d) r).task true (closeTask r svENDED (addCharge r 10 (dieOf s d)))
    CountsOnly (reg z r) (reg (dieOf t d) r) ∧ curCharge (dieOf t d) r = curCharge z r ∧ SavedWith 1 r (dieOf s d) (dieOf t d) ∧
      RegionStep d r s t := by
  have hr := insGoes_lt hgo
  have haReg := reg_addCharge_running hr 10 hrev
  have hend := insEwait_ends (rd := rd.toNat) (r := r) (x := addCharge r 10 (dieOf s d)) (by rw [haReg]; exact hrev) (by rw [haReg]; exact h)
  rw [show (reg (addCharge r 10 (dieOf s d)) r).task = (reg (dieOf s d) r).task by rw [haReg]] at hend
  obtain ⟨hzS, hz⟩ := afterTask_startsIn r (reg (dieOf s d) r).task true (closeTask r svENDED (addCharge r 10 (dieOf s d)))
  obtain ⟨-, -, hch, hcounts, hstep⟩ := runRule_jump (f := fun _ x => insEwait r rd.toNat x) knPLAIN hgo hend
    ((sameButRegion_modReg r _ _).trans hzS)
  dsimp only
  refine ⟨hcounts, hch, ?_, hstep⟩
  have hmem : (reg (dieOf (runRule d r 10 knPLAIN (fun _ x => insEwait r rd.toNat x) s) d) r).mem =
      storeSaved (addCharge r 10 (dieOf s d)).strap (reg (dieOf s d) r).mem (reg (dieOf s d) r).task (reg (dieOf s d) r).g svENDED := by
    rw [hcounts.1, hz, reg_closeTask hr, haReg]
  obtain ⟨hstatus, hsaved⟩ := memWord_storeSaved (addCharge r 10 (dieOf s d)).strap (reg (dieOf s d) r).mem (reg (dieOf s d) r).task
    (reg (dieOf s d) r).g svENDED
  unfold SavedWith
  rw [hmem]
  refine ⟨hstatus, fun k h1 h15 => (hsaved k h1 h15).trans ?_⟩
  unfold rget inRevert
  rw [if_neg (by omega), hrev, if_neg Bool.false_ne_true, addCharge_regions r 10 (dieOf s d)]

/-! ### The tasks that follow -/

theorem CountsOnly.sup_task {a b : RegionSt} (h : CountsOnly a b) : b.sup = a.sup ∧ b.task = a.task := by
  rw [h.1]
  exact ⟨rfl, rfl⟩

theorem afterTask_cyclic {r : Nat} {t : BitVec 4} (h : t = tkCYCIN ∨ t = tkCYCOUT) (ended : Bool) (x : DieSt) : afterTask r t ended x = x := by
  rcases h with rfl | rfl <;> rfl

theorem startTask_sup (r : Nat) (t : BitVec 4) (x : DieSt) : (reg (startTask r t x) r).sup = (reg x r).sup := by
  unfold startTask
  rw [reg_modReg]
  split <;> rfl

/-- After INIT the tasks of its phase start, and INIT stays done. -/
theorem runTasksIn_init_sup (r : Nat) (x : DieSt) : (reg (runTasksIn r 1 x) r).sup = (reg x r).sup := by
  have hcyc : (reg (if decide (entryPoint x r tkCYCIN ≠ 0) then startTask r tkCYCIN x else x) r).sup = (reg x r).sup :=
    iteInduction (motive := fun y => (reg y r).sup = (reg x r).sup) (fun _ => startTask_sup r tkCYCIN x) fun _ => rfl
  have herr : (reg (modReg x r (fun g => { g with errLeft := errorSources (reg x r).sup.snap })) r).sup = (reg x r).sup := by
    rw [reg_modReg]
    split <;> rfl
  unfold runTasksIn
  dsimp only
  rw [if_neg (by decide : ¬ (1 : Nat) = 0), if_pos rfl]
  split
  · rfl
  split
  · exact hcyc
  · exact (startTask_sup r tkERROR _).trans herr

theorem afterTask_init {r : Nat} (hr : r < 16) (x : DieSt) : (reg (afterTask r tkINIT true x) r).sup.initDone = true := by
  unfold afterTask
  rw [if_pos rfl, if_pos rfl, runTasksIn_init_sup, reg_modReg_self x hr]

/-- After ERROR the CYCLIC_IN task starts where the code has one. -/
theorem afterTask_error {r : Nat} (hr : r < 16) {x : DieSt} (hh : (reg x r).halted = false) (hc : (reg x r).haltCycle = false) :
    (reg (afterTask r tkERROR true x) r).task = if entryPoint x r tkCYCIN = 0 then (reg x r).task else tkCYCIN := by
  unfold afterTask
  rw [if_neg (by decide), if_pos rfl]
  unfold runTasksIn
  dsimp only
  rw [hh, hc, if_neg (by decide), if_neg (by decide), if_neg (by decide), if_pos rfl]
  by_cases he : entryPoint x r tkCYCIN = 0
  · rw [if_pos he, if_neg (by simp [he])]
  · rw [if_neg he, if_pos (decide_eq_true he)]
    unfold startTask
    rw [reg_modReg_self x hr]

/-! ## EWAIT in REVERT (05 R184, R186) -/

theorem find_numsFrom {p : Nat → Bool} {n : Nat} (hp : p n = true) : ∀ {lo k : Nat}, lo ≤ n → n < lo + k →
    (∀ m, lo ≤ m → m < n → p m = false) → (numsFrom lo k).find? p = some n
  | _, 0, hlo, hhi, _ => absurd hhi (by omega)
  | lo, k + 1, hlo, hhi, h => by
    unfold numsFrom
    rw [List.find?_cons]
    by_cases hn : lo = n
    · rw [hn, hp]
    · rw [h lo le_rfl (by omega)]
      exact find_numsFrom hp (by omega) (by omega) fun m hm => h m (by omega)

/-- The pending source that EWAIT delivers first (05 R186). -/
theorem lowestPending_eq {p : BitVec 192} {n : Nat} (hn : n < 192) (hp : bitOf p n = true) (h : ∀ m, m < n → bitOf p m = false) :
    lowestPending p = some n := find_numsFrom hp (Nat.zero_le n) (by omega) fun m _ => h m

theorem bitOf_setBitOf_false {w : Nat} (x : BitVec w) (n : Nat) (m : Nat) :
    bitOf (setBitOf x n false) m = (bitOf x m && decide (m ≠ n)) := by
  by_cases hm : m = n
  · subst hm
    simp only [bitOf, setBitOf, ne_eq, not_true_eq_false, decide_false, Bool.and_false]
    simp
    exact fun _ h => ⟨h, by omega⟩
  · rw [bitOf_setBitOf_other x false hm]
    simp [hm]

theorem memByte_memClear {m : List Host.Cell} {lo hi q : Nat} (h1 : lo ≤ q) (h2 : q < hi) : memByte (memClear m lo hi) q = 0 := by
  unfold memByte memClear
  induction m with
  | nil => rfl
  | cons c m ih =>
    rw [List.filter_cons]
    split
    · rename_i hc
      simp only [Bool.or_eq_true, decide_eq_true_eq] at hc
      exact (if_neg (by omega)).trans ih
    · exact ih

/-- A region to which EWAIT delivers source `n` in REVERT. -/
def withPending (n : Nat) (g : RegionSt) : RegionSt := { g with pend := setBitOf g.pend n false, revCur := BitVec.ofNat 32 n }

/-- A region to which EWAIT delivers source `n` in ERROR, with sources `l` left. -/
def withError (n : Nat) (l : List Nat) (g : RegionSt) : RegionSt := { g with errLeft := l, evtCur := BitVec.ofNat 32 n }

theorem insEwait_pending {r n : Nat} (rd : Nat) {x : DieSt} (hrev : (reg x r).revert = true) (h : lowestPending (reg x r).pend = some n) :
    insEwait r rd x = .ok (rset r rd (BitVec.ofNat 32 n) (modReg x r (withPending n))) := by
  unfold insEwait
  dsimp only
  rw [hrev, if_pos rfl, h]
  rfl

theorem insEwait_error {r n : Nat} {l : List Nat} (rd : Nat) {x : DieSt} (hrev : (reg x r).revert = false) (ht : (reg x r).task = tkERROR)
    (h : (reg x r).errLeft = n :: l) : insEwait r rd x = .ok (rset r rd (BitVec.ofNat 32 n) (modReg x r (withError n l))) := by
  unfold insEwait
  dsimp only
  rw [hrev, if_neg Bool.false_ne_true, if_pos ht, h]
  rfl

theorem insEwait_revert_ends {r : Nat} (rd : Nat) {x : DieSt} (hrev : (reg x r).revert = true) (h : (reg x r).pend = 0) :
    insEwait r rd x = .jump (endRevert r false x) := by
  unfold insEwait
  dsimp only
  rw [hrev, if_pos rfl, h]
  rfl

/-- An instruction that changes a region outside its register sets and then writes a register. -/
theorem runRule_delivers {s : State} {d : Die} {r c n : Nat} {v : Word} {f : Ctx → DieSt → InsRes} {g : RegionSt → RegionSt} (kind : Nat)
    (hft : FallsThrough s d r c) (hf : f (ctxOf s) (addCharge r c (dieOf s d)) = .ok (rset r n v (modReg (addCharge r c (dieOf s d)) r g)))
    (hs : ∀ a, SameSets a (g a)) (hbank : ∀ a, (g a).revertBank = a.revertBank) (hmem : ∀ a, (g a).mem = a.mem) :
    let t := runRule d r c kind f s
    (∀ k, rget (dieOf t d) r k = if k = n then (if n = 0 then 0 else v) else rget (dieOf s d) r k) ∧ Advances r c (dieOf s d) (dieOf t d) ∧
      RegistersOnly (g (reg (addCharge r c (dieOf s d)) r)) (reg (dieOf t d) r) ∧ RegionStep d r s t := by
  have hr := insGoes_lt hft.1
  obtain ⟨huGet, huPc, huCh, huLen⟩ := modReg_reads hr (addCharge r c (dieOf s d)) (hs _) (hbank _) (hmem _)
  obtain ⟨hzS, hzR, hzPc, hzCh, hzRev⟩ := rset_only hr n v (modReg (addCharge r c (dieOf s d)) r g)
  have hzLen := codeLen_congr hzS.active_eq hzRev (by rw [hzR.1]) hzR.mem_eq
  obtain ⟨hget, hadv, hret, hstep⟩ := runRule_retires kind hft hf ((sameButRegion_modReg r _ g).trans hzS) (hzPc.trans huPc)
    (hzCh.trans huCh) (hzLen.trans huLen)
  rw [reg_modReg_self _ hr] at hzR
  exact ⟨fun k => by rw [hget, rget_rset hr, huGet, (addCharge_reads hr c _).1], hadv, hzR.trans hret.registersOnly, hstep⟩

/-- EWAIT ends a REVERT run, whose registers and scratch memory it clears (05 R184). -/
theorem ewait_ends_revert {s : State} {d : Die} {r : Nat} (rd : BitVec 4) (hgo : insGoes s d r 10 = true) (hrev : (reg (dieOf s d) r).revert = true)
    (hp : (reg (dieOf s d) r).pend = 0) :
    let t := runRule d r 10 knPLAIN (fun _ x => insEwait r rd.toNat x) s
    CountsOnly { reg (dieOf s d) r with
      revert := false, rg := [], rpc := 0, rcharge := 0, revCur := 0xFF,
      mem := memClear (reg (dieOf s d) r).mem memSCRATCH (memSCRATCH + 0x400) } (reg (dieOf t d) r) ∧ StopStep d r s t := by
  have hr := insGoes_lt hgo
  have haReg : reg (addCharge r 10 (dieOf s d)) r = { reg (dieOf s d) r with rcharge := (reg (addCharge r 10 (dieOf s d)) r).rcharge } := by
    unfold addCharge inRevert
    rw [hrev, if_pos rfl, reg_modReg_self _ hr]
  have hend := insEwait_revert_ends rd.toNat (r := r) (x := addCharge r 10 (dieOf s d)) (by rw [haReg]; exact hrev) (by rw [haReg]; exact hp)
  obtain ⟨hwS, hwC⟩ := runIns_jumps (f := fun _ x => insEwait r rd.toNat x) knPLAIN hgo hend
  obtain ⟨hclock, hothers, hreg⟩ := endRevert_region hr false (addCharge r 10 (dieOf s d))
  refine ⟨?_, stopStep_of ?_ fun q hq => ?_⟩
  · rw [runRule_die]
    rw [hreg, haReg] at hwC
    exact hwC
  · exact ((addCharge_regions r 10 (dieOf s d)).regionsAndClock.trans hclock).trans (RegionsOnly.regionsAndClock hwS.1)
  · rw [hwS.2 q hq, hothers q hq, (addCharge_only hr 10 (dieOf s d)).1.2 q hq]

/-- Settles O10: where EWAIT ends a task, the save block and what follows are `ewait_ends` and `afterTask`, the end of a REVERT run
`ewait_ends_revert`; where it delivers a source it is an instruction that falls through (`runRule_delivers`). -/
theorem ewaitEndsOrDelivers : Obligations.EwaitEndsOrDelivers := by
  intro s d r rd hgo
  have hr := insGoes_lt hgo
  have hExec : ∀ {P : State → Prop}, P (runRule d r 10 knPLAIN (fun _ x => insEwait r rd.toNat x) s) → Executes (.ewait d r rd) s P :=
    fun hP hF => ⟨_, congrArg Host.Outcome.next (atPc_of_fetched hF rfl _), hP⟩
  obtain ⟨-, -, haCh, -, -⟩ := addCharge_reads hr 10 (dieOf s d)
  have haReg := reg_addCharge hr 10 (dieOf s d)
  dsimp only
  refine ⟨fun hrev ht => ?_, fun hrev ht => ?_, fun hrev ht hl => ?_, fun hrev hp => ?_, fun n hrev hn hbit hlow hplace => ?_,
    fun n l hrev ht hl hplace => ?_⟩ <;> apply hExec
  · have hne : (reg (dieOf s d) r).task ≠ tkERROR := by rcases ht with h | h <;> rw [h] <;> decide
    obtain ⟨hcounts, hch, hsaved, hstep⟩ := ewait_ends rd hgo hrev fun h => absurd h hne
    rw [afterTask_cyclic ht, reg_closeTask hr] at hcounts
    rw [afterTask_cyclic ht] at hch
    refine ⟨?_, hsaved, (hch.trans ?_).trans haCh, hstep⟩
    · rw [hcounts.1]
    · unfold curCharge inRevert
      rw [reg_closeTask hr]
  · obtain ⟨hcounts, -, hsaved, hstep⟩ := ewait_ends rd hgo hrev fun h => by rw [ht] at h; cases h
    rw [ht] at hcounts
    refine ⟨?_, hsaved, hstep⟩
    rw [hcounts.sup_task.1]
    exact afterTask_init hr _
  · obtain ⟨hcounts, -, hsaved, hstep⟩ := ewait_ends rd hgo hrev fun _ => hl
    obtain ⟨hh, hc⟩ : (reg (dieOf s d) r).halted = false ∧ (reg (dieOf s d) r).haltCycle = false := by
      simp only [insGoes, canRun, Bool.and_eq_true, Bool.not_eq_true'] at hgo
      exact ⟨hgo.1.1.1.2, hgo.1.1.2⟩
    rw [ht] at hcounts
    refine ⟨?_, hsaved, hstep⟩
    have hentry : entryPoint (addCharge r 10 (dieOf s d)) r tkCYCIN = entryPoint (dieOf s d) r tkCYCIN := by
      unfold entryPoint
      rw [haReg, addCharge_regions r 10 (dieOf s d)]
      rfl
    have htask := afterTask_error hr (x := closeTask r svENDED (addCharge r 10 (dieOf s d))) (by rw [reg_closeTask hr, haReg]; exact hh)
      (by rw [reg_closeTask hr, haReg]; exact hc)
    rw [entryPoint_closeTask hr, hentry, reg_closeTask hr] at htask
    rw [hcounts.sup_task.2]
    exact htask
  · obtain ⟨hcounts, hstep⟩ := ewait_ends_revert rd hgo hrev hp
    rw [hcounts.1]
    exact ⟨rfl, rfl, rfl, rfl, rfl, fun q h1 h2 => memByte_memClear h1 h2, hstep⟩
  · have hins := insEwait_pending (r := r) rd.toNat (x := addCharge r 10 (dieOf s d)) (by rw [haReg]; exact hrev)
      (by rw [haReg]; exact lowestPending_eq hn hbit hlow)
    obtain ⟨hget, hadv, hregs, hstep⟩ := runRule_delivers (f := fun _ x => insEwait r rd.toNat x) knPLAIN ⟨hgo, hplace⟩ hins
      (fun _ => ⟨rfl, rfl, rfl, rfl, rfl, rfl, rfl⟩) (fun _ => rfl) fun _ => rfl
    refine ⟨(registers_of_rset hget).1, ?_, fun m hm => ?_, hadv, hstep⟩
    · rw [hregs.1]
      rfl
    · rw [hregs.1, haReg]
      exact bitOf_setBitOf_false _ n m
  · have hins := insEwait_error (r := r) rd.toNat (x := addCharge r 10 (dieOf s d)) (by rw [haReg]; exact hrev) (by rw [haReg]; exact ht)
      (by rw [haReg]; exact hl)
    obtain ⟨hget, hadv, hregs, hstep⟩ := runRule_delivers (f := fun _ x => insEwait r rd.toNat x) knPLAIN ⟨hgo, hplace⟩ hins
      (fun _ => ⟨rfl, rfl, rfl, rfl, rfl, rfl, rfl⟩) (fun _ => rfl) fun _ => rfl
    refine ⟨(registers_of_rset hget).1, ?_, ?_, hadv, hstep⟩
    · rw [hregs.1]
      rfl
    · rw [hregs.1]
      rfl

end Sys2Proof.Machine

/-!
PROOFS. Rows that read and write one cell (01 R35, 02 R78, R82, R86, R91, 05 R189, R190): O8.
-/

namespace Sys2Proof.Machine

/-! ## Commands that are written (02 R79, R97) -/

theorem addFaultIf_cmd (b : Bool) (n : Nat) (c : CellRec) : (addFaultIf b n c).cmd = c.cmd := by cases b <;> rfl

theorem callTimeout_cmd (c : CellRec) : (callTimeout c).cmd = c.cmd ∨ (callTimeout c).cmd = cmdNONE := by
  unfold callTimeout
  split
  · exact .inr rfl
  · exact .inl rfl

/-- A command stands as written, but for a call that times out at once. -/
theorem writeCmdCode_cmd (pr : CellProf) (v : Half) (c : CellRec) :
    (writeCmdCode pr v c).cmd = v ∨ (isPointLike c = true ∧ isCall v = true ∧ (writeCmdCode pr v c).cmd = cmdNONE) := by
  unfold writeCmdCode
  dsimp only
  split
  · rename_i hp
    split
    · rename_i hv
      split
      · exact .inl rfl
      · exact (callTimeout_cmd _).imp (fun h => h.trans (addFaultIf_cmd _ _ _)) fun h => ⟨hp, hv, h⟩
    · left
      split <;> rfl
  · left
    split
    · rw [addFaultIf_cmd, addFaultIf_cmd]
      rfl
    · rfl

theorem writeCmdCode_none (pr : CellProf) (c : CellRec) : (writeCmdCode pr cmdNONE c).cmd = cmdNONE :=
  (writeCmdCode_cmd pr cmdNONE c).elim id fun h => h.2.2

theorem writeCmdCode_restrictive (pr : CellProf) (c : CellRec) :
    (writeCmdCode pr (restrictive .cmd c) c).cmd = restrictive .cmd c :=
  (writeCmdCode_cmd pr _ c).elim id fun ⟨hp, _, h⟩ => h.trans (restrictive_cmd hp).symm

/-! ## The status of a write (02 R78, 05 Table 5.13) -/

/-- What the status of a write of `v` to field `q` says of the record `e` that it has made of `c`. -/
structure StatusSays (q : Coded) (v : Word) (c : CellRec) (p : Word × CellRec) : Prop where
  known : p.1.toNat ≤ 3
  stored : p.1 = 0 → v = (rawCoded q p.2).setWidth 32
  restricted : p.1 = 1 → rawCoded q p.2 = restrictive q c ∧ hasFault p.2 fCODE = true
  capped : p.1 = 2 → q = .aspect ∧ p.2.aspect = aspDANGER
  condNone : p.1 = 3 → q = .cmd ∧ p.2.cmd = cmdNONE

theorem statusSays_stored {q : Coded} {v : Word} {c e : CellRec} (h : v = (rawCoded q e).setWidth 32) : StatusSays q v c (stSTORED, e) :=
  ⟨(by decide : stSTORED.toNat ≤ 3), fun _ => h, fun h => absurd h (by decide : stSTORED ≠ 1),
    fun h => absurd h (by decide : stSTORED ≠ 2), fun h => absurd h (by decide : stSTORED ≠ 3)⟩

theorem statusSays_capped {v : Word} {c e : CellRec} (h : e.aspect = aspDANGER) : StatusSays .aspect v c (stCAPPED, e) :=
  ⟨(by decide : stCAPPED.toNat ≤ 3), fun h => absurd h (by decide : stCAPPED ≠ 0),
    fun h => absurd h (by decide : stCAPPED ≠ 1), fun _ => ⟨rfl, h⟩, fun h => absurd h (by decide : stCAPPED ≠ 3)⟩

theorem statusSays_condNone {v : Word} {c e : CellRec} (h : e.cmd = cmdNONE) : StatusSays .cmd v c (stCONDNONE, e) :=
  ⟨(by decide : stCONDNONE.toNat ≤ 3), fun h => absurd h (by decide : stCONDNONE ≠ 0),
    fun h => absurd h (by decide : stCONDNONE ≠ 1), fun h => absurd h (by decide : stCONDNONE ≠ 2), fun _ => ⟨rfl, h⟩⟩

theorem refuseWrite_says {q : Coded} (v : Word) (pr : CellProf) (c : CellRec) : StatusSays q v c (refuseWrite q pr c) := by
  refine ⟨(by decide : stRESTRICTED.toNat ≤ 3), fun h => absurd h (by decide : stRESTRICTED ≠ 0),
    fun _ => ⟨?_, hasFault_addFault_self _ (by decide)⟩, fun h => absurd h (by decide : stRESTRICTED ≠ 2),
    fun h => absurd h (by decide : stRESTRICTED ≠ 3)⟩
  unfold refuseWrite
  cases q with
  | cmd => exact writeCmdCode_restrictive pr c
  | occ | pos | lock | aspect => rfl

theorem capped_value (routeOk lineClear : Bool) (v : Half) (c : CellRec) :
    capped routeOk lineClear v c = v ∨ capped routeOk lineClear v c = aspDANGER := by
  unfold capped
  split_ifs <;> simp

/-- A word whose upper half is 0 is its lower half. -/
theorem setWidth_low {v : Word} (h : v.extractLsb' 16 16 = 0) : v = (v.extractLsb' 0 16).setWidth 32 := by
  have hhigh : v.toNat / 65536 % 65536 = 0 := by
    simpa [BitVec.extractLsb'_toNat, Nat.shiftRight_eq_div_pow] using congrArg BitVec.toNat h
  apply BitVec.eq_of_toNat_eq
  rw [BitVec.toNat_setWidth, BitVec.extractLsb'_toNat, Nat.shiftRight_zero]
  have := v.isLt
  omega

/-- A write of a field says what it has stored. -/
theorem appWrite_says {q : Coded} {c : CellRec} (hc : ReadsClean c) (v : Word) (pr : CellProf) (ok clear : Bool) :
    StatusSays q v c (appWrite q v pr ok clear c) := by
  obtain ⟨⟨-, hcls⟩, hread⟩ := hc
  have hrefuse := refuseWrite_says (q := q) v pr c
  unfold appWrite
  split
  · rename_i hnone
    rw [hnone] at hcls
    cases hcls
  · exact hrefuse
  dsimp only
  split
  · exact hrefuse
  rename_i hvalid
  have hv : v = (v.extractLsb' 0 16).setWidth 32 := setWidth_low <| by
    by_contra hhigh
    exact hvalid (by rw [decide_eq_true hhigh, Bool.true_or])
  generalize v.extractLsb' 0 16 = x at hv
  cases q with
  | lock => exact hrefuse
  | occ =>
    dsimp only
    split
    · exact statusSays_stored hv
    · exact hrefuse
  | pos =>
    dsimp only
    split
    · rename_i hx
      exact statusSays_stored hv
    · exact hrefuse
  | aspect =>
    dsimp only
    rw [readAll_clean hread]
    split
    · exact statusSays_stored hv
    split
    · exact hrefuse
    refine iteInduction (motive := StatusSays .aspect v c) (fun _ => hrefuse) fun _ => ?_
    by_cases hy : capped ok clear x c = x
    · rw [if_pos hy, hy]
      exact statusSays_stored hv
    · rw [if_neg hy]
      exact statusSays_capped ((capped_value ok clear x c).resolve_left hy)
  | cmd =>
    dsimp only
    rw [readAll_clean hread]
    split
    · rename_i hx
      refine statusSays_stored (hv.trans ?_)
      rw [hx]
      exact congrArg _ (writeCmdCode_none pr c).symm
    split
    · exact statusSays_condNone (writeCmdCode_none pr c)
    split
    · by_cases hcmd : (writeCmdCode pr x c).cmd = x
      · rw [if_pos hcmd]
        exact statusSays_stored (hv.trans (congrArg _ hcmd.symm))
      · rw [if_neg hcmd]
        exact statusSays_condNone ((writeCmdCode_cmd pr x c).resolve_left hcmd).2.2
    · exact statusSays_condNone (writeCmdCode_none pr c)

/-- A value that the field cannot hold is refused (02 R78). -/
theorem appWrite_refuses {q : Coded} {c : CellRec} {v : Word} (pr : CellProf) (ok clear : Bool)
    (h : (validOf q c).contains (v.extractLsb' 0 16) = false ∨ v.extractLsb' 16 16 ≠ 0) : (appWrite q v pr ok clear c).1 = 1 := by
  unfold appWrite
  split
  · rfl
  · rfl
  dsimp only
  rw [if_pos (by simpa [or_comm] using h)]
  rfl

/-! ## Faults that are cleared (02 R91) -/

theorem putTimer_zero (t : Timer) (c : CellRec) : putTimer 0 t c = { c with t0 := t, checkErr := 0 } := rfl

theorem foldl_clearFault (l : List Nat) (c : CellRec) :
    let e := l.foldl (fun c n => { c with fault := setBitOf c.fault n false, checkErr := 0 }) c
    (c.checkErr = 0 → e = { c with fault := e.fault }) ∧ ∀ n, bitOf e.fault n = (bitOf c.fault n && !l.contains n) := by
  induction l generalizing c with
  | nil => exact ⟨fun _ => rfl, fun n => by simp⟩
  | cons m l ih =>
    obtain ⟨hframe, hbits⟩ := ih { c with fault := setBitOf c.fault m false, checkErr := 0 }
    rw [List.foldl_cons]
    refine ⟨fun hc => ?_, fun n => ?_⟩
    · rw [hframe rfl, ← hc]
    · rw [hbits, bitOf_setBitOf_false, List.contains_cons]
      by_cases hn : n = m
      · simp [hn]
      · simp [hn, beq_eq_false_iff_ne.mpr hn]

/-- Clearing faults writes FAULT and T0 alone, and clears the bits of the mask whose cause is absent. -/
theorem clearFaults_says (cx : Ctx) (x : DieSt) (mask : BitVec 16) {c : CellRec} (hc : c.checkErr = 0) :
    let e := clearFaults cx x mask c
    e = { c with fault := e.fault, t0 := e.t0 } ∧
      ∀ n, bitOf e.fault n = (bitOf c.fault n && !(decide (4 ≤ n ∧ n < 16) && (bitOf mask n && hasFault c n && causeAbsent cx x c n))) := by
  obtain ⟨hframe, hbits⟩ := foldl_clearFault ((numsFrom 4 12).filter (fun n => bitOf mask n && hasFault c n && causeAbsent cx x c n)) c
  have hmem : ∀ n, ((numsFrom 4 12).filter (fun n => bitOf mask n && hasFault c n && causeAbsent cx x c n)).contains n =
      (decide (4 ≤ n ∧ n < 16) && (bitOf mask n && hasFault c n && causeAbsent cx x c n)) := fun n => by
    rw [List.contains_eq_mem, Bool.eq_iff_iff]
    simp [mem_numsFrom]
  unfold clearFaults
  dsimp only
  generalize List.foldl _ c _ = g at *
  have hg := hframe hc
  split
  · refine ⟨?_, fun n => ?_⟩
    · rw [putTimer_zero, hg, hc]
    · exact (hbits n).trans (by rw [hmem])
  · refine ⟨?_, fun n => (hbits n).trans (by rw [hmem])⟩
    rw [hg]

/-- CFC with the mask in a register: the bits that it clears, and those that stand (02 R91). -/
theorem clearFaults_clears (cx : Ctx) (x : DieSt) (v : Word) {c : CellRec} (hc : c.checkErr = 0) :
    let e := clearFaults cx x (v.extractLsb' 0 16) c
    e = { c with fault := e.fault, t0 := e.t0 } ∧ (∀ n, n < 16 → bitOf e.fault n = true → bitOf c.fault n = true) ∧
      (∀ n, n < 16 → n < 4 ∨ bitOf v n = false → bitOf e.fault n = bitOf c.fault n) ∧
      ∀ n, 4 ≤ n → n < 16 → bitOf v n = true → causeAbsent cx x c n = true → bitOf e.fault n = false := by
  obtain ⟨hframe, hbits⟩ := clearFaults_says cx x (v.extractLsb' 0 16) hc
  have hmask : ∀ n, n < 16 → bitOf (v.extractLsb' 0 16) n = bitOf v n := fun n hn => by simp [bitOf, hn]
  dsimp only at *
  generalize clearFaults cx x (v.extractLsb' 0 16) c = e at *
  refine ⟨hframe, fun n _ h => ?_, fun n h16 h => ?_, fun n h4 h16 hset hgone => ?_⟩
  · rw [hbits, Bool.and_eq_true] at h
    exact h.1
  · rw [hbits, hmask n h16]
    rcases h with h | h
    · rw [decide_eq_false (by omega), Bool.false_and, Bool.not_false, Bool.and_true]
    · rw [h, Bool.false_and, Bool.false_and, Bool.and_false, Bool.not_false, Bool.and_true]
  · rw [hbits, hmask n h16, hset, hgone, decide_eq_true ⟨h4, h16⟩]
    unfold hasFault
    cases bitOf c.fault n <;> rfl

/-! ## Reads of a cell (05 R189, Table 5.12) -/

theorem crdValue_timer (id : Nat) {c : CellRec} (hc : CheckedCell c) {p : Nat} (hp : p < 4) :
    crdValue id (0x0E + p) c = if (timerOf c p).tstate = 3
      then some (timerWord { timerOf c p with tstate := tRUNNING }, addFault fTIMER c) else some (timerWord (timerOf c p), c) := by
  unfold crdValue
  rw [verifyCell_checked hc]
  obtain rfl | rfl | rfl | rfl : p = 0 ∨ p = 1 ∨ p = 2 ∨ p = 3 := by omega
  all_goals rfl

theorem crdValue_mark (id : Nat) {c : CellRec} (hc : CheckedCell c) {p : Nat} (hp : p < 4) :
    crdValue id (0x0A + p) c = some ((markOf c p).setWidth 32, c) := by
  unfold crdValue
  rw [verifyCell_checked hc]
  obtain rfl | rfl | rfl | rfl : p = 0 ∨ p = 1 ∨ p = 2 ∨ p = 3 := by omega
  all_goals rfl

theorem crdValue_port (id : Nat) {c : CellRec} (hc : CheckedCell c) {p : Nat} (hp : p < 4) :
    crdValue id (0x12 + p) c = some ((portOf c p).setWidth 32, c) := by
  unfold crdValue
  rw [verifyCell_checked hc]
  obtain rfl | rfl | rfl | rfl : p = 0 ∨ p = 1 ∨ p = 2 ∨ p = 3 := by omega
  all_goals rfl

/-- The charge of a CRD, by the region of the cell that is named (05 Table 5.10). -/
def readCharge (id r : Nat) : Nat := if regionOf id = r then 14 else 48

/-- CRD of a selector that Table 5.12 lists; in PROPAGATE the cell stands. -/
theorem crd_executes {s : State} {d : Die} {r id : Nat} {rd ra : BitVec 4} {f : BitVec 5} {c e : CellRec} {v : Word}
    (h : ReadsCell s d r ra id c) (hft : FallsThrough s d r (readCharge id r)) (hv : crdValue id f.toNat c = some (v, e)) :
    Executes (.crd d r rd ra f) s (fun t =>
      gReg t d r rd = (if rd = 0 then 0 else v) ∧ OtherRegisters rd.toNat r (dieOf s d) (dieOf t d) ∧
      Advances r (readCharge id r) (dieOf s d) (dieOf t d) ∧ RegistersOnly (reg (dieOf s d) r) (reg (dieOf t d) r) ∧
      CellStep d r s t ∧ OtherCells id d s t ∧
      getCell (dieOf t d) id = if inPropagate (dieOf s d) then getCell (dieOf s d) id else e) := by
  intro hF
  have hr := insGoes_lt hft.1
  obtain ⟨hreg, hid, hchecked, hsrc⟩ := h
  have hname := names_ofNat hid
  have hcharge : crdCharge (dieOf s d) r ra.toNat = readCharge id r := by
    unfold crdCharge readCharge
    rw [show rget (dieOf s d) r ra.toNat = BitVec.ofNat 32 id from hreg, hname.low]
  refine ⟨_, congrArg Host.Outcome.next (atPc_of_fetched hF rfl _), ?_⟩
  rw [hcharge]
  have haGet : rget (addCharge r (readCharge id r) (dieOf s d)) r ra.toNat = BitVec.ofNat 32 id :=
    ((addCharge_reads hr _ _).1 _).trans hreg
  have hshadow : (addCharge r (readCharge id r) (dieOf s d)).shadow = (dieOf s d).shadow := by
    rw [addCharge_regions r _ (dieOf s d)]
  obtain ⟨u, hins, hu⟩ : ∃ u, insCrd r rd.toNat ra.toNat f.toNat (addCharge r (readCharge id r) (dieOf s d)) = .ok (rset r rd.toNat v u) ∧
      CellPut id (if inPropagate (dieOf s d) then getCell (dieOf s d) id else e) (addCharge r (readCharge id r) (dieOf s d)) u := by
    unfold insCrd
    dsimp only
    rw [haGet, hname.low, hname.isNone, inPropagate_addCharge, hshadow, getCell_addCharge]
    cases hp : inPropagate (dieOf s d) with
    | true =>
      rw [hp, if_pos rfl] at hsrc
      obtain ⟨hregion, rfl⟩ := hsrc
      refine ⟨addCharge r (readCharge id r) (dieOf s d), ?_, .self (getCell_addCharge r _ _ id)⟩
      simp [hregion, hv]
    | false =>
      rw [hp, if_neg Bool.false_ne_true] at hsrc
      subst hsrc
      refine ⟨setCell (addCharge r (readCharge id r) (dieOf s d)) id e, ?_, cellPut_setCell id e _⟩
      simp [hv]
  obtain ⟨hget, hadv, hregs, hstep, hothers, hcell⟩ := runRule_cell_rset (f := fun _ y => insCrd r rd.toNat ra.toNat f.toNat y) knCELL hft hins hu
  obtain ⟨hrd, hrest⟩ := registers_of_rset hget
  exact ⟨hrd, hrest, hadv, hregs, hstep, hothers, hcell⟩

/-! ## Writes to a cell (05 R190) -/

theorem cellProf_addCharge (cx : Ctx) (r n : Nat) (x : DieSt) (c : CellRec) : cellProf cx (addCharge r n x) c = cellProf cx x c := by
  rw [addCharge_regions r n x]
  rfl

theorem routeAllows_addCharge (cx : Ctx) (r n : Nat) (x : DieSt) (c : CellRec) (v : Half) :
    routeAllows cx (addCharge r n x) c v = routeAllows cx x c v := by
  rw [addCharge_regions r n x]
  rfl

theorem lineClear_addCharge (cx : Ctx) (r n : Nat) (x : DieSt) (c : CellRec) : lineClear cx (addCharge r n x) c = lineClear cx x c :=
  inputOn_addCharge cx r n x c _

theorem clearFaults_addCharge (cx : Ctx) (r n : Nat) (x : DieSt) (mask : BitVec 16) (c : CellRec) :
    clearFaults cx (addCharge r n x) mask c = clearFaults cx x mask c := by
  rw [addCharge_regions r n x]
  rfl

/-- A register names cell `id`, whose record is `c`, and the region may write it. -/
structure MayWrite (x : DieSt) (r ra id : Nat) (c : CellRec) : Prop where
  name : Names (rget x r ra) id
  cause : cellWriteCause x r (rget x r ra) = none
  cell : getCell x id = c
  checked : CheckedCell c

theorem mayWrite_charged {s : State} {d : Die} {r id : Nat} {ra : BitVec 4} (hn : NamesCell s d r ra id) (hw : WritesCell s d r id)
    (hr : r < 16) (n : Nat) : MayWrite (addCharge r n (dieOf s d)) r ra.toNat id (getCell (dieOf s d) id) := by
  obtain ⟨hname, hcell, -⟩ := hn.charged hr n
  obtain ⟨hrev, hprop, hregion, hunused⟩ := hw
  refine ⟨hname, ?_, hcell, hn.2.2⟩
  unfold cellWriteCause
  dsimp only
  rw [(addCharge_reads hr n (dieOf s d)).2.2.2.1, inPropagate_addCharge, hname.low, hname.isSome, hname.isNone, hcell, hrev, hprop, hunused]
  simp [hregion]

theorem insCwr_field {cx : Ctx} {x : DieSt} {r ra id f : Nat} {c : CellRec} {q : Coded} (rd rb : Nat) (h : MayWrite x r ra id c)
    (hf : cwrField f = some q) (hread : ∀ p, (readCoded p c).2 = c) :
    let p := appWrite q (rget x r rb) (cellProf cx x c) (routeAllows cx x c ((rget x r rb).extractLsb' 0 16)) (lineClear cx x c) c
    insCwr cx r rd ra rb f x = .ok (rset r rd p.1 (setCell x id p.2)) := by
  obtain ⟨hname, hcause, hcell, hchecked⟩ := h
  have happ : f ≠ 0x17 := by
    rintro rfl
    cases hf
  unfold insCwr
  dsimp only
  rw [hcause, hname.low, hcell, verifyCell_checked hchecked]
  dsimp only
  rw [if_neg happ, hf]
  dsimp only
  rw [hread]

theorem insCwr_app {cx : Ctx} {x : DieSt} {r ra id : Nat} {c : CellRec} (rd rb : Nat) (h : MayWrite x r ra id c) :
    insCwr cx r rd ra rb 0x17 x = .ok (rset r rd stSTORED (setCell x id { c with app := (rget x r rb).extractLsb' 0 16 })) := by
  obtain ⟨hname, hcause, hcell, hchecked⟩ := h
  unfold insCwr
  dsimp only
  rw [hcause, hname.low, hcell, verifyCell_checked hchecked]
  dsimp only
  rw [if_pos rfl, if_neg (by rw [Option.isNone_eq_false_iff.mpr hchecked.2]; exact Bool.false_ne_true), ← hchecked.1]

theorem insCfc_ok {cx : Ctx} {x : DieSt} {r ra id : Nat} {c : CellRec} (rd rb : Nat) (h : MayWrite x r ra id c) :
    let e := clearFaults cx x ((rget x r rb).extractLsb' 0 16) c
    insCfc cx r rd ra rb 8 x = .ok (rset r rd (e.fault.setWidth 32) (setCell x id e)) := by
  obtain ⟨hname, hcause, hcell, hchecked⟩ := h
  unfold insCfc
  dsimp only
  rw [hcause, hname.low, hcell, verifyCell_checked hchecked]
  rfl

theorem MayWrite.timerCause {x : DieSt} {r ra id k : Nat} {c : CellRec} (h : MayWrite x r ra id c) (hk : timerRo c k = false) :
    timerCause x r ra k = none := by
  obtain ⟨hname, hcause, hcell, -⟩ := h
  unfold Machine.timerCause
  dsimp only
  rw [hcause, hname.low, hcell, hk]
  rfl

theorem insTst_ok {x : DieSt} {r ra rb id k : Nat} {c : CellRec} (h : MayWrite x r ra id c) (hk : timerRo c k = false)
    (hv : (rget x r rb).toNat ≤ 16777215) :
    insTst r ra rb k x = .ok (setCell x id (putTimer k (startTimer ((rget x r rb).extractLsb' 0 24)) c)) := by
  have hcause := h.timerCause hk
  obtain ⟨hname, -, hcell, hchecked⟩ := h
  unfold insTst modCell
  dsimp only
  rw [hcause, hname.low, hcell, verifyCell_checked hchecked]
  exact if_neg (by omega)

theorem insTsp_ok {x : DieSt} {r ra id k : Nat} {c : CellRec} (h : MayWrite x r ra id c) (hk : timerRo c k = false) :
    insTsp r ra k x = .ok (setCell x id (putTimer k (stopTimer (timerOf c k)) c)) := by
  have hcause := h.timerCause hk
  obtain ⟨hname, -, hcell, hchecked⟩ := h
  unfold insTsp modCell
  dsimp only
  rw [hcause, hname.low, hcell, verifyCell_checked hchecked]

/-- A timer starts with the value of its register, and with 0 as expired (02 R86). -/
theorem startTimer_low {v : Word} (h : v.toNat ≤ 16777215) :
    startTimer (v.extractLsb' 0 24) = { tstate := if v = 0 then tEXPIRED else tRUNNING, fresh := true, trem := v.extractLsb' 0 24 } := by
  have hzero : v.extractLsb' 0 24 = 0 ↔ v = 0 := by
    rw [BitVec.toNat_eq, BitVec.toNat_eq, BitVec.extractLsb'_toNat, Nat.shiftRight_zero, Nat.mod_eq_of_lt (by omega)]
    rfl
  unfold startTimer
  simp only [hzero]

theorem writtenField_cwr {f : BitVec 5} {q : Coded} (h : writtenField f q) : cwrField f.toNat = some q := by
  rcases h with ⟨rfl, rfl⟩ | ⟨rfl, rfl⟩ | ⟨rfl, rfl⟩ | ⟨rfl, rfl⟩ <;> rfl

/-- A row that writes a cell without writing a register. -/
theorem runRule_cell_only {s : State} {d : Die} {r c id : Nat} {e : CellRec} {f : Ctx → DieSt → InsRes} (kind : Nat)
    (hft : FallsThrough s d r c) (hf : f (ctxOf s) (addCharge r c (dieOf s d)) = .ok (setCell (addCharge r c (dieOf s d)) id e)) :
    let t := runRule d r c kind f s
    getCell (dieOf t d) id = e ∧ (∀ n, gReg t d r n = gReg s d r n) ∧ Advances r c (dieOf s d) (dieOf t d) ∧
      RegistersOnly (reg (dieOf s d) r) (reg (dieOf t d) r) ∧ CellStep d r s t ∧ OtherCells id d s t := by
  obtain ⟨hget, hadv, hregs, hstep, hothers, hcell⟩ := runRule_cell_rset (n := 0) (v := 0) kind hft hf (cellPut_setCell id e _)
  refine ⟨hcell, fun n => (hget n.toNat).trans ?_, hadv, hregs, hstep, hothers⟩
  split
  · rename_i hn
    unfold gReg
    rw [if_pos rfl, hn]
    rfl
  · rfl

/-- What a CWR stores, and the status that it returns (05 Table 5.13). -/
structure FieldStored (q : Coded) (v : Word) (c : CellRec) (st : Word) (e : CellRec) : Prop where
  status : StatusSays q v c (st, e)
  refuses : (validOf q c).contains (v.extractLsb' 0 16) = false ∨ v.extractLsb' 16 16 ≠ 0 → st = 1
  others : ∀ p, p ≠ q → rawCoded p e = rawCoded p c
  frame : e = { c with occ := e.occ, pos := e.pos, aspect := e.aspect, cmd := e.cmd, fault := e.fault, t0 := e.t0 }

theorem appWrite_stores {q : Coded} (hq : q ≠ .lock) {c : CellRec} (hc : ReadsClean c) (v : Word) (pr : CellProf) (ok clear : Bool) :
    FieldStored q v c (appWrite q v pr ok clear c).1 (appWrite q v pr ok clear c).2 := by
  obtain ⟨hframe, hothers⟩ := appWrite_written hq hc v pr ok clear
  rw [← hc.1.1] at hframe
  exact ⟨appWrite_says hc v pr ok clear, appWrite_refuses pr ok clear, hothers, hframe⟩

/-- Settles O8: CRD gives what its selector names (`crd_executes`, with `crdValue` by selector); CWR, CFC, TST and TSP store in the one cell
what `appWrite`, `clearFaults` and the timers make of it (`appWrite_stores`, `clearFaults_says`, `runRule_cell_only`). -/
theorem cellInstructionsReadAndWriteOneCell : Obligations.CellInstructionsReadAndWriteOneCell := by
  intro s d r rd ra rb f k id
  refine ⟨?_, fun hn hw hft => ?_⟩
  · intro c h hft out code
    have hc : CheckedCell c := h.2.2.1
    have hout : ∀ {v e}, crdValue id f.toNat c = some (v, e) → out v e := fun hv => crd_executes h hft hv
    have hlit : ∀ {n : BitVec 5} {v e}, crdValue id n.toNat c = some (v, e) → f = n → out v e := fun hv hf => hout (hf ▸ hv)
    refine ⟨hlit ?_, hlit ?_, hlit ?_, hlit ?_, hlit ?_, hlit ?_, hlit ?_, hlit ?_, hlit ?_, hlit ?_, fun p hp hf => ?_, fun p hp hf => ?_,
      fun p hp hf => ?_, hlit ?_, hlit ?_, hlit ?_⟩
    case refine_11 => exact hout (hf ▸ crdValue_mark id hc hp)
    case refine_12 =>
      have hv := crdValue_timer id hc hp
      rw [← hf] at hv
      exact ⟨fun ht => hout (hv.trans (if_neg ht)), fun ht => hout (hv.trans (if_pos ht))⟩
    case refine_13 => exact hout (hf ▸ crdValue_port id hc hp)
    all_goals
      unfold crdValue
      rw [verifyCell_checked hc]
      rfl
  · have hmay := mayWrite_charged hn hw (insGoes_lt hft.1) 18
    have haGet : ∀ k, rget (addCharge r 18 (dieOf s d)) r k = rget (dieOf s d) r k := (addCharge_reads (insGoes_lt hft.1) 18 (dieOf s d)).1
    obtain ⟨-, -, hchecked⟩ := hn
    dsimp only
    refine ⟨fun q hq hread hF => ?_, fun hF => ?_, fun hF => ?_, fun hk hv hF => ?_, fun hk hF => ?_⟩ <;>
      refine ⟨_, congrArg Host.Outcome.next (atPc_of_fetched hF rfl _), ?_⟩ <;> dsimp only
    · have hlock := cwrField_ne_lock (writtenField_cwr hq)
      have hins := insCwr_field (cx := ctxOf s) rd.toNat rb.toNat hmay (writtenField_cwr hq) hread
      rw [haGet, cellProf_addCharge, routeAllows_addCharge, lineClear_addCharge] at hins
      obtain ⟨hget, hadv, hregs, hstep, hothers, hcell⟩ := runRule_cell_rset
        (f := fun cx y => insCwr cx r rd.toNat ra.toNat rb.toNat f.toNat y) knCELL hft hins (cellPut_setCell id _ _)
      obtain ⟨hrd, hrest⟩ := registers_of_rset hget
      obtain ⟨⟨hknown, hstored, hrestricted, hcapped, hnone⟩, hrefuses, hkept, hframe⟩ :=
        appWrite_stores hlock ⟨hchecked, hread⟩ (gReg s d r rb)
          (cellProf (ctxOf s) (dieOf s d) (getCell (dieOf s d) id))
          (routeAllows (ctxOf s) (dieOf s d) (getCell (dieOf s d) id) ((gReg s d r rb).extractLsb' 0 16))
          (lineClear (ctxOf s) (dieOf s d) (getCell (dieOf s d) id))
      rw [hcell]
      exact ⟨hknown, hrd, hrest, hstored, hrestricted, hcapped, hnone, hrefuses, hkept, hframe, hadv, hregs, hstep, hothers⟩
    · have hins := insCwr_app (cx := ctxOf s) rd.toNat rb.toNat hmay
      rw [haGet] at hins
      obtain ⟨hget, hadv, hregs, hstep, hothers, hcell⟩ := runRule_cell_rset
        (f := fun cx y => insCwr cx r rd.toNat ra.toNat rb.toNat 0x17 y) knCELL hft hins (cellPut_setCell id _ _)
      obtain ⟨hrd, hrest⟩ := registers_of_rset hget
      exact ⟨hcell, hrd.trans (ite_self _), hrest, hadv, hregs, hstep, hothers⟩
    · have hins := insCfc_ok (cx := ctxOf s) rd.toNat rb.toNat hmay
      rw [haGet, clearFaults_addCharge] at hins
      obtain ⟨hget, hadv, hregs, hstep, hothers, hcell⟩ := runRule_cell_rset
        (f := fun cx y => insCfc cx r rd.toNat ra.toNat rb.toNat (0x08 : BitVec 5).toNat y) knCELL hft hins (cellPut_setCell id _ _)
      obtain ⟨hrd, hrest⟩ := registers_of_rset hget
      obtain ⟨hframe, honly, hkept, hgone⟩ := clearFaults_clears (ctxOf s) (dieOf s d) (gReg s d r rb) hchecked.1
      rw [hcell]
      exact ⟨hframe, honly, hkept, hgone, hrd, hrest, hadv, hregs, hstep, hothers⟩
    · have hins := insTst_ok (rb := rb.toNat) hmay hk (by rw [haGet]; exact hv)
      rw [haGet, startTimer_low (v := rget (dieOf s d) r rb.toNat) hv] at hins
      exact runRule_cell_only (f := fun _ y => insTst r ra.toNat rb.toNat k.toNat y) knCELL hft hins
    · exact runRule_cell_only (f := fun _ y => insTsp r ra.toNat k.toNat y) knCELL hft (insTsp_ok hmay hk)

end Sys2Proof.Machine


/-!
PROOFS. The trip latch under the operations that many rows share: records, modes, trips, telegrams and requests taken (06 R226, R229).
-/

namespace Sys2Proof.Machine

/-! ## Conditions and folds -/

@[simp] theorem latch_ite (c : Prop) [Decidable c] (a b : State) :
    (if c then a else b).ao.tripLatch = if c then a.ao.tripLatch else b.ao.tripLatch :=
  apply_ite (fun s : State => s.ao.tripLatch) c a b

theorem latch_of_ite {c : Prop} [Decidable c] {a b : State} {v : Bool} (ha : a.ao.tripLatch = v) (hb : b.ao.tripLatch = v) :
    (if c then a else b).ao.tripLatch = v := by
  split
  · exact ha
  · exact hb

theorem foldl_latch {α : Type} {f : State → α → State} (h : ∀ s a, (f s a).ao.tripLatch = s.ao.tripLatch) (l : List α) (s : State) :
    (l.foldl f s).ao.tripLatch = s.ao.tripLatch :=
  List.foldlRecOn (motive := fun t => t.ao.tripLatch = s.ao.tripLatch) l f rfl fun u hu a _ => (h u a).trans hu

theorem foldl_latched {α : Type} {f : State → α → State} (h : ∀ s a, s.ao.tripLatch = true → (f s a).ao.tripLatch = true) (l : List α)
    {s : State} (hs : s.ao.tripLatch = true) : (l.foldl f s).ao.tripLatch = true :=
  List.foldlRecOn (motive := fun t => t.ao.tripLatch = true) l f hs fun u hu a _ => h u a hu

/-! ## Records, events, overlays and modes -/

@[simp] theorem logPut_latch (q : LogReq) (s : State) : (logPut q s).ao.tripLatch = s.ao.tripLatch := rfl

@[simp] theorem logCore_latch (q : LogReq) (s : State) : (logCore q s).ao.tripLatch = s.ao.tripLatch := rfl

@[simp] theorem logOpen_latch (c : BitVec 16) (u p i : Nat) (k : BitVec 64) (s : State) :
    (logOpen c u p i k s).ao.tripLatch = s.ao.tripLatch := rfl

@[simp] theorem logData_latch (c : BitVec 16) (u p i : Nat) (k : BitVec 64) (s : State) :
    (logData c u p i k s).ao.tripLatch = s.ao.tripLatch := rfl

@[simp] theorem logTrip_latch (q : TripRec) (s : State) : (logTrip q s).ao.tripLatch = s.ao.tripLatch := rfl

@[simp] theorem logAll_latch (qs : List LogReq) (s : State) : (logAll qs s).ao.tripLatch = s.ao.tripLatch :=
  foldl_latch (fun s q => logPut_latch q s) qs s

@[simp] theorem takeDieLogs_latch (d : Die) (s : State) : (takeDieLogs d s).ao.tripLatch = s.ao.tripLatch := by
  simp [takeDieLogs]

@[simp] theorem countFault_latch (n : Nat) (s : State) : (countFault n s).ao.tripLatch = s.ao.tripLatch := rfl

@[simp] theorem postEvery_latch (n : Nat) (s : State) : (postEvery n s).ao.tripLatch = s.ao.tripLatch := rfl

@[simp] theorem setClaim_latch (s : State) : (setClaim s).ao.tripLatch = s.ao.tripLatch := rfl

@[simp] theorem clearClaim_latch (s : State) : (clearClaim s).ao.tripLatch = s.ao.tripLatch := rfl

@[simp] theorem winHeader_latch (s : State) : (winHeader s).ao.tripLatch = s.ao.tripLatch := rfl

@[simp] theorem abortChange_latch (k : BitVec 8) (s : State) : (abortChange k s).ao.tripLatch = s.ao.tripLatch := by
  rw [abortChange_eq]

@[simp] theorem recordAbandoned_latch (s : State) : (recordAbandoned s).ao.tripLatch = s.ao.tripLatch := rfl

@[simp] theorem stopCycles_latch (s : State) : (stopCycles s).ao.tripLatch = s.ao.tripLatch := (stopCycles_claim s).2.2.2.1

@[simp] theorem enterSafe_latch (s : State) : (enterSafe s).ao.tripLatch = s.ao.tripLatch := (enterSafe_claim s).2.2.2.1

@[simp] theorem excludeCopy_latch (d : Die) (r : Nat) (c : ExclCause) (s : State) :
    (excludeCopy d r c s).ao.tripLatch = s.ao.tripLatch := by
  rw [excludeCopy_eq]

@[simp] theorem haltRegion_latch (d : Die) (r : Nat) (s : State) : (haltRegion d r s).ao.tripLatch = s.ao.tripLatch := rfl

@[simp] theorem refreshClamps_latch (s : State) : (refreshClamps s).ao.tripLatch = s.ao.tripLatch := by
  simp [refreshClamps]

@[simp] theorem refreshOuts_latch (s : State) : (refreshOuts s).ao.tripLatch = s.ao.tripLatch := by
  simp [refreshOuts]

@[simp] theorem onOutsLog_latch (f : OutCx → OutSt → OutSt × List LogReq) (s : State) :
    (onOutsLog f s).ao.tripLatch = s.ao.tripLatch := by
  simp [onOutsLog]

@[simp] theorem removeDrive_latch (s : State) : (removeDrive s).ao.tripLatch = s.ao.tripLatch := by
  simp [removeDrive]

@[simp] theorem askPeers_latch (p : Port) (s : State) : (askPeers p s).ao.tripLatch = s.ao.tripLatch := rfl

@[simp] theorem linkClock_latch (s : State) : (linkClock s).ao.tripLatch = s.ao.tripLatch := rfl

@[simp] theorem startPorts_latch (s : State) : (startPorts s).ao.tripLatch = s.ao.tripLatch := by
  unfold startPorts
  dsimp only
  refine (foldl_latch (f := fun u p => askPeers p u) (fun u p => askPeers_latch p u) _ _).trans ?_
  rw [linkClock_latch]
  simp

/-! ## Trips -/

/-- A trip cause never clears the latch: where none is taken it is as before, and a trip sets it. -/
theorem tripBy_latched (q : CauseIn) (c : Cause) (region : Nat) (detail : BitVec 8) (avail : BitVec 4) {s : State}
    (h : s.ao.tripLatch = true) : (tripBy q c region detail avail s).ao.tripLatch = true := by
  unfold tripBy
  dsimp only
  split
  · exact h
  split
  · exact h
  split
  · exact h
  split
  · exact h
  · simp


theorem tripNow_latched (c : Cause) (region : Nat) (detail : BitVec 8) (avail : BitVec 4) {s : State} (h : s.ao.tripLatch = true) :
    (tripNow c region detail avail s).ao.tripLatch = true :=
  tripBy_latched causeNow c region detail avail h

/-! ## Counters, telegrams taken, requests taken (04 SAMPLE) -/

@[simp] theorem pmcReadDie_latch (d : Die) (s : State) : (pmcReadDie d s).ao.tripLatch = s.ao.tripLatch := by
  simp [pmcReadDie]

theorem takeOne_latch (p : Port) (lt : LinkTel) (q : State × List Taken) : (takeOne p lt q).1.ao.tripLatch = q.1.ao.tripLatch := by
  unfold takeOne
  dsimp only
  split
  · simp
  · split
    · rfl
    · split <;> simp

@[simp] theorem apartRecord_latch (s : State) : (apartRecord s).ao.tripLatch = s.ao.tripLatch := by
  unfold apartRecord
  exact latch_of_ite (foldl_latch (fun _ _ => logData_latch ..) _ _) rfl

@[simp] theorem unheard_latch (all : List LinkTel) (ts : List Taken) (s : State) : (unheard all ts s).ao.tripLatch = s.ao.tripLatch :=
  foldl_latch (f := fun s n => onLinks (modLinkSt n (fun l => { l with acceptS := l.acceptPrev, accNow := false })) s) (fun _ _ => rfl) _ s

@[simp] theorem takeSpools_latch (s : State) : (takeSpools s).1.ao.tripLatch = s.ao.tripLatch := by
  unfold takeSpools
  dsimp only
  rw [unheard_latch]
  exact List.foldlRecOn (motive := fun q : State × List Taken => q.1.ao.tripLatch = s.ao.tripLatch) _ _ rfl
    fun q hq t _ => (takeOne_latch t.1 t.2 q).trans hq

@[simp] theorem linkLost_latch (n : Nat) (s : State) : (linkLost n s).ao.tripLatch = s.ao.tripLatch := rfl

theorem linkSample_latch (s : State) (n : Nat) : (linkSample s n).ao.tripLatch = s.ao.tripLatch := by
  simp [linkSample]

@[simp] theorem takeTelegrams_latch (s : State) : (takeTelegrams s).ao.tripLatch = s.ao.tripLatch := by
  have hsample := foldl_latch linkSample_latch (validLinks (takeSpools s).1.part) (apartRecord (takeSpools s).1)
  unfold takeTelegrams
  dsimp only [onDies_fields]
  refine (foldl_latch (f := fun s (t : Taken) => onLinks (countDiscard t.link dcFULL) s) (fun _ _ => rfl) _ _).trans (hsample.trans ?_)
  simp

@[simp] theorem recBad_latch (n : Nat) (s : State) : (recBad n s).ao.tripLatch = s.ao.tripLatch := rfl

@[simp] theorem returnSlot_latch (n : Nat) (q : BitVec 8 × BitVec 8) (s : State) : (returnSlot n q s).ao.tripLatch = s.ao.tripLatch := rfl

@[simp] theorem takeSlot_latch (running : Bool) (s : State) : (takeSlot running s).ao.tripLatch = s.ao.tripLatch := by
  unfold takeSlot
  dsimp only
  split
  · rfl
  split
  · rfl
  · simp

theorem takeSlots_latch (running : Bool) (n : Nat) (s : State) : (takeSlots running n s).ao.tripLatch = s.ao.tripLatch := by
  induction n generalizing s with
  | zero => rfl
  | succ n ih =>
    unfold takeSlots
    exact latch_of_ite rfl ((ih _).trans (takeSlot_latch running s))

@[simp] theorem takeRequests_latch (running : Bool) (s : State) : (takeRequests running s).ao.tripLatch = s.ao.tripLatch := by
  unfold takeRequests
  exact latch_of_ite (takeSlots_latch running 64 s) rfl

end Sys2Proof.Machine


/-!
PROOFS. The trip latch under the phases of a die, the votes, the roles and the boundary (04, 06, 12, 13): for O60.
-/

namespace Sys2Proof.Machine

/-! ## Dies in their phases (04) -/

@[simp] theorem noteSubstitute_latch (d : Die) (s : State) : (noteSubstitute d s).ao.tripLatch = s.ao.tripLatch := by
  simp [noteSubstitute]

@[simp] theorem todoRow_latch (p : Todo → Bool) (d : Die) (s : State) : (todoRow p d s).ao.tripLatch = s.ao.tripLatch := by
  unfold todoRow
  dsimp only
  split
  · rfl
  · simp

@[simp] theorem fabricRow_latch (d : Die) (f : DieSt → DieSt) (s : State) : (fabricRow d f s).ao.tripLatch = s.ao.tripLatch := by
  simp [fabricRow]

@[simp] theorem deliverRow_latch (d : Die) (t : Token) (s : State) : (deliverRow d t s).ao.tripLatch = s.ao.tripLatch :=
  fabricRow_latch ..

@[simp] theorem tokenRow_latch (d : Die) (ty : BitVec 4) (t : Token) (s : State) : (tokenRow d ty t s).ao.tripLatch = s.ao.tripLatch := by
  simp [tokenRow]

@[simp] theorem pairFault_latch (kind : BitVec 8) (d : Die) (r : Nat) (clock : BitVec 24) (lines : Word) (s : State) :
    (pairFault kind d r clock lines s).ao.tripLatch = s.ao.tripLatch := by
  simp [pairFault]

/-! ## The vote (06) -/

/-- The vote of a region changes the watchdog of the always-on domain alone. -/
theorem VoteFrame.latch {s t : State} (h : VoteFrame s t) : t.ao.tripLatch = s.ao.tripLatch := by
  unfold VoteFrame at h
  rw [h]

@[simp] theorem abandonRejoin_latch (d : Die) (r : Nat) (s : State) : (abandonRejoin d r s).ao.tripLatch = s.ao.tripLatch := rfl

@[simp] theorem setForces_latch (l : List ForceEntry) (f : ForceEntry) (s : State) : (setForces l f s).ao.tripLatch = s.ao.tripLatch :=
  (setForces_frame l f s).1.latch

/-- The vote of a region never clears the latch: it trips, or changes the parts of `VoteFrame`. -/
theorem voteRegion_latched (r : Nat) {s : State} (h : s.ao.tripLatch = true) : (voteRegion r s).ao.tripLatch = true := by
  rcases voteRegion_step r s with ⟨q, c, region, detail, avail, u, -, -, hu, hv⟩ | hv
  · rw [hv]
    exact tripBy_latched q c region detail avail (hu.frame.latch.trans h)
  · exact hv.frame.latch.trans h

theorem voteIfDue_latched {s : State} (r : Nat) (h : s.ao.tripLatch = true) : (voteIfDue s r).ao.tripLatch = true :=
  latch_of_ite (voteRegion_latched r h) h

theorem foldl_voteIfDue_latched (l : List Nat) {s : State} (h : s.ao.tripLatch = true) : (l.foldl voteIfDue s).ao.tripLatch = true :=
  foldl_latched (fun _ r hu => voteIfDue_latched r hu) l h

/-! ## Roles and transfers (12) -/

theorem PairFrame.latch {s t : State} (h : PairFrame s t) : t.ao.tripLatch = s.ao.tripLatch := by rw [h.ao_eq]

@[simp] theorem enterActive_latch (s : State) : (enterActive s).ao.tripLatch = s.ao.tripLatch := by
  simp [enterActive]

@[simp] theorem enterStandby_latch (s : State) : (enterStandby s).ao.tripLatch = s.ao.tripLatch := by
  simp [enterStandby]

@[simp] theorem negotiate_latch (s : State) : (negotiate s).ao.tripLatch = s.ao.tripLatch := by
  simp [negotiate]

@[simp] theorem partnerLost_latch (s : State) : (partnerLost s).ao.tripLatch = s.ao.tripLatch := rfl

@[simp] theorem transferRestart_latch (m : XferModule) (s : State) : (transferRestart m s).ao.tripLatch = s.ao.tripLatch := by
  simp [transferRestart]

@[simp] theorem activeBoundary_latch (n : Word) (s : State) : (activeBoundary n s).ao.tripLatch = s.ao.tripLatch := by
  simp [activeBoundary, (activeImages_frame n s).latch]

@[simp] theorem standbyRuns_latch (n : Word) (fresh : Bool) (s : State) : (standbyRuns n fresh s).ao.tripLatch = s.ao.tripLatch := by
  simp [standbyRuns, (compareOutputs_frame n _).latch, (compareShadow_frame fresh _).latch, (yieldRefused_frame s).latch]

@[simp] theorem standbyBoundary_latch (n : Word) (fresh : Bool) (s : State) : (standbyBoundary n fresh s).ao.tripLatch = s.ao.tripLatch := by
  have hprep : (transferLimits (claimLineStep s)).ao.tripLatch = s.ao.tripLatch :=
    (transferLimits_frame _).latch.trans (claimLineStep_frame s).latch
  unfold standbyBoundary
  dsimp only
  split
  · exact (transferRestart_latch _ _).trans (claimLineStep_frame s).latch
  · simp [hprep]

theorem roleRows_latch (first fresh : Bool) (n : Word) (s : State) : (roleRows first fresh n s).ao.tripLatch = s.ao.tripLatch := by
  unfold roleRows
  split <;> simp

@[simp] theorem roleBoundary_latch (first : Bool) (k n : Word) (s : State) : (roleBoundary first k n s).ao.tripLatch = s.ao.tripLatch := by
  have hprep := (rolePrepared_frame first k n s).latch
  obtain ⟨fresh, hrole⟩ := roleBoundary_eq first k n s
  rw [hrole]
  refine latch_of_ite (latch_of_ite ((enterActive_latch _).trans hprep) hprep) ?_
  exact (roleRows_latch first fresh n _).trans hprep

/-! ## The boundary (04, 13 R394) -/

theorem PublishFrame.latch {s t : State} (h : PublishFrame s t) : t.ao.tripLatch = s.ao.tripLatch := by
  unfold PublishFrame at h
  rw [h]

@[simp] theorem rtcStore_latch (s : State) : (rtcStore s).ao.tripLatch = s.ao.tripLatch := rfl

@[simp] theorem closeRecorder_latch (s : State) : (closeRecorder s).ao.tripLatch = s.ao.tripLatch := rfl

@[simp] theorem enterShutdown_latch (forRestart : Bool) (last : Word) (s : State) :
    (enterShutdown forRestart last s).ao.tripLatch = s.ao.tripLatch := by
  simp [enterShutdown]

@[simp] theorem stopStep_latch (forRestart : Bool) (b : Nat) (again : Nat → StopReq) (last : Word) (s : State) :
    (stopStep forRestart b again last s).ao.tripLatch = s.ao.tripLatch := by
  unfold stopStep
  split <;> simp

@[simp] theorem stopBoundary_latch (last : Word) (s : State) : (stopBoundary last s).ao.tripLatch = s.ao.tripLatch := by
  unfold stopBoundary
  split <;> simp

@[simp] theorem countClean_latch (s : State) : (countClean s).ao.tripLatch = s.ao.tripLatch := by rw [(countClean_role s).2.2]

@[simp] theorem timeBase_latch (slk : Nat) (s : State) : (timeBase slk s).ao.tripLatch = s.ao.tripLatch := by rw [timeBase_eq]

theorem openCycle_latch (first : Bool) (n : Word) (s : State) : (openCycle first n s).ao.tripLatch = s.ao.tripLatch :=
  countClean_latch s

theorem stopsTaken_latch (first : Bool) (bi : BoundaryIn) (s : State) : (stopsTaken first bi s).ao.tripLatch = s.ao.tripLatch := by
  unfold stopsTaken rolesTaken
  simp [openCycle_latch]

@[simp] theorem steer_latch (jump : Bool) (off : Option Int) (s : State) : (steer jump off s).ao.tripLatch = s.ao.tripLatch := by
  unfold steer
  split <;> rfl

@[simp] theorem startRejoin_latch (d : Die) (r : Nat) (s : State) : (startRejoin d r s).ao.tripLatch = s.ao.tripLatch := rfl

@[simp] theorem rejoinStep_latch (s : State) (q : Die × Nat) : (rejoinStep s q).ao.tripLatch = s.ao.tripLatch := by
  unfold rejoinStep
  dsimp only
  split
  · simp
  · simp
  · rfl
  · simp

@[simp] theorem rejoinAll_latch (s : State) : (rejoinAll s).ao.tripLatch = s.ao.tripLatch :=
  latch_of_ite rfl (foldl_latch rejoinStep_latch _ s)

@[simp] theorem clearOverlays_latch (s : State) : (clearOverlays s).ao.tripLatch = s.ao.tripLatch := by
  simp [clearOverlays]

@[simp] theorem readPermit_latch (n : Nat) (s : State) : (readPermit n s).2.ao.tripLatch = s.ao.tripLatch := by
  simp [readPermit]

@[simp] theorem switchBanks_latch (n : Word) (s : State) : (switchBanks n s).ao.tripLatch = s.ao.tripLatch :=
  (foldl_latch (fun _ _ => logOpen_latch ..) _ _).trans (by simp)

@[simp] theorem changeBoundary_latch (n : Word) (s : State) : (changeBoundary n s).ao.tripLatch = s.ao.tripLatch := by
  unfold changeBoundary
  dsimp only
  generalize hy : (if s.change.carryAt.any (· ≠ n) = true then { s with change := { s.change with carryAt := none } } else s) = y
  have hstart : y.ao.tripLatch = s.ao.tripLatch := hy ▸ latch_of_ite rfl rfl
  split
  · simp [hstart]
  · exact hstart

@[simp] theorem expireForces_latch (n : Word) (s : State) : (expireForces n s).ao.tripLatch = s.ao.tripLatch :=
  foldl_latch (fun u f => setForces_latch _ f u) _ s

@[simp] theorem shiftSetup_latch (s : State) : (shiftSetup s).ao.tripLatch = s.ao.tripLatch := by
  unfold shiftSetup
  split <;> rfl

@[simp] theorem publishBoundary_latch (s : State) : (publishBoundary s).ao.tripLatch = s.ao.tripLatch := (publishBoundary_frame s).latch

theorem finishBoundary_latch (k : Word) (jump : Bool) (off : Option Int) (s : State) :
    (finishBoundary k jump off s).ao.tripLatch = s.ao.tripLatch := by
  simp [finishBoundary]

/-- RELEASE trips on a comparison that fails, and leaves the latch otherwise. -/
theorem releaseImages_latched (k : Word) {s : State} (h : s.ao.tripLatch = true) : (releaseImages k s).ao.tripLatch = true :=
  latch_of_ite (tripNow_latched _ _ _ _ h) h

theorem releaseStep_latched (first : Bool) (k n : Word) {s : State} (h : s.ao.tripLatch = true) :
    (releaseStep first k n s).ao.tripLatch = true := by
  obtain ⟨u, hu⟩ : ∃ u, u = if first || !cyclesRun s then s else releaseImages k s := ⟨_, rfl⟩
  have hlatch : u.ao.tripLatch = true := hu ▸ latch_of_ite h (releaseImages_latched k h)
  unfold releaseStep
  rw [← hu]
  dsimp only
  split
  · exact latch_of_ite hlatch ((releaseTelegrams_frame k u).latch.trans hlatch)
  · exact latch_of_ite hlatch ((releaseTelegrams_frame k u).latch.trans hlatch)
  · exact (sendIdles_frame (n - 1) u).latch.trans hlatch

theorem imagesReleased_latched (first : Bool) (bi : BoundaryIn) {s : State} (h : s.ao.tripLatch = true) :
    (imagesReleased first bi s).ao.tripLatch = true := by
  unfold imagesReleased
  exact releaseStep_latched first _ _ ((stopsTaken_latch first bi s).trans h)

theorem runBoundary_latched (first : Bool) (bi : BoundaryIn) {s : State} (h : s.ao.tripLatch = true) :
    (runBoundary first bi s).ao.tripLatch = true := by
  obtain ⟨jump, hrun⟩ := runBoundary_eq first bi s
  have hreleased := imagesReleased_latched first bi h
  generalize imagesReleased first bi s = u at *
  rw [hrun, finishBoundary_latch]
  exact hreleased

@[simp] theorem publishFrozen_latch (s u : State) : (publishFrozen s u).ao.tripLatch = u.ao.tripLatch := (publishFrozen_frame s u).latch

@[simp] theorem freezeImage_latch (n : Word) (s : State) : (freezeImage n s).ao.tripLatch = s.ao.tripLatch := by rw [(freezeImage_role n s).2.2.1]

theorem idleBoundary_latch (s : State) : (idleBoundary s).ao.tripLatch = s.ao.tripLatch := by
  unfold idleBoundary
  simp [(sendIdles_frame _ _).latch]

theorem closeVotes_latched {s : State} (h : s.ao.tripLatch = true) : (closeVotes s).ao.tripLatch = true :=
  latch_of_ite (foldl_voteIfDue_latched _ h) h

/-- A boundary of a module that runs cycles, its votes closed first. -/
theorem closedBoundary_latched (bi : BoundaryIn) {s : State} (h : s.ao.tripLatch = true) :
    (if cyclesRun (closeVotes s) then runBoundary false bi (closeVotes s) else idleBoundary (closeVotes s)).ao.tripLatch = true :=
  latch_of_ite (runBoundary_latched false bi (closeVotes_latched h)) ((idleBoundary_latch _).trans (closeVotes_latched h))

theorem cycleBoundary_latched (bi : BoundaryIn) {s t : State} (ht : execCycleBoundary bi s = .next t) (h : s.ao.tripLatch = true) :
    t.ao.tripLatch = true := by
  obtain rfl := Host.Outcome.next.inj ht
  refine latch_of_ite h ?_
  split
  · exact latch_of_ite (runBoundary_latched true bi h) (latch_of_ite (closedBoundary_latched bi h) h)
  · exact closedBoundary_latched bi h
  · exact closedBoundary_latched bi h
  · exact (idleBoundary_latch s).trans h
  · exact (idleBoundary_latch s).trans h
  · exact h

end Sys2Proof.Machine


/-!
PROOFS. The trip latch under rule code, COMMIT, links, spools, inputs, outputs, updates and the window (05, 07 to 10, 16, 17): for O60.
-/

namespace Sys2Proof.Machine

/-! ## Rule code (05) -/

@[simp] theorem runRule_latch (d : Die) (r charge kind : Nat) (f : Ctx → DieSt → InsRes) (s : State) :
    (runRule d r charge kind f s).ao.tripLatch = s.ao.tripLatch := by
  simp [runRule]

theorem atPc_latch {f : State → State} {s : State} (h : (f s).ao.tripLatch = s.ao.tripLatch) (d : Die) (r : Nat) (w : Word) :
    (atPc d r w f s).ao.tripLatch = s.ao.tripLatch :=
  latch_of_ite h rfl

@[simp] theorem eccEvent_latch (d : Die) (r a : Nat) (e : Ecc) (s : State) : (eccEvent d r a e s).ao.tripLatch = s.ao.tripLatch := by
  unfold eccEvent
  split <;> simp

@[simp] theorem ruleLoad_latch (d : Die) (r rd ra : Nat) (imm : BitVec 18) (n : Nat) (e : Ecc) (s : State) :
    (ruleLoad d r rd ra imm n e s).ao.tripLatch = s.ao.tripLatch := by
  simp [ruleLoad]

@[simp] theorem bridleDrop_latch (d : Die) (o : Nat) (s : State) : (bridleDrop d o s).ao.tripLatch = s.ao.tripLatch := by
  simp [bridleDrop]

@[simp] theorem ruleDrop_latch (d : Die) (r ra k : Nat) (s : State) : (ruleDrop d r ra k s).ao.tripLatch = s.ao.tripLatch := by
  unfold ruleDrop
  dsimp only
  split <;> simp

/-! ## COMMIT and the idle window (04, 06, 12, 14) -/

@[simp] theorem fixHeart_latch (s : State) : (fixHeart s).ao.tripLatch = s.ao.tripLatch := by
  simp [fixHeart, handoverOffer]

theorem migrationCopy_latch (d : Die) (s : State) (r : Nat) : (migrationCopy d s r).ao.tripLatch = s.ao.tripLatch := by
  simp [migrationCopy]

@[simp] theorem migrationCopies_latch (d : Die) (s : State) : (migrationCopies d s).ao.tripLatch = s.ao.tripLatch :=
  foldl_latch (migrationCopy_latch d) _ s

@[simp] theorem loadPass_latch (d : Die) (s : State) : (loadPass d s).ao.tripLatch = s.ao.tripLatch := rfl

@[simp] theorem sendTransfer_latch (ws : List Word) (s : State) : (sendTransfer ws s).ao.tripLatch = s.ao.tripLatch := by
  unfold sendTransfer
  split <;> simp

@[simp] theorem sendBlocks_latch (pass : Nat) (l : List Nat) (s : State) : (sendBlocks pass l s).1.ao.tripLatch = s.ao.tripLatch := by
  induction l generalizing s with
  | nil => rfl
  | cons n l ih =>
    unfold sendBlocks
    dsimp only
    split
    · rfl
    · exact (ih _).trans (by simp)

@[simp] theorem sendFinal_latch (pass : Nat) (x : DieSt) (inits : List Bool) (s : State) :
    (sendFinal pass x inits s).ao.tripLatch = s.ao.tripLatch := by
  unfold sendFinal
  simp only [sendTransfer_latch]
  exact foldl_latch (fun _ _ => sendTransfer_latch ..) _ s

@[simp] theorem setSend_latch (q : XferSend) (s : State) : (setSend q s).ao.tripLatch = s.ao.tripLatch := rfl

@[simp] theorem finalPass_latch (pass cycles : Nat) (s : State) : (finalPass pass cycles s).ao.tripLatch = s.ao.tripLatch := by
  unfold finalPass
  dsimp only
  split <;> simp

@[simp] theorem passWindow_latch (pass cycles window : Nat) (next : List Nat) (s : State) :
    (passWindow pass cycles window next s).ao.tripLatch = s.ao.tripLatch := by
  simp [passWindow]

@[simp] theorem abandonSend_latch (s : State) : (abandonSend s).ao.tripLatch = s.ao.tripLatch := rfl

@[simp] theorem transferPass_latch (ci : CommitIn) (s : State) : (transferPass ci s).1.ao.tripLatch = s.ao.tripLatch := by
  unfold transferPass
  dsimp only
  split
  · rfl
  split
  · split
    · split <;> simp
    · rfl
  · split
    · rfl
    split
    · split <;> simp
    split
    · simp
    split <;> simp
  · split
    · rfl
    split
    · rfl
    split <;> simp
  · split <;> rfl

@[simp] theorem idleWindow_latch (d : Die) (room taken : Bool) (s : State) : (idleWindow d room taken s).ao.tripLatch = s.ao.tripLatch := by
  simp [idleWindow]

@[simp] theorem commitEcc_latch (d : Die) (ci : CommitIn) (s : State) : (commitEcc d ci s).ao.tripLatch = s.ao.tripLatch := by
  have hone : ∀ (e : Ecc) (l : List (Nat × Nat)) (u : State), (l.foldl (fun u q =>
      if decide (q.1 < 16) && !(reg (dieOf u d) q.1).halted then eccEvent d q.1 q.2 e u else u) u).ao.tripLatch = u.ao.tripLatch :=
    fun e l u => foldl_latch (fun _ _ => by simp) l u
  exact (hone .uncorrectable _ _).trans (hone .corrected _ s)

@[simp] theorem commitRow_latch (d : Die) (ci : CommitIn) (s : State) : (commitRow d ci s).ao.tripLatch = s.ao.tripLatch := by
  unfold commitRow
  dsimp only
  rw [idleWindow_latch]
  generalize hy : migrationCopies d _ = y
  have hlatch : y.ao.tripLatch = s.ao.tripLatch := by simp [← hy]
  split
  · exact (transferPass_latch ci y).trans hlatch
  · exact hlatch

@[simp] theorem slicePasses_latch (d : Die) (q : SliceRun) (s : State) : (slicePasses d q s).ao.tripLatch = s.ao.tripLatch := by
  simp [slicePasses]

@[simp] theorem sliceFails_latch (d : Die) (q : SliceRun) (s : State) : (sliceFails d q s).ao.tripLatch = s.ao.tripLatch := by
  simp [sliceFails]

/-! ## Links, spools, check units (09, 10) -/

@[simp] theorem receive_latch (p : Port) (t : Tel) (s : State) : (receive p t s).1.ao.tripLatch = s.ao.tripLatch := by
  simp [receive]

@[simp] theorem noteAccepted_latch (n : Nat) (t : Tel) (s : State) : (noteAccepted n t s).ao.tripLatch = s.ao.tripLatch := by
  simp [noteAccepted]

theorem classSRow_latch {act : Nat → State → State} (h : ∀ n s, (act n s).ao.tripLatch = s.ao.tripLatch) (ty : Nat) (p : Port) (t : Tel)
    (s : State) : (classSRow ty p t act s).ao.tripLatch = s.ao.tripLatch := by
  unfold classSRow
  dsimp only
  split
  · rfl
  split <;> simp [h]

theorem classDRow_latch {act : Nat → State → State} (h : ∀ n s, (act n s).ao.tripLatch = s.ao.tripLatch) (ok : Tel → Bool) (p : Port) (t : Tel)
    (s : State) : (classDRow ok p t act s).ao.tripLatch = s.ao.tripLatch := by
  unfold classDRow
  dsimp only
  split
  · rfl
  split <;> simp [h]

@[simp] theorem heartTaken_latch (t : Tel) (n : Nat) (s : State) : (heartTaken t n s).ao.tripLatch = s.ao.tripLatch := by
  simp [heartTaken]

@[simp] theorem timeTaken_latch (t : Tel) (s : State) : (timeTaken t s).ao.tripLatch = s.ao.tripLatch := by
  simp [timeTaken]

@[simp] theorem setupTaken_latch (t : Tel) (s : State) : (setupTaken t s).ao.tripLatch = s.ao.tripLatch := by
  simp [setupTaken]

@[simp] theorem holdRegions_latch (s : State) : (holdRegions s).ao.tripLatch = s.ao.tripLatch := rfl

@[simp] theorem beginReceive_latch (s : State) : (beginReceive s).ao.tripLatch = s.ao.tripLatch := by
  simp [beginReceive]

theorem transferRow_latch {act : State → State} (h : ∀ s, (act s).ao.tripLatch = s.ao.tripLatch) (ok : BitVec 4 → Bool) (p : Port) (t : Tel)
    (s : State) : (transferRow ok p t act s).ao.tripLatch = s.ao.tripLatch :=
  classDRow_latch (fun _ u => by simp [h]) _ p t s

@[simp] theorem transferLimits_latch (s : State) : (transferLimits s).ao.tripLatch = s.ao.tripLatch := (transferLimits_frame s).latch

@[simp] theorem onSpool_latch (sp : SpoolId) (fe : Spool EventItem → Spool EventItem) (fp : Nat → Nat → Spool LinkTel → Spool LinkTel)
    (fs : Spool StageRec → Spool StageRec) (fo : Spool Token → Spool Token) (s : State) :
    (onSpool sp fe fp fs fo s).ao.tripLatch = s.ao.tripLatch := by
  cases sp <;> rfl

@[simp] theorem spoolCtrl_latch (sp : SpoolId) (w : Word) (s : State) : (spoolCtrl sp w s).ao.tripLatch = s.ao.tripLatch := onSpool_latch ..

@[simp] theorem unitWrite_latch (u : CuId) (writer : CorePair) (f : CheckUnit → CheckUnit) (s : State) :
    (unitWrite u writer f s).ao.tripLatch = s.ao.tripLatch := by
  have hunit : (onUnit u f s).ao.tripLatch = s.ao.tripLatch := by cases u <;> rfl
  simp [unitWrite, hunit]

@[simp] theorem packetWrite_latch (p : Port) (writer : CorePair) (f : Spool LinkTel → Spool LinkTel) (s : State) :
    (packetWrite p writer f s).ao.tripLatch = s.ao.tripLatch := by
  simp [packetWrite]

@[simp] theorem registerWrite_latch (q : RegWrite) (s : State) : (registerWrite q s).ao.tripLatch = s.ao.tripLatch := by
  cases q <;> simp [registerWrite]

/-! ## Inputs and outputs (07, 08) -/

@[simp] theorem takeWindow_latch (w : WindowOut) (s : State) : (takeWindow w s).ao.tripLatch = s.ao.tripLatch := by
  have hfalls : ∀ (ns : List Nat) (u : State), (postFalls ns u).ao.tripLatch = u.ao.tripLatch := fun ns u => by
    unfold postFalls
    refine latch_of_ite rfl (foldl_latch ?_ ns u)
    exact fun _ _ => rfl
  simp [takeWindow, hfalls]

@[simp] theorem setChecker_latch (half : Side) (j : Nat) (c : Checker) (s : State) : (setChecker half j c s).ao.tripLatch = s.ao.tripLatch :=
  takeWindow_latch ..

@[simp] theorem gondolaStep_latch (f : OutCx → OutSt → OutSt × List LogReq) (s : State) : (gondolaStep f s).ao.tripLatch = s.ao.tripLatch := by
  simp [gondolaStep]

@[simp] theorem takeSupply_latch (g : Nat) (q : SupplyIn) (s : State) : (takeSupply g q s).ao.tripLatch = s.ao.tripLatch := rfl

/-! ## Updates and the window (16, 17) -/

@[simp] theorem answerSlot_latch (n : Nat) (result reason : BitVec 8) (s : State) : (answerSlot n result reason s).ao.tripLatch = s.ao.tripLatch :=
  rfl

@[simp] theorem refuseUpdate_latch (n : Nat) (k : BitVec 8) (s : State) : (refuseUpdate n k s).ao.tripLatch = s.ao.tripLatch := rfl

theorem stageWith_latch {n : Nat} {s : State} {f : Carrier → State} (h : ∀ c, (f c).ao.tripLatch = s.ao.tripLatch) :
    (stageWith n s f).ao.tripLatch = s.ao.tripLatch := by
  unfold stageWith
  split
  · rfl
  split
  · rfl
  · exact h _

@[simp] theorem beginOp_latch (op : CarrierOp) (pages : List Nat) (s : State) : (beginOp op pages s).ao.tripLatch = s.ao.tripLatch := rfl

@[simp] theorem putEntry_latch (e : CommitEntry) (s : State) : (putEntry e s).ao.tripLatch = s.ao.tripLatch := by
  unfold putEntry
  split <;> rfl

@[simp] theorem confirmSlot_latch (slotB : Bool) (reason : BitVec 4) (s : State) : (confirmSlot slotB reason s).ao.tripLatch = s.ao.tripLatch := by
  unfold confirmSlot
  split <;> simp

@[simp] theorem returnPages_latch (ks : List Nat) (s : State) : (returnPages ks s).ao.tripLatch = s.ao.tripLatch := rfl

@[simp] theorem closeDone_latch (slot : Nat) (activate : Bool) (windowH : BitVec 16) (img : SlotImg) (c : Carrier) (s : State) :
    (closeDone slot activate windowH img c s).ao.tripLatch = s.ao.tripLatch := by
  cases activate <;> simp [closeDone]

@[simp] theorem writeDone_latch (slot : Nat) (ok : Bool) (s : State) : (writeDone slot ok s).ao.tripLatch = s.ao.tripLatch := by
  simp [writeDone]

@[simp] theorem portSilent_latch (n : Nat) (s : State) : (portSilent n s).ao.tripLatch = s.ao.tripLatch := rfl

@[simp] theorem portEnd_latch (cut : Bool) (s : State) : (portEnd cut s).ao.tripLatch = s.ao.tripLatch := by
  simp [portEnd]

@[simp] theorem portWrite_latch (addr : Nat) (bs : List Byte) (cut : Bool) (s : State) : (portWrite addr bs cut s).ao.tripLatch = s.ao.tripLatch := by
  unfold portWrite
  dsimp only
  refine latch_of_ite rfl ?_
  rw [portEnd_latch]
  exact (foldl_latch (fun _ _ => logOpen_latch ..) _ _).trans (latch_of_ite rfl rfl)

@[simp] theorem portRead_latch (addr n : Nat) (cut : Bool) (s : State) : (portRead addr n cut s).ao.tripLatch = s.ao.tripLatch := by
  simp [portRead]

end Sys2Proof.Machine


/-!
PROOFS. Starts, their tests and the reset sources hold the trip latch (06 R229, 13, 14): for O60.
-/

namespace Sys2Proof.Machine

/-! ## Starts, refusals, the held form (14) -/

/-- The latch is set, or the start is ready for its first boundary and has handed every retained record to the tail. -/
def LatchHeld (t : State) : Prop := t.ao.tripLatch = true ∨ (t.start = .ready ∧ t.ao.uncopied = [])

theorem LatchHeld.ite {c : Prop} [Decidable c] {a b : State} (ha : LatchHeld a) (hb : LatchHeld b) : LatchHeld (if c then a else b) := by
  split
  · exact ha
  · exact hb

@[simp] theorem freshDomains_ao (s : State) : (freshDomains s).ao = s.ao := rfl

@[simp] theorem restage_latch (s : State) : (restage s).ao.tripLatch = s.ao.tripLatch := by
  simp [restage]

@[simp] theorem holdReset_latch (k : BitVec 8) (s : State) : (holdReset k s).ao.tripLatch = s.ao.tripLatch := by
  simp [holdReset]

@[simp] theorem refuseStartAt_latch (k : BitVec 8) (u : BitVec 4) (concerned : BitVec 16) (s : State) :
    (refuseStartAt k u concerned s).ao.tripLatch = s.ao.tripLatch := by
  simp [refuseStartAt]

@[simp] theorem refuseStart_latch (k : BitVec 8) (concerned : BitVec 16) (s : State) : (refuseStart k concerned s).ao.tripLatch = s.ao.tripLatch :=
  refuseStartAt_latch ..

theorem refuseStart_held (k : BitVec 8) (concerned : BitVec 16) {s : State} (h : s.ao.tripLatch = true) : LatchHeld (refuseStart k concerned s) :=
  .inl ((refuseStart_latch k concerned s).trans h)

/-- Every start begins with the latch set (14 R408). -/
@[simp] theorem startT0_latch (si : StartIn) (s : State) : (startT0 si s).ao.tripLatch = true := by
  simp [startT0, aoT0]

@[simp] theorem zeroisePd2_latch (s : State) : (zeroisePd2 s).ao.tripLatch = s.ao.tripLatch := rfl

/-- Step 8 refuses with the latch as it was, or clears it with every record handed over and the first boundary next. -/
theorem startStep8_held (si : StartIn) {s : State} (h : s.ao.tripLatch = true) : LatchHeld (startStep8 si s) := by
  unfold startStep8
  exact .ite (refuseStart_held _ _ h) (.inr ⟨rfl, rfl⟩)

theorem startStep6_held (si : StartIn) {s : State} (h : s.ao.tripLatch = true) : LatchHeld (startStep6 si s) := by
  unfold startStep6
  refine .ite (.inl h) (.ite (refuseStart_held _ _ h) (.ite (refuseStart_held _ _ h) (.ite (refuseStart_held _ _ h) (.ite (.inl h) ?_))))
  exact startStep8_held si h

@[simp] theorem latchStraps_latch (k : Tri (BitVec 2)) (s : State) : (latchStraps k s).ao.tripLatch = s.ao.tripLatch := rfl

@[simp] theorem loadImage_latch (slotB : Bool) (img : SlotImg) (s : State) : (loadImage slotB img s).ao.tripLatch = s.ao.tripLatch := by
  simp [loadImage]

theorem startStep5_held (si : StartIn) (slotB : Bool) (c : Carrier) {s : State} (h : s.ao.tripLatch = true) :
    LatchHeld (startStep5 si slotB c s) := by
  unfold startStep5
  refine .ite (refuseStart_held _ _ h) (.ite (startStep6_held si ((loadImage_latch ..).trans h)) (.ite ?_ ?_))
  · exact .inl (startT0_latch si _)
  · exact refuseStart_held _ _ h

/-- Step 4 once the slot that starts is chosen: what its image fails of, and step 5 where it fails nothing. -/
def startChosen (si : StartIn) (slotB probation : Bool) (c : Carrier) (s u : State) : State :=
  let img := slotOf c slotB
  match slotFails s.recordKey s.versions (stationNo s) slotB img with
  | some .carrier => refuseStart scCARRIER 2 u
  | some .manifest => refuseStart scSIGNATURE 0 u
  | some .version => refuseStart scSIGNATURE 1 u
  | none =>
    let v := onWin (fun w => { w with alive := true }) u
    let w := setOverlays { v.overlays with probation := probation } v
    if !img.data.recordsOk then refuseStart scCARRIER 3 w
    else if img.data.number = 0 || img.data.number ≠ stationNo s then refuseStart scSTATIONNUMBER (img.data.number.setWidth 16) w
    else startStep5 si slotB (u.carrier.getD c) w

theorem startChosen_held (si : StartIn) (slotB probation : Bool) (c : Carrier) (s : State) {u : State} (h : u.ao.tripLatch = true) :
    LatchHeld (startChosen si slotB probation c s u) := by
  unfold startChosen
  dsimp only
  split
  · exact refuseStart_held _ _ h
  · exact refuseStart_held _ _ h
  · exact refuseStart_held _ _ h
  · generalize hw : setOverlays _ _ = w
    have hlatch : w.ao.tripLatch = true := by simp [← hw, h]
    exact .ite (refuseStart_held _ _ hlatch) (.ite (refuseStart_held _ _ hlatch) (startStep5_held si _ _ hlatch))

theorem startStep4_held (si : StartIn) {s : State} (h : s.ao.tripLatch = true) : LatchHeld (startStep4 si s) := by
  unfold startStep4
  split
  · exact refuseStart_held _ _ h
  · dsimp only
    refine .ite (refuseStart_held _ _ h) (.ite (.inl h) (startChosen_held si _ _ _ s ?_))
    split <;> simp [h]

theorem startStep3_held (si : StartIn) {s : State} (h : s.ao.tripLatch = true) : LatchHeld (startStep3 si s) := by
  unfold startStep3
  dsimp only
  split
  · exact refuseStart_held _ _ h
  · exact startStep4_held si h

/-- A start ends with the latch held, in whatever state it finds it. -/
theorem beginStart_held (full : Bool) (si : StartIn) (s : State) : LatchHeld (beginStart full si s) := by
  unfold beginStart
  exact .ite (.inl (startT0_latch si s)) (startStep3_held si (startT0_latch si s))

/-! ## Tests of the start and of the shutdown -/

theorem unitDone_held (u : BistUnit) (pass : Bool) (left : List BistUnit) {s : State} (h : s.ao.tripLatch = true) :
    LatchHeld (unitDone u pass left s) := by
  unfold unitDone
  refine .ite (.inl h) (.ite (.inl ((refuseStartAt_latch ..).trans h)) (.ite ?_ (.inl h)))
  split
  · exact startStep8_held _ h
  · exact .inl h

@[simp] theorem shutUnit_latch (u : BistUnit) (pass : Bool) (s : State) : (shutUnit u pass s).ao.tripLatch = s.ao.tripLatch := by
  unfold shutUnit
  split
  · simp
  · rfl

theorem bistComplete_held (u : BistUnit) (a b : Bool) {s t : State} (ht : execBistComplete u a b s = .next t) (h : s.ao.tripLatch = true) :
    LatchHeld t := by
  obtain rfl := Host.Outcome.next.inj ht
  split
  · refine .ite (.inl h) (.ite (.inl h) ?_)
    split
    · exact startStep3_held _ h
    · exact .inl h
  · exact unitDone_held u _ _ h
  · exact .inl ((shutUnit_latch u _ s).trans h)

/-! ## The supply and the reset sources (13) -/

theorem enterDormant_latch (s : State) : (enterDormant s).ao.tripLatch = s.ao.tripLatch := rfl

theorem logDormant_latch (s : State) : (logDormant s).ao.tripLatch = s.ao.tripLatch := rfl

@[simp] theorem noteReset_latch (source cls : BitVec 4) (duration : BitVec 16) (since : Nat) (s : State) :
    (noteReset source cls duration since s).ao.tripLatch = s.ao.tripLatch := rfl

@[simp] theorem putResetIn_latch (q : ResetSrc) (r : ResetIn) (a : AoSt) : (putResetIn q r a).tripLatch = a.tripLatch := by
  cases q <;> rfl

@[simp] theorem freeSource_latch (q : ResetSrc) (a : AoSt) : (freeSource q a).tripLatch = a.tripLatch := by
  have hstuck : (restateStuck q a).tripLatch = a.tripLatch := by
    unfold restateStuck
    dsimp only
    split <;> rfl
  simp [freeSource, hstuck]

theorem restartRequest_held (si : StartIn) {s : State} (h : s.ao.tripLatch = true) : LatchHeld (restartRequest si s) := by
  unfold restartRequest
  split
  · exact .inl h
  · exact .inl h
  · exact beginStart_held true si s
  · exact beginStart_held true si s
  · exact beginStart_held false si s
  · exact .inl h

theorem shutdownRequest_held (si : StartIn) {s : State} (h : s.ao.tripLatch = true) : LatchHeld (shutdownRequest si s) := by
  unfold shutdownRequest
  split
  · exact .inl h
  · exact .inl h
  · exact .inl h
  · exact beginStart_held true si s
  · exact beginStart_held false si s
  · exact .inl h

theorem holdSource_latched (q : ResetSrc) (ci : CauseIn) {s : State} (h : s.ao.tripLatch = true) : (holdSource q ci s).ao.tripLatch = true := by
  unfold holdSource
  rw [holdReset_latch, enterSafe_latch]
  exact tripBy_latched ci _ _ _ _ (by simp [h])

theorem supplyLost_latched (ci : CauseIn) {s : State} (h : s.ao.tripLatch = true) :
    (enterDormant (closeRecorder (logDormant (tripBy ci .logicSupply 0 0 0 s)))).ao.tripLatch = true := by
  rw [enterDormant_latch, closeRecorder_latch, logDormant_latch]
  exact tripBy_latched ci _ _ _ _ h

theorem autoRestart_held (si : StartIn) (hottest : Nat) {s t : State} (ht : execAutoRestart si hottest s = .next t) (h : s.ao.tripLatch = true) :
    LatchHeld t := by
  obtain rfl := Host.Outcome.next.inj ht
  split
  · exact .inl h
  · refine .ite (.inl h) (.ite (.inl ?_) (beginStart_held true si _))
    exact (readPermit_latch _ _).trans h

theorem resetReleased_held (q : ResetSrc) (si : StartIn) {s t : State} (ht : execResetReleased q si s = .next t) (h : s.ao.tripLatch = true) :
    LatchHeld t := by
  obtain ⟨u, hu⟩ : ∃ u, u = if s.mode ≠ .dormant && heldOver s.ao q then holdSource q causeNow s else s := ⟨_, rfl⟩
  have hlatch : u.ao.tripLatch = true := hu ▸ latch_of_ite (holdSource_latched q causeNow h) h
  have hfree : (onAo (freeSource q) u).ao.tripLatch = true := (freeSource_latch q u.ao).trans hlatch
  unfold execResetReleased at ht
  rw [← hu] at ht
  obtain rfl := Host.Outcome.next.inj ht
  refine .ite (.inl hlatch) (.ite (.ite (.inl hfree) (beginStart_held true si _)) (.ite ?_ (.inl hfree)))
  exact restartRequest_held si hfree

theorem shdnAsserted_held (si : StartIn) {s t : State} (ht : execShdnAsserted si s = .next t) (h : s.ao.tripLatch = true) : LatchHeld t := by
  obtain rfl := Host.Outcome.next.inj ht
  exact .ite (.inl h) (.ite (shutdownRequest_held si h) (.inl h))

theorem shutdownBistComplete_held (tests : TestIn) (bridleOk : Bool) (si : StartIn) {s t : State}
    (ht : execShutdownBistComplete tests bridleOk si s = .next t) (h : s.ao.tripLatch = true) : LatchHeld t := by
  obtain rfl := Host.Outcome.next.inj ht
  split
  · refine .ite (.inl h) (.ite (beginStart_held false si _) (.inl ?_))
    have hrecord : ∀ last, (writeRecord last s).ao.tripLatch = true := fun _ => h
    simp [parkModule, hrecord, h]
  · exact .inl h

end Sys2Proof.Machine


/-!
PROOFS. Only the start sequence clears the trip latch (06 R229): O60.
-/

namespace Sys2Proof.Machine

/-! ## Every row -/

theorem held_of_latch {s t u : State} (ht : (.next u : Host.Outcome State Fault Refusal) = .next t) (h : s.ao.tripLatch = true)
    (hu : u.ao.tripLatch = s.ao.tripLatch) : LatchHeld t :=
  .inl (Host.Outcome.next.inj ht ▸ hu.trans h)

theorem held_of_latched {t u : State} (ht : (.next u : Host.Outcome State Fault Refusal) = .next t) (hu : u.ao.tripLatch = true) : LatchHeld t :=
  .inl (Host.Outcome.next.inj ht ▸ hu)

theorem held_of_held {t u : State} (ht : (.next u : Host.Outcome State Fault Refusal) = .next t) (hu : LatchHeld u) : LatchHeld t :=
  Host.Outcome.next.inj ht ▸ hu

@[simp] theorem ruleStore_latch (d : Die) (r rd ra : Nat) (imm : BitVec 18) (n : Nat) (s : State) :
    (ruleStore d r rd ra imm n s).ao.tripLatch = s.ao.tripLatch :=
  runRule_latch ..

theorem illegalRow_latch (d : Die) (r : Nat) (w : Word) (s : State) :
    (atPc d r w (fun s => if illegalWord w then runRule d r 0 knPLAIN (fun _ _ => .trap cILLEGAL) s else s) s).ao.tripLatch = s.ao.tripLatch :=
  atPc_latch (f := fun s => if illegalWord w then runRule d r 0 knPLAIN (fun _ _ => .trap cILLEGAL) s else s) (by simp) d r w

@[simp] theorem pushCover_latch (a : AoSt) : (pushCover a).tripLatch = a.tripLatch := by
  simp [pushCover, noteHist]

@[simp] theorem expireForce_latch (s : State) (f : ForceEntry) : (expireForce s f).ao.tripLatch = s.ao.tripLatch := setForces_latch ..

theorem excludeAll_latch (d : Die) (c : ExclCause) (l : List Nat) (s : State) :
    (l.foldl (fun u r => excludeCopy d r c u) s).ao.tripLatch = s.ao.tripLatch :=
  foldl_latch (fun u r => excludeCopy_latch d r c u) l s

theorem timerExpired_held {d : Die} {n k : Nat} {s t : State} (ht : execTimerExpired d n k s = .next t) (h : s.ao.tripLatch = true) :
    LatchHeld t := by
  unfold execTimerExpired at ht
  split at ht
  · exact held_of_latch ht h (by simp)
  · exact held_of_latch ht h rfl

theorem sliceComplete_held {d : Die} {a b : Bool} {s t : State} (ht : execSliceComplete d a b s = .next t) (h : s.ao.tripLatch = true) :
    LatchHeld t := by
  refine held_of_latch ht h ?_
  split
  · rfl
  · simp

theorem rejoinPassComplete_held {d : Die} {r : Nat} {room : Bool} {s t : State} (ht : execRejoinPassComplete d r room s = .next t)
    (h : s.ao.tripLatch = true) : LatchHeld t := by
  refine held_of_latch ht h ?_
  split
  · simp
  · rfl

theorem loadComplete_held {bankOk : Bool} {s t : State} (ht : execLoadComplete bankOk s = .next t) (h : s.ao.tripLatch = true) : LatchHeld t :=
  held_of_latch ht h (latch_of_ite rfl (latch_of_ite (abortChange_latch _ s) (latch_of_ite (abortChange_latch _ s) rfl)))

theorem carrierRemoved_held {s t : State} (ht : execCarrierRemoved s = .next t) (h : s.ao.tripLatch = true) : LatchHeld t := by
  refine held_of_latch ht h (latch_of_ite rfl (latch_of_ite rfl ?_))
  split <;> simp

theorem signatureCheckDone_held {n : Nat} {s t : State} (ht : execSignatureCheckDone n s = .next t) (h : s.ao.tripLatch = true) :
    LatchHeld t :=
  held_of_latch ht h (latch_of_ite rfl (latch_of_ite rfl rfl))

theorem tailRecordWritten_held {s t : State} (ht : execTailRecordWritten s = .next t) (h : s.ao.tripLatch = true) : LatchHeld t := by
  refine held_of_latch ht h (latch_of_ite rfl ?_)
  split
  · rfl
  · split <;> rfl

theorem carrierWriteComplete_held {done : CarrierDone} {s t : State} (ht : execCarrierWriteComplete done s = .next t)
    (h : s.ao.tripLatch = true) : LatchHeld t := by
  have hnext : (if s.update.switchDue then { beginOp .switched [] s with update := { s.update with op := .switched, pages := [], switchDue := false } }
      else beginOp .none [] s).ao.tripLatch = s.ao.tripLatch := latch_of_ite rfl rfl
  unfold execCarrierWriteComplete at ht
  generalize (if s.update.switchDue then _ else _) = u at *
  refine held_of_latch ht h ?_
  split
  · rfl
  split <;> simp [hnext]

theorem stageUpdateOpen_held {n : Nat} {s t : State} (ht : execStageUpdateOpen n s = .next t) (h : s.ao.tripLatch = true) : LatchHeld t :=
  held_of_latch ht h (latch_of_ite rfl (stageWith_latch fun _ => by simp))

theorem stageUpdateWrite_held {n : Nat} {s t : State} (ht : execStageUpdateWrite n s = .next t) (h : s.ao.tripLatch = true) : LatchHeld t :=
  held_of_latch ht h (latch_of_ite rfl (stageWith_latch fun _ => latch_of_ite rfl rfl))

theorem stageUpdateClose_held {n : Nat} {s t : State} (ht : execStageUpdateClose n s = .next t) (h : s.ao.tripLatch = true) : LatchHeld t :=
  held_of_latch ht h (latch_of_ite rfl (stageWith_latch fun _ => latch_of_ite rfl rfl))

/-- No row clears the latch but one that ends a start, and then the records have been handed over. -/
theorem exec_held {i : Instr} {s t : State} (ht : exec i s = .next t) (h : s.ao.tripLatch = true) : LatchHeld t := by
  cases i with
  -- rule code
  | ldw | ldh | ldb => exact held_of_latch ht h (atPc_latch (ruleLoad_latch ..) ..)
  | drop => exact held_of_latch ht h (atPc_latch (ruleDrop_latch ..) ..)
  | illegal => exact held_of_latch ht h (illegalRow_latch ..)
  | stw | sth | stb => exact held_of_latch ht h (atPc_latch (ruleStore_latch ..) ..)
  | lui | addi | andi | ori | xori | andr | orr | xorr | andn | add | sub | shl | shr | sar | ceq | clt | cltu | ceqi | cltui
  | bz | bnz | beq | bne | jal | jr | crd | cwr | cfc | ird | owr | tst | tsp | ewait | dacc =>
    exact held_of_latch ht h (atPc_latch (runRule_latch ..) ..)
  -- trips, and what may find one
  | pumpFault | overtemp => exact held_of_latched ht (tripBy_latched _ _ _ _ _ h)
  | railFault | aoWatchdog => exact held_of_latched ht (latch_of_ite (tripBy_latched _ _ _ _ _ h) h)
  | noLoop => exact held_of_latched ht (latch_of_ite h (tripBy_latched _ _ _ _ _ h))
  | commitBlockArrival => exact held_of_latched ht (latch_of_ite h (voteIfDue_latched _ h))
  | deadline => exact held_of_latched ht (latch_of_ite h (foldl_voteIfDue_latched _ h))
  | cycleBoundary bi => exact .inl (cycleBoundary_latched bi ht h)
  | logicSupplyLost ci => exact held_of_latched ht (latch_of_ite h (supplyLost_latched ci h))
  | resetHeld => exact held_of_latched ht (latch_of_ite h (holdSource_latched _ _ h))
  -- starts
  | logicSupplyQualified => exact held_of_held ht (.ite (beginStart_held ..) (.inl h))
  | bistComplete => exact bistComplete_held _ _ _ ht h
  | autoRestart => exact autoRestart_held _ _ ht h
  | resetReleased => exact resetReleased_held _ _ ht h
  | resetSourcesFreed => exact held_of_held ht (.ite (beginStart_held ..) (.inl h))
  | shdnAsserted => exact shdnAsserted_held _ ht h
  | shdnReleased => exact held_of_held ht (.ite (.inl h) (.ite (beginStart_held ..) (.inl h)))
  | shutdownBistComplete => exact shutdownBistComplete_held _ _ _ ht h
  -- dies and fabric
  | routeSet | routeCancel | pointCall | block | unblock | signalReplace | emergRelease | emergReleaseConfirm | sectionRestore
  | sectionRestoreConfirm | forceSet | forceClear | onlineChange | handover | terrProbe | terrCommit | terrEntered | terrRelease | terrCancel
  | terrProbed | terrNack | terrHeld | terrReleased | terrOpUndefined => exact held_of_latch ht h (todoRow_latch ..)
  | probe | hold | nack | commitToken | lockedAck | flankSeek | flankFound | flankNone | releaseToken | cancel =>
    exact held_of_latch ht h (tokenRow_latch ..)
  | cycleStartMessage | wakeLate | rulesIn | propagate | waveEnd | waveCut | rulesOut | revertOverrun | rulesOverrun | realClockHalt
  | pairMismatch | checkerFault | inputEvent | tokenTypeInvalid | terrAbsent | remoteTimeout | pendingExpiry | sample | telegramAgeExpired
  | commit | pumpEdgeTimeout | dropRequest | pmcOverflow | pmcCycLoRead => exact held_of_latch ht h (by simp)
  | cycleStartAck => exact held_of_latch ht h (latch_of_ite rfl (latch_of_ite rfl (excludeAll_latch ..)))
  | channelDomainOff => exact held_of_latch ht h (latch_of_ite (foldl_latch (fun u d => takeDieLogs_latch d u) _ s) rfl)
  | timerExpired => exact timerExpired_held ht h
  | sliceComplete => exact sliceComplete_held ht h
  | rejoinPassComplete => exact rejoinPassComplete_held ht h
  | rejoinLimit => exact held_of_latch ht h (by split <;> simp)
  | loadComplete => exact loadComplete_held ht h
  -- inputs and outputs
  | inputWindowEnd | readbackWindowEnd | hsDarkStep | lsDarkStep | lightStep | overload | lockClear | groupLow | lowCleared
  | groupCut | groupRestored | gondolaHalfStopped | supplySag | inputFaultClear => exact held_of_latch ht h (by simp)
  | discrepancyLatched | discrepancyCleared => exact held_of_latch ht h (by split <;> simp)
  -- links, tether, claims
  | appTelegram | cellsTelegram | terrTelegram | fieldTelegram => exact held_of_latch ht h (classSRow_latch (by exact fun _ _ => rfl) ..)
  | idleTelegram => exact held_of_latch ht h (classSRow_latch (by exact fun _ _ => latch_of_ite rfl rfl) ..)
  | heartTelegram => exact held_of_latch ht h (classSRow_latch (heartTaken_latch _) ..)
  | timeTelegram => exact held_of_latch ht h (classDRow_latch (fun _ => timeTaken_latch _) ..)
  | diagTelegram => exact held_of_latch ht h (classDRow_latch (by exact fun _ u => latch_of_ite (setupTaken_latch _ u) rfl) ..)
  | pmcSetup => exact held_of_latch ht h (classDRow_latch (fun _ => setupTaken_latch _) ..)
  | telegramTypeUndefined | transferKindInvalid => exact held_of_latch ht h (classDRow_latch (by exact fun _ _ => rfl) ..)
  | transferBlock => exact held_of_latch ht h (transferRow_latch (by exact fun _ => latch_of_ite rfl rfl) ..)
  | transferRoutes | transferModule | transferEnd => exact held_of_latch ht h (transferRow_latch (by exact fun _ => rfl) ..)
  | transferLimit | transferRetry => exact held_of_latch ht h (by split <;> simp)
  | frameTransmitted => exact held_of_latch ht h (latch_of_ite rfl (by split <;> rfl))
  | frameNotAfno | arpRequest | arpRefresh | portUp | portDown | linkLost | linkUp | netDown | cycleApartRecord | stalledWriteAccepted | spoolMark
  | spoolRewind | spoolRelease | spoolAbort | checkRestart | checkData | checkData8 | checkExpect | checkExpectHi | registerWrite =>
    exact held_of_latch ht h (by simp)
  | arpReply => exact held_of_latch ht h (latch_of_ite (foldl_latch (by exact fun _ _ => rfl) _ s) rfl)
  | claimInStatic | claimInLive | claimOutFault | negotiationTimeout | takeover => exact held_of_latch ht h (by simp)
  | claimLine => exact held_of_latch ht h (latch_of_ite (recordClaimLine_frame s).latch rfl)
  | yieldRefused => exact held_of_latch ht h (yieldRefused_frame s).latch
  | prefConflictRecord => exact held_of_latch ht h (latch_of_ite (prefConflict_frame s).latch rfl)
  -- reset sources, cover, carrier, window, recorder
  | resetAsserted | resetStuck | coverOpen | coverClosed | sealRead | carrierInserted | forceExpiry => exact held_of_latch ht h (by simp)
  | carrierRemoved => exact carrierRemoved_held ht h
  | write | qwrite | read | qread | status | ident | portCommandInvalid | portTransferTimeout | winIrqRead | requestPoll | requestCmdUndefined
  | stagingPageTimeout | recorderPageRequest | clearRecorder | confirmUpdate | tailBlockErased | suppressedSummary =>
    exact held_of_latch ht h (by simp)
  | rtcWriteback => exact held_of_latch ht h (rtcDue_frame s).latch
  | signatureCheckDone => exact signatureCheckDone_held ht h
  | tailRecordWritten => exact tailRecordWritten_held ht h
  | carrierWriteComplete => exact carrierWriteComplete_held ht h
  | stageUpdateOpen => exact stageUpdateOpen_held ht h
  | stageUpdateWrite => exact stageUpdateWrite_held ht h
  | stageUpdateClose => exact stageUpdateClose_held ht h

theorem tick_latch (s : State) : (tick s).ao.tripLatch = s.ao.tripLatch := by
  simp [tick, aoTick, aoTickDormant]

/-- Settles O60: no row clears a set latch but one whose start ends with step 8 (`exec_held`, `startStep8_held`), and time clears none
(`tick_latch`). -/
theorem tripLatchClearedOnlyByStart : Obligations.TripLatchClearedOnlyByStart := by
  intro s t h ht
  unfold step at ht
  split at ht
  · exact exec_held ht h
  · obtain rfl := Host.Outcome.next.inj ht
    exact .inl ((tick_latch s).trans h)

end Sys2Proof.Machine


/-!
PROOFS. A trip is recorded, and the trip causes of the hardware (06 R225 to R228, R230): O27.
-/

namespace Sys2Proof.Machine

/-! ## The record of a trip (06 R230, Table 6.8) -/

theorem getLast?_lastN {α : Type} {n : Nat} (hn : n ≠ 0) (l : List α) (a : α) : (lastN n (l ++ [a])).getLast? = some a := by
  have hdrop : (l ++ [a]).length - n < (l ++ [a]).length := by
    have := List.length_append (as := l) (bs := [a])
    simp only [List.length_singleton] at this
    omega
  rw [lastN, List.getLast?_drop, if_neg (by omega), List.getLast?_concat]

/-- The newest record of the history is the one that was added (06 R230). -/
theorem pushTrip_newest (running : Bool) (t : TripRec) (a : AoSt) : (pushTrip running t a).tripHist.getLast? = some t :=
  getLast?_lastN (by decide) a.tripHist t

theorem enterSafe_tripHist (s : State) : (enterSafe s).ao.tripHist = s.ao.tripHist := by
  have hstop : ∀ u, (stopCycles u).ao.tripHist = u.ao.tripHist := by
    intro u
    unfold stopCycles
    rw [abortChange_eq]
    rfl
  unfold enterSafe
  rw [setMode_ao]
  exact hstop _

/-- Where the cause is LOGIC_SUPPLY it arises in a running module, and so finds gate drive (06 R230). -/
def FindsDrive (c : Cause) (s : State) : Prop := c = .logicSupply → s.mode = .active ∨ s.mode = .standby

/-- A cause that fires in a module whose latch is clear trips it, leaves the voter as it is, and is the newest record. -/
theorem tripBy_recorded {q : CauseIn} {c : Cause} {s : State} (region : Nat) (detail : BitVec 8) (avail : BitVec 4) (hq : q.line ≠ 2)
    (hc : FindsDrive c s) (hm : s.mode ≠ .dormant) (hl : s.ao.tripLatch = false) :
    TrippedSafe (tripBy q c region detail avail s) ∧ TripRecorded c detail s (tripBy q c region detail avail s) := by
  have hj : joinsTrip q s = false := by simp [joinsTrip, hl]
  have hdrive : (decide (c = .logicSupply) && (decide (s.mode = .safe) || decide (s.mode = .shutdown) ||
      (decide (s.mode = .wake) && !s.ao.pumpRan))) = false := by
    by_cases h : c = .logicSupply
    · rcases hc h with h | h <;> simp [h]
    · simp [h]
  unfold tripBy
  simp only [hj, hq, hm, hdrive, hl, decide_false, Bool.or_self, Bool.false_and, Bool.false_eq_true, if_false]
  generalize hs1 : removeDrive _ = s1
  have hlatch : s1.ao.tripLatch = true := by rw [← hs1]; rfl
  have hpump : s1.ao.pumpRun = false := by rw [← hs1]; rfl
  have hclamp : s1.clampOpen = [] := by rw [← hs1]; rfl
  have hnew : s1.ao.tripHist.getLast? = some (tripRecord s 1 c region detail avail) := by
    rw [← hs1]
    exact pushTrip_newest s.tail.running _ (fireLine c q.line s.ao)
  obtain ⟨hmode, hclaim, hwd, hlatch', -⟩ := enterSafe_claim s1
  obtain ⟨hpump', hclamp', -⟩ := enterSafe_keeps s1
  have hphase := enterSafe_phase s1
  have hnew' := enterSafe_tripHist s1
  rw [hlatch] at hlatch'
  rw [hpump] at hpump'
  rw [hclamp] at hclamp'
  rw [← hnew'] at hnew
  generalize enterSafe s1 = u at *
  exact ⟨⟨hmode, hlatch', hpump', hclamp', hclaim, hwd, pumpFed_tripped hlatch', hphase⟩, _, hnew, rfl, rfl, rfl, rfl, rfl⟩

/-! ## The rows of the hardware's causes (06 Table 6.7) -/

/-- A line that reads healthy fires nothing (06 R225). -/
theorem tripBy_healthy {q : CauseIn} (c : Cause) (region : Nat) (detail : BitVec 8) (avail : BitVec 4) (s : State) (hq : q.line = 2) :
    tripBy q c region detail avail s = s := by
  simp [tripBy, hq]

theorem RunsClear.not_dormant {s : State} (h : RunsClear s) : s.mode ≠ .dormant := by
  rcases h.1 with h | h <;> simp [h]

/-- A hardware cause in a module that runs with its latch clear. -/
theorem RunsClear.tripBy {s : State} (h : RunsClear s) {q : CauseIn} (hq : q.line ≠ 2) (c : Cause) (detail : BitVec 8) :
    TrippedSafe (tripBy q c 0 detail 0 s) ∧ TripRecorded c detail s (tripBy q c 0 detail 0 s) :=
  tripBy_recorded 0 detail 0 hq (fun _ => h.1) h.not_dormant h.2

/-- Each power domain of a running module is on (13 Table 13.8). -/
theorem RunsClear.domainOn {s : State} (h : RunsClear s) {n : Nat} (hn : n < 12) : domainOn s n = true := by
  unfold Machine.domainOn
  rcases h.1 with h | h <;> simp [h, Nat.not_le.mpr hn]

theorem domainOn_beyond (s : State) {n : Nat} (hn : 12 ≤ n) : domainOn s n = false := by
  simp [domainOn, hn, Nat.ne_of_gt (Nat.lt_of_lt_of_le (by decide : 0 < 12) hn)]

theorem exec_railFault (q : CauseIn) (n : Nat) (s : State) :
    exec (.railFault q n) s = .next (if domainOn s n then tripBy q .logicSupply 0 0 0 s else s) := rfl

theorem exec_aoWatchdog (q : CauseIn) (s : State) :
    exec (.aoWatchdog q) s = .next (if q.line ≠ 1 || wdExpired s then tripBy q .aoWatchdog 0 0 0 s else s) := rfl

theorem exec_noLoop (q : CauseIn) (o : Nat) (s : State) :
    exec (.noLoop q o) s = .next (if (outCell s.outs o).latchH && (outCell s.outs o).latchL && decide (q.line = 1) then s
      else tripBy q .noLoop 0 (BitVec.ofNat 8 o) 0 s) := rfl

/-- Settles O27: each row ends in `tripBy`, which trips a running module on a line that is not healthy and does nothing on a healthy one; the
watchdog, a rail and NO_LOOP have a test of their own before it. -/
theorem hardwareCausesTripToSafe : Obligations.HardwareCausesTripToSafe := by
  intro s ci detail n o
  dsimp only
  refine ⟨fun hrun hline => ?_, fun hn => ?_, fun hwd hline => ?_, fun hh hl hline => ?_, fun hline => ?_⟩
  · have htrip := hrun.tripBy hline
    refine ⟨⟨_, rfl, htrip .pumpFault detail⟩, ⟨_, rfl, htrip .overtemp detail⟩, fun hn => ?_, fun hwd => ?_, fun hlatch => ?_⟩
    · exact ⟨_, (exec_railFault ci n s).trans (congrArg _ (if_pos (hrun.domainOn hn))), htrip .logicSupply 0⟩
    · have htest : (ci.line ≠ 1 || wdExpired s) = true := by
        simpa using hwd.symm
      exact ⟨_, (exec_aoWatchdog ci s).trans (congrArg _ (if_pos htest)), htrip .aoWatchdog 0⟩
    · have htest : ¬ ((outCell s.outs o).latchH && (outCell s.outs o).latchL && decide (ci.line = 1)) = true := by
        simp only [Bool.and_eq_true, decide_eq_true_eq]
        rintro ⟨⟨hh, hl⟩, hline1⟩
        rcases hlatch with h | h | h
        · simp [hh] at h
        · simp [hl] at h
        · exact h hline1
      exact ⟨_, (exec_noLoop ci o s).trans (congrArg _ (if_neg htest)), htrip .noLoop _⟩
  · exact ⟨_, (exec_railFault ci n s).trans (congrArg _ (if_neg (by simp [domainOn_beyond s hn]))), rfl⟩
  · exact ⟨_, (exec_aoWatchdog ci s).trans (congrArg _ (if_neg (by simp [hwd, hline]))), rfl⟩
  · exact ⟨_, (exec_noLoop ci o s).trans (congrArg _ (if_pos (by simp [hh, hl, hline]))), rfl⟩
  · have hsame := fun (c : Cause) (k : BitVec 8) => tripBy_healthy c 0 k 0 s hline
    refine ⟨⟨_, rfl, hsame _ _⟩, ⟨_, rfl, hsame _ _⟩, ⟨_, exec_railFault ci n s, ?_⟩, ⟨_, exec_aoWatchdog ci s, ?_⟩,
      ⟨_, exec_noLoop ci o s, ?_⟩⟩
    all_goals rw [hsame, ite_self]

end Sys2Proof.Machine


/-!
PROOFS. Causes that set no latch, pump edges and the channel domains after a trip (06 R223, R226, R230, 13 R398): O28.
-/

namespace Sys2Proof.Machine

/-! ## Causes that set no latch (06 R226, R230) -/

/-- Within 10 µs of a trip a cause joins SECONDARY of its record. -/
theorem tripBy_joins {q : CauseIn} {c : Cause} {s : State} (region : Nat) (detail : BitVec 8) (avail : BitVec 4) (hq : q.line ≠ 2)
    (hj : joinsTrip q s = true) (hm : s.mode ≠ .dormant) {t : TripRec} (ht : s.ao.tripHist.getLast? = some t) :
    tripBy q c region detail avail s = onAo (fun a => { fireLine c q.line a with
      tripHist := s.ao.tripHist.dropLast ++ [{ t with secondary := setBitOf t.secondary (causeBit c) true }] }) s := by
  unfold tripBy
  simp only [hj, hq, hm, decide_false, Bool.or_self, Bool.false_eq_true, if_false, if_true]
  simp only [onAo, ht]

/-- A LOGIC_SUPPLY cause that finds no gate drive writes its record alone. -/
theorem tripBy_powerLoss {q : CauseIn} {s : State} (region : Nat) (detail : BitVec 8) (avail : BitVec 4) (hq : q.line ≠ 2)
    (hj : joinsTrip q s = false) (hm : s.mode = .safe ∨ s.mode = .shutdown) :
    let t := tripRecord s 2 .logicSupply region detail avail
    tripBy q .logicSupply region detail avail s = logTrip t (onAo (pushTrip s.tail.running t) s) := by
  unfold tripBy
  have hmodes : (decide (s.mode = .safe) || decide (s.mode = .shutdown)) = true := by
    rcases hm with hm | hm <;> simp [hm]
  have hd : s.mode ≠ .dormant := by
    rcases hm with hm | hm <;> simp [hm]
  simp only [hj, hq, hd, hmodes, decide_false, decide_true, Bool.or_self, Bool.true_or, Bool.and_self, Bool.false_eq_true, if_false, if_true]

/-- With the latch set a later cause changes its line alone. -/
theorem tripBy_later {q : CauseIn} {c : Cause} {s : State} (region : Nat) (detail : BitVec 8) (avail : BitVec 4) (hq : q.line ≠ 2)
    (hj : joinsTrip q s = false) (hm : s.mode ≠ .dormant) (hw : s.mode ≠ .wake) (hl : s.ao.tripLatch = true) (hc : c ≠ .logicSupply) :
    tripBy q c region detail avail s = onAo (fireLine c q.line) s := by
  simp only [tripBy, hj, hq, hm, hw, hl, hc, decide_false, ne_eq, not_false_eq_true, decide_true, Bool.or_self, Bool.false_and, Bool.and_self,
    Bool.false_eq_true, if_false, if_true]

theorem joinsTrip_latched {q : CauseIn} {s : State} (h : joinsTrip q s = true) : s.ao.tripLatch = true := by
  simp only [joinsTrip, Bool.and_eq_true] at h
  exact h.1.1.1.1

/-- The always-on domain is on outside a held reset, in SAFE and in SHUTDOWN (13 Table 13.8). -/
theorem domainOn_bridle {s : State} (h : (s.mode = .safe ∧ s.heldForm = false) ∨ s.mode = .shutdown) : domainOn s 1 = true := by
  rcases h with ⟨hm, hf⟩ | hm <;> simp [domainOn, *]

/-! ## Gate clamps (06 R223) -/

/-- A map built by one entry for each of a list holds that entry at each key that is its own. -/
theorem getA_foldl_putA {V κ : Type} [DecidableEq V] (d : V) (key : κ → Nat) (val : κ → V) {x : κ} {l : List κ} (hx : x ∈ l)
    (hinj : ∀ y ∈ l, key y = key x → y = x) (m : Assoc V) :
    getA d (l.foldl (fun m y => putA d (key y) (val y) m) m) (key x) = val x := by
  induction l using List.reverseRecOn with
  | nil => cases hx
  | append_singleton l y ih =>
    rw [List.foldl_append, List.foldl_cons, List.foldl_nil, getA_putA]
    split
    · rename_i hk
      rw [hinj y (by simp) hk]
    · rename_i hk
      have hxl : x ∈ l := by
        rcases List.mem_append.mp hx with h | h
        · exact h
        · exact absurd (congrArg key (List.mem_singleton.mp h).symm) hk
      exact ih hxl fun z hz => hinj z (List.mem_append_left _ hz)

/-- Every switch of the module. -/
theorem mem_switches {p : Nat} (hp : p < 96) (q : Bool) : (p, q) ∈ (numsFrom 0 96).flatMap (fun o => [(o, true), (o, false)]) := by
  refine List.mem_flatMap.mpr ⟨p, mem_numsFrom.mpr ⟨Nat.zero_le p, by omega⟩, ?_⟩
  cases q <;> simp

/-- A clamp lets its gate go exactly where the pump of its switch is fed and has lost no edge. -/
theorem clampOpen_refreshClamps_eq (s : State) {p : Nat} (hp : p < 96) (q : Bool) :
    getA false (refreshClamps s).clampOpen (switchNo p q) = (pumpFed s p q && !getA false s.edgeLost (switchNo p q)) := by
  have hsw := mem_switches hp q
  unfold refreshClamps
  dsimp only
  generalize (numsFrom 0 96).flatMap _ = sw at hsw ⊢
  have hread := fun val => getA_foldl_putA false (fun y : Nat × Bool => switchNo y.1 y.2) val hsw
    (fun _ _ h => Prod.ext_iff.mpr (switchNo_inj h)) []
  rw [hread, hread]
  cases pumpFed s p q <;> simp

theorem refreshClamps_frame (s : State) :
    refreshClamps s = { s with clampOpen := (refreshClamps s).clampOpen, edgeLost := (refreshClamps s).edgeLost } := by
  unfold refreshClamps
  rfl

/-! ## The channel domains after a trip (13 R398) -/

/-- Taking the records of every die keeps all but the records, which reach the tail, and each strap. -/
theorem foldl_takeDieLogs (l : List Die) (s : State) :
    (l.foldl (fun s d => takeDieLogs d s) s) =
        { s with dies := (l.foldl (fun s d => takeDieLogs d s) s).dies, tail := (l.foldl (fun s d => takeDieLogs d s) s).tail } ∧
      ∀ e, (dieOf (l.foldl (fun s d => takeDieLogs d s) s) e).strap = (dieOf s e).strap := by
  refine List.foldlRecOn (motive := fun t => t = { s with dies := t.dies, tail := t.tail } ∧ ∀ e, (dieOf t e).strap = (dieOf s e).strap)
    l _ ⟨rfl, fun _ => rfl⟩ fun t ⟨ht, hstrap⟩ d _ => ?_
  have heq := takeDieLogs_eq d t
  refine ⟨?_, fun e => ?_⟩
  · rw [heq]
    rw [ht]
  · rw [← hstrap e]
    by_cases he : e = d
    · rw [he, dieOf_takeDieLogs]
    · rw [heq]
      show (triGet (triMod t.dies d _) e).strap = _
      rw [triGet_triMod_other _ _ he]
      rfl

/-- Settles O28, row by row: LOGIC_SUPPLY without gate drive, a cause that joins, a later one, a lost edge, the channel domains. -/
theorem powerLossAndGateDriveOff : Obligations.PowerLossAndGateDriveOff := by
  intro s ci o high detail
  refine ⟨fun hq hj hm => ?_, fun t hq hj hm ht => ?_, fun hq hj hl hw hm => ?_, ?_, fun hm hl hat hms => ?_, fun h => ?_⟩
  · -- no gate drive
    have hmode : s.mode = .safe ∨ s.mode = .shutdown := hm.imp_left And.left
    refine ⟨_, (exec_railFault ci 1 s).trans (congrArg _ ((if_pos (domainOn_bridle hm)).trans (tripBy_powerLoss 0 0 0 hq hj hmode))), ?_⟩
    exact ⟨⟨_, pushTrip_newest s.tail.running _ s.ao, rfl, bitOf_setBitOf_true _ (by decide)⟩, rfl, rfl, rfl, rfl, rfl⟩
  · -- within 10 µs of the trip
    exact ⟨_, congrArg Host.Outcome.next (tripBy_joins 0 detail 0 hq hj hm ht), rfl, rfl, joinsTrip_latched hj⟩
  · -- after them
    exact ⟨_, congrArg Host.Outcome.next (tripBy_later 0 detail 0 hq hj hm hw hl (by decide)), rfl, getA_putA_self 2 ci.line 6 _⟩
  · -- a pump without an edge
    refine ⟨refreshClamps _, rfl, fun p q hp => ?_, refreshClamps_frame _⟩
    rw [clampOpen_refreshClamps_eq _ hp q]
    show (pumpFed s p q && !getA false (putA false (switchNo o high) true s.edgeLost) (switchNo p q)) = _
    rw [getA_putA]
    by_cases h : p = o ∧ q = high
    · simp [h]
    · rw [if_neg h, if_neg fun k => h ((switchNo_inj k).imp Eq.symm Eq.symm)]
  · -- 100 ms after the trip
    have htest : (decide (s.mode = .safe) && s.ao.tripLatch && decide (s.tripAt ≠ 0) && decide (s.tripAt + 99 ≤ s.ao.ms)) = true := by
      simp [hm, hl, hat, hms]
    obtain ⟨hframe, hstrap⟩ := foldl_takeDieLogs allDies s
    refine ⟨_, congrArg Host.Outcome.next (if_pos htest), ?_⟩
    generalize allDies.foldl (fun s d => takeDieLogs d s) s = u at hframe hstrap
    refine ⟨rfl, fun d => ?_, ?_⟩
    · rw [dieOf_onDies, ← hstrap d]
      rfl
    · rw [hframe]
      rfl
  · -- no trip, or a young one
    have htest : ¬ (decide (s.mode = .safe) && s.ao.tripLatch && decide (s.tripAt ≠ 0) && decide (s.tripAt + 99 ≤ s.ao.ms)) = true := by
      simp only [Bool.and_eq_true, decide_eq_true_eq, not_and, Nat.not_le]
      rintro ⟨⟨hm, hl⟩, hat⟩
      rcases h with h | h | h | h
      · exact absurd hm h
      · rw [h] at hl
        cases hl
      · exact absurd h hat
      · exact h
    exact ⟨_, congrArg Host.Outcome.next (if_neg htest), rfl⟩

end Sys2Proof.Machine


/-!
PROOFS. Three blocks of a region and their vote (06 R207 to R216, R225, R233): O23.
-/

namespace Sys2Proof.Machine

/-! ## Three blocks that stand (06 R207) -/

/-- The module once the third block of region `r` has arrived: `g` gives each die's words. -/
structure ThreeBlocks (r : Nat) (g : Die → List Word) (s : State) : Prop where
  runs : cyclesRun s = true
  free : xferHalted s = false
  open_ : (regionVote s.vote r).verdict = none
  ballot : ∀ x, Ballot s x r (g x)

theorem blockTaken_other {d e : Die} (he : e ≠ d) (s : State) (r q : Nat) (rxH rxL : LaneRx) (hw : VoteHw) (h l : Option (List Word)) :
    copyOf (blockTaken s d r rxH rxL hw h l) e q = copyOf s.vote e q := by
  unfold blockTaken
  rw [(feedCheck_reads s d .h r rxH _).1, (feedCheck_reads s d .l r rxL _).1, copyOf_modCopy, if_neg fun k => he k.1]
  rfl

theorem feedCheck_hw (s : State) (d : Die) (lane : Side) (r : Nat) (rx : LaneRx) (v : VoteSt) : (feedCheck s d lane r rx v).hw = v.hw := by
  unfold feedCheck
  split <;> rfl

theorem blockTaken_hw (s : State) (d : Die) (r : Nat) (rxH rxL : LaneRx) (hw : VoteHw) (h l : Option (List Word)) :
    (blockTaken s d r rxH rxL hw h l).hw = hw := by
  unfold blockTaken
  rw [feedCheck_hw, feedCheck_hw]
  rfl

/-- The third block stands beside the two that had arrived. -/
theorem LastArrival.threeBlocks {s : State} {d e f : Die} {r : Nat} {rxH rxL : LaneRx} {we wf w : List Word}
    (h : LastArrival s d e f r rxH rxL we wf w) (hw : VoteHw) :
    ∃ g : Die → List Word, g d = w ∧ g e = we ∧ g f = wf ∧
      ThreeBlocks r g (onVote (fun _ => blockTaken s d r rxH rxL hw (some w) (some w)) s) := by
  obtain ⟨hde, hdf, hef, hr, hc, hx, -, hv, he, hf, hd, -, -, -⟩ := h
  obtain ⟨hcopy, hvote, -⟩ := blockTaken_reads hr s d rxH rxL hw (some w) (some w)
  have hother : ∀ x, x ≠ d → copyOf (blockTaken s d r rxH rxL hw (some w) (some w)) x r = copyOf s.vote x r :=
    fun x hxd => blockTaken_other hxd s r r rxH rxL hw _ _
  generalize blockTaken s d r rxH rxL hw (some w) (some w) = v at hcopy hvote hother
  have hballot : ∀ {x ws}, x ≠ d → Ballot s x r ws → Ballot (onVote (fun _ => v) s) x r ws := by
    intro x ws hxd hb
    unfold Ballot isAvail at *
    simp only [onVote_fields, hother x hxd]
    exact hb
  have hown : Ballot (onVote (fun _ => v) s) d r w := by
    unfold Ballot isAvail at *
    simp only [onVote_fields, hcopy]
    exact ⟨hd, trivial, trivial⟩
  have he' := hballot hde.symm he
  have hf' := hballot hdf.symm hf
  refine ⟨fun x => ((copyOf v x r).rxH).getD [], congrArg (Option.getD · []) hown.2.1, congrArg (Option.getD · []) he'.2.1,
    congrArg (Option.getD · []) hf'.2.1, hc, hx, (congrArg RegionVote.verdict hvote).trans hv, fun x => ?_⟩
  have hself : ∀ {ws}, Ballot (onVote (fun _ => v) s) x r ws → Ballot (onVote (fun _ => v) s) x r (((copyOf v x r).rxH).getD []) := by
    intro ws hb
    have hg : ((copyOf v x r).rxH).getD [] = ws := congrArg (Option.getD · []) hb.2.1
    rwa [hg]
  rcases eq_of_three_dies hde hdf hef x with rfl | rfl | rfl
  · exact hself hown
  · exact hself he'
  · exact hself hf'

theorem ThreeBlocks.due {r : Nat} {g : Die → List Word} {s : State} (h : ThreeBlocks r g s) : voteIfDue s r = voteRegion r s := by
  have hpresent : ∀ x, isPresent (copyOf s.vote x r) = true := fun x => ballot_present (h.ballot x)
  have hdue : voteDue s.vote r = true := by simp [voteDue, h.open_, allDies, hpresent]
  simp [voteIfDue, h.runs, h.free, hdue]

/-- The row lets the region be voted. -/
theorem exec_lastArrival {s : State} {d e f : Die} {r : Nat} {rxH rxL : LaneRx} {we wf w : List Word}
    (h : LastArrival s d e f r rxH rxL we wf w) (hw : VoteHw) :
    exec (.commitBlockArrival d r rxH rxL hw) s =
      .next (voteRegion r (onVote (fun _ => blockTaken s d r rxH rxL hw (some w) (some w)) s)) := by
  obtain ⟨g, -, -, -, hthree⟩ := h.threeBlocks hw
  obtain ⟨-, -, -, hr, hc, -, hdead, -, -, -, -, ha, hH, hL⟩ := h
  rw [exec_commitBlockArrival rxH rxL hw hc hr ha, hdead, hH, hL, ← hthree.due]
  rfl

/-- Each half votes the blocks of all three dies, in the dies' order. -/
theorem ThreeBlocks.halves {r : Nat} {g : Die → List Word} {s : State} (h : ThreeBlocks r g s) {hw : HalfHw} (hp : hw.presence = none)
    (half : Side) : availDies s.vote r = allDies ∧ ballots hw s.vote half r = allDies.map (fun x => (x, g x)) := by
  have havail : availDies s.vote r = allDies := List.filter_eq_self.mpr fun x _ => (h.ballot x).1
  refine ⟨havail, ?_⟩
  have hbit : ∀ x, bitOf (presenceOf hw s.vote r) (dieIndex x) = true := by
    intro x
    have hsound := bitOf_presenceOf s.vote r x
    rw [ballot_present (h.ballot x)] at hsound
    unfold presenceOf at *
    rw [hp]
    exact hsound
  unfold ballots
  rw [havail, ← List.filterMap_eq_map]
  refine List.filterMap_congr fun x _ => ?_
  obtain ⟨-, hH, hL⟩ := h.ballot x
  cases half <;> simp [hbit, hH, hL]

/-! ## The verdict of a half (06 Table 6.5) -/

theorem voteHalf_dies (g : Die → List Word) :
    voteHalf halfSound 3 (allDies.map (fun x => (x, g x))) = some (
      if g .a = g .b ∧ g .a = g .c then { code := vdAGREE3, words := g .a, minority := none }
      else if g .a = g .b then { code := vdMAJEXCL, words := g .a, minority := some .c }
      else if g .a = g .c then { code := vdMAJEXCL, words := g .a, minority := some .b }
      else if g .b = g .c then { code := vdMAJEXCL, words := g .b, minority := some .a }
      else { code := vdNOMAJ, words := [], minority := none }) :=
  voteHalf_three .a .b .c (g .a) (g .b) (g .c)

theorem voteHalf_equal {g : Die → List Word} {w : List Word} (h : ∀ x, g x = w) :
    voteHalf halfSound 3 (allDies.map (fun x => (x, g x))) = some { code := vdAGREE3, words := w, minority := none } := by
  simp [voteHalf_dies, h]

theorem voteHalf_minority {g : Die → List Word} {d e f : Die} (hde : d ≠ e) (hdf : d ≠ f) (hef : e ≠ f) (heq : g e = g f) (hne : g d ≠ g f) :
    voteHalf halfSound 3 (allDies.map (fun x => (x, g x))) = some { code := vdMAJEXCL, words := g f, minority := some d } := by
  have hmaj : ∀ x, x ≠ d → g x = g f := by
    intro x hx
    rcases eq_of_three_dies hde hdf hef x with h | h | h
    · exact absurd h hx
    · rw [h, heq]
    · rw [h]
  rw [voteHalf_dies]
  cases d
  · simp [hmaj .b (by decide), hmaj .c (by decide), hne]
  · simp [hmaj .a (by decide), hmaj .c (by decide), hne.symm]
  · simp [hmaj .a (by decide), hmaj .b (by decide), hne.symm]

theorem voteHalf_noMajority {g : Die → List Word} (h : ∀ x y, x ≠ y → g x ≠ g y) :
    voteHalf halfSound 3 (allDies.map (fun x => (x, g x))) = some { code := vdNOMAJ, words := [], minority := none } := by
  simp [voteHalf_dies, h .a .b (by decide), h .a .c (by decide), h .b .c (by decide)]

/-- A comparator that shows neither code leaves its half without a verdict (06 R233). -/
theorem voteHalf_stuck {k : BitVec 2} (h1 : k ≠ 1) (h2 : k ≠ 2) (g : Die → List Word) :
    voteHalf { halfSound with ab := some k } 3 (allDies.map (fun x => (x, g x))) = none := by
  simp only [voteHalf, allDies, List.map_cons, List.map_nil, pairCmp, cmpOut, Option.getD_some, h1, h2, ne_eq, not_false_eq_true, decide_true,
    Bool.and_self, Bool.true_or, if_true]
  rfl

/-! ## Votes of three blocks -/

theorem voterSound_hwSound {v : VoteSt} (h : v.hw = hwSound) (r : Nat) : VoterSound v r := by
  unfold VoterSound
  rw [h]
  exact ⟨rfl, rfl, fun _ => ⟨tripletsOk_halfSound _, tripletsOk_halfSound _⟩⟩

theorem halvesAgree_hwSound {v : VoteSt} (h : v.hw = hwSound) (r : Nat) (vd : Verdict) : halvesAgree v r (some vd) (some vd) = true := by
  simp [halvesAgree, h, hwSound, cmpOut]

/-- A sound voter stores the verdict that its halves give, with its consequences. -/
theorem voteRegion_three {r : Nat} {g : Die → List Word} {s : State} (h : ThreeBlocks r g s) (hw : s.vote.hw = hwSound) {vd : Verdict}
    (hhalf : voteHalf halfSound 3 (allDies.map (fun x => (x, g x))) = some vd) (h1 : vd.code ≠ vdNOMAJ) (h2 : vd.code ≠ vdTOOFEW) :
    voteRegion r s = settleVerdict r vd allDies (onVote (storeVote r vd.code vd.words vd.words) s) := by
  have hside : ∀ half, voteHalf halfSound (availDies s.vote r).length (ballots halfSound s.vote half r) = some vd := by
    intro half
    obtain ⟨havail, hballots⟩ := h.halves (hw := halfSound) rfl half
    rw [havail, hballots]
    exact hhalf
  have hvoted := voteRegion_of_agree (voterSound_hwSound hw r) (by rw [hw]; exact hside .h) (by rw [hw]; exact hside .l)
    (halvesAgree_hwSound hw r vd) h1 h2
  rwa [(h.halves (hw := halfSound) rfl .h).1] at hvoted

/-- What a settled verdict leaves: its words stand, and mode, outputs and inputs are as before. -/
theorem settleVerdict_stores {r : Nat} (hr : r < 16) (vd : Verdict) (avail : List Die) (s : State) :
    let t := settleVerdict r vd avail (onVote (storeVote r vd.code vd.words vd.words) s)
    (regionVote t.vote r).verdict = some vd.code ∧ (regionVote t.vote r).h = vd.words ∧ (regionVote t.vote r).l = vd.words.map (~~~·) ∧
      t.mode = s.mode ∧ t.outs = s.outs ∧ t.ins = s.ins := by
  have hstands := settleVerdict_verdictStands r vd avail (onVote (storeVote r vd.code vd.words vd.words) s)
  have hvote := hstands.regionVote_eq r
  simp only [onVote_fields, regionVote_storeVote, true_and, if_pos hr] at hvote
  have hframe := hstands.frame
  refine ⟨by rw [hvote], by rw [hvote], by rw [hvote], ?_, ?_, ?_⟩ <;> rw [hframe] <;> rfl

/-! ## Exclusion and DEGRADED (06 R215, 13 R391) -/

/-- Copy `d` of region `r` stays excluded; where the mode lets DEGRADED change it stays set, and an exclusion on the way sets it. -/
structure ExclusionShows (d : Die) (r : Nat) (s t : State) : Prop where
  mode : t.mode = s.mode
  out : isExcluded (copyOf s.vote d r) = true → isExcluded (copyOf t.vote d r) = true
  degraded : s.mode ≠ .safe → s.mode ≠ .shutdown → s.overlays.degraded = true → t.overlays.degraded = true
  shows_ : s.mode ≠ .safe → s.mode ≠ .shutdown → isExcluded (copyOf t.vote d r) = true →
    isExcluded (copyOf s.vote d r) = true ∨ t.overlays.degraded = true

theorem ExclusionShows.trans {d : Die} {r : Nat} {s t u : State} (h : ExclusionShows d r s t) (k : ExclusionShows d r t u) :
    ExclusionShows d r s u := by
  have hmode := h.mode
  refine ⟨k.mode.trans h.mode, k.out ∘ h.out, fun hs hd => ?_, fun hs hd hx => ?_⟩
  · exact k.degraded (hmode ▸ hs) (hmode ▸ hd) ∘ h.degraded hs hd
  · rcases k.shows_ (hmode ▸ hs) (hmode ▸ hd) hx with ht | ht
    · exact (h.shows_ hs hd ht).imp_right (k.degraded (hmode ▸ hs) (hmode ▸ hd))
    · exact .inr ht

/-- A change that excludes no copy and leaves DEGRADED. -/
theorem ExclusionShows.of_eq {d : Die} {r : Nat} {s t : State} (hm : t.mode = s.mode)
    (hx : isExcluded (copyOf t.vote d r) = isExcluded (copyOf s.vote d r))
    (ho : s.mode ≠ .safe → s.mode ≠ .shutdown → t.overlays.degraded = s.overlays.degraded) : ExclusionShows d r s t :=
  ⟨hm, fun h => hx.trans h, fun hs hd h => (ho hs hd).trans h, fun _ _ h => .inl (hx.symm.trans h)⟩

theorem ExclusionShows.refl (d : Die) (r : Nat) (s : State) : ExclusionShows d r s s := .of_eq rfl rfl fun _ _ => rfl

theorem ExclusionShows.foldl {α : Type} {d : Die} {r : Nat} {f : State → α → State} (h : ∀ s a, ExclusionShows d r s (f s a)) (l : List α)
    (s : State) : ExclusionShows d r s (l.foldl f s) :=
  List.foldlRecOn _ _ (ExclusionShows.refl d r s) fun _ ht a _ => ht.trans (h _ a)

theorem ExclusionShows.modCopy (d : Die) (r : Nat) (e : Die) {f : Copy → Copy} (hf : ∀ c, (f c).excluded = c.excluded) (s : State) :
    ExclusionShows d r s (onVote (Machine.modCopy e r f) s) := by
  refine .of_eq rfl ?_ fun _ _ => rfl
  simp only [onVote_fields, copyOf_modCopy]
  split
  · rename_i h
    rw [h.1]
    exact congrArg Option.isSome (hf _)
  · rfl

theorem excludeCopy_exclusionShows (d : Die) (r : Nat) (e : Die) (c : ExclCause) (s : State) : ExclusionShows d r s (excludeCopy e r c s) := by
  by_cases h : isExcluded (copyOf s.vote e r) = true
  · have heq : excludeCopy e r c s = s := if_pos h
    rw [heq]
    exact .refl d r s
  · have hdeg := excludeCopy_degraded (d := e) (r := r) (s := s) c (by simpa using h)
    have hv := excludeCopy_vote e r c s
    rw [if_neg h] at hv
    refine ⟨by rw [excludeCopy_eq], fun hx => ?_, fun hs hd _ => hdeg hs hd, fun hs hd _ => .inr (hdeg hs hd)⟩
    rw [hv, copyOf_modCopy]
    split
    · rfl
    · exact hx

theorem copyAfterVote_exclusionShows (d : Die) (ws : List Word) (r : Nat) (avail : List Die) (s : State) (e : Die) :
    ExclusionShows d r s (copyAfterVote ws r avail s e) := by
  have hmiss : ExclusionShows d r s (if !isPresent (copyOf s.vote e r) then
      onVote (modCopy e r (fun c => { c with missNow := true, missWin := setBitOf c.missWin 0 true })) s else s) := by
    split
    · exact .modCopy d r e (f := fun c => { c with missNow := true, missWin := setBitOf c.missWin 0 true }) (fun _ => rfl) s
    · exact .refl d r s
  unfold copyAfterVote
  dsimp only
  refine hmiss.trans ?_
  generalize (if !isPresent (copyOf s.vote e r) then _ else s : State) = u
  split
  · split
    · rename_i n _ _
      exact .modCopy d r e (f := fun c => { c with rejoin := .shadow (n + 1) }) (fun _ => rfl) u
    · exact (ExclusionShows.modCopy d r e (f := fun c => { c with rejoin := .none, migrateFirst := true }) (fun _ => rfl) u).trans
        (.of_eq rfl rfl fun _ _ => rfl)
  · split
    · exact .refl d r u
    · split
      · split
        · exact excludeCopy_exclusionShows d r e _ u
        · exact .refl d r u
      · split
        · exact excludeCopy_exclusionShows d r e _ u
        · exact .refl d r u

theorem setForces_degraded (l : List ForceEntry) (f : ForceEntry) {s : State} (hsafe : s.mode ≠ .safe) (hshut : s.mode ≠ .shutdown) :
    (setForces l f s).overlays.degraded = s.overlays.degraded :=
  (congrArg Overlays.degraded (setOverlays_overlays _ _)).trans (overlaysIn_degraded hsafe hshut _ _)

theorem acceptChange_degraded (ws : List Word) {s : State} (hsafe : s.mode ≠ .safe) (hshut : s.mode ≠ .shutdown) :
    (acceptChange ws s).overlays.degraded = s.overlays.degraded := by
  unfold acceptChange
  dsimp only
  split
  · rfl
  · exact (congrArg Overlays.degraded (setOverlays_overlays _ _)).trans (overlaysIn_degraded hsafe hshut _ _)

/-- Results of requests exclude no copy and leave DEGRADED. -/
theorem bridleEffect_exclusionShows (d : Die) (r : Nat) (q : ReqResult) (s : State) : ExclusionShows d r s (bridleEffect q s) := by
  obtain ⟨hframe, hvote⟩ := bridleEffect_frame q s
  refine .of_eq (by rw [hframe]) (by rw [hvote]) fun hsafe hshut => ?_
  unfold bridleEffect
  dsimp only
  split
  · split <;> rfl
  · split
    · exact setForces_degraded _ _ hsafe hshut
    · exact setForces_degraded _ _ hsafe hshut
    · exact acceptChange_degraded _ hsafe hshut
    · rfl
    · rfl

theorem onWin_exclusionShows (d : Die) (r : Nat) (f : WinSt → WinSt) (s : State) : ExclusionShows d r s (onWin f s) :=
  .of_eq rfl rfl fun _ _ => rfl

theorem onDies_exclusionShows (d : Die) (r : Nat) (f : Die → DieSt → DieSt) (s : State) : ExclusionShows d r s (onDies f s) :=
  .of_eq rfl rfl fun _ _ => rfl

theorem readResults_exclusionShows (d : Die) (r : Nat) (s : State) : ExclusionShows d r s (readResults r s) := by
  unfold readResults
  split
  · exact .refl d r s
  · dsimp only
    split
    · exact .refl d r s
    · refine ExclusionShows.trans (.foldl (fun t q => ?_) _ s) (onDies_exclusionShows d r _ _)
      exact (bridleEffect_exclusionShows d r q t).trans (onWin_exclusionShows d r _ _)

theorem publishStatus_exclusionShows (d : Die) (r : Nat) (s : State) (e : Die) : ExclusionShows d r s (publishStatus r s e) := by
  have hev : ∀ (b : Bool) (code : BitVec 16) (u p i : Nat) (k : BitVec 64) (t : State),
      ExclusionShows d r t (if b then logOpen code u p i k t else t) := by
    intro b code u p i k t
    split
    · exact .of_eq rfl rfl fun _ _ => rfl
    · exact .refl d r t
  unfold publishStatus
  dsimp only
  iterate 6 refine ExclusionShows.trans ?_ (hev _ _ _ _ _ _ _)
  have hdie : ExclusionShows d r s (onDie e (fun x => modReg x r (fun g => { g with revOver := false })) s) := .of_eq rfl rfl fun _ _ => rfl
  refine hdie.trans (.modCopy d r e (fun _ => ?_) _)
  rfl

theorem afterVotes_exclusionShows (d : Die) (r : Nat) (s : State) : ExclusionShows d r s (afterVotes s) := by
  have hbeat : ExclusionShows d r s (heartbeat s) := by
    unfold heartbeat
    dsimp only
    split <;> exact .of_eq rfl rfl fun _ _ => rfl
  unfold afterVotes
  split
  · generalize heartbeat s = u at hbeat ⊢
    refine hbeat.trans ?_
    unfold writeRouteMirror writeReport
    exact .of_eq rfl rfl fun _ _ => rfl
  · exact .refl d r s

/-- A verdict with a minority excludes its copy, and DEGRADED is set (06 R215). -/
theorem settleVerdict_minority {r : Nat} (hr : r < 16) {vd : Verdict} {d : Die} (hd : vd.minority = some d) (avail : List Die) {s : State}
    (hsafe : s.mode ≠ .safe) (hshut : s.mode ≠ .shutdown) (hx : isExcluded (copyOf s.vote d r) = false) :
    isExcluded (copyOf (settleVerdict r vd avail s).vote d r) = true ∧ (settleVerdict r vd avail s).overlays.degraded = true := by
  have hjudged : ExclusionShows d r s (allDies.foldl (copyAfterVote vd.words r avail) s) :=
    .foldl (fun t e => copyAfterVote_exclusionShows d vd.words r avail t e) allDies s
  unfold settleVerdict
  rw [hd]
  dsimp only
  generalize allDies.foldl (copyAfterVote vd.words r avail) s = u at hjudged
  have hout := excludeCopy_excluded hr d .minority u
  have hrest : ExclusionShows d r (excludeCopy d r .minority u)
      (afterVotes (allDies.foldl (publishStatus r) (readResults r (excludeCopy d r .minority u)))) :=
    ((readResults_exclusionShows d r _).trans (.foldl (publishStatus_exclusionShows d r) allDies _)).trans (afterVotes_exclusionShows d r _)
  have hall := (hjudged.trans (excludeCopy_exclusionShows d r d .minority u)).trans hrest
  refine ⟨hrest.out hout, (hall.shows_ hsafe hshut (hrest.out hout)).resolve_left ?_⟩
  simp [hx]

/-! ## Votes that trip (06 R210, R225, R233) -/

/-- A trip of a state that still has the module's causes and cycle records them as the module's. -/
theorem TripRecorded.of_frame {c : Cause} {k : BitVec 8} {s u t : State} (h : TripRecorded c k u t) (hf : VoteFrame s u) : TripRecorded c k s t := by
  have hlines : u.ao.causeLines = s.ao.causeLines := by rw [hf]
  have hcycle : u.cycle = s.cycle := by rw [hf]
  unfold TripRecorded at *
  rwa [hlines, hcycle] at h

/-- A cause that a vote finds, once it has published what it had: a full trip of the module that has it. -/
theorem tripBy_ofVote {q : CauseIn} {c : Cause} {s u : State} (region : Nat) (detail : BitVec 8) (avail : BitVec 4) (hq : q.line ≠ 2)
    (hc : c ≠ .logicSupply) (hrun : cyclesRun s = true) (hl : s.ao.tripLatch = false) (hf : VoteFrame s u) :
    TrippedSafe (tripBy q c region detail avail u) ∧ TripRecorded c detail s (tripBy q c region detail avail u) := by
  have hm : u.mode ≠ .dormant := by
    rw [hf]
    exact not_dormant_of_cyclesRun hrun
  have hlatch : u.ao.tripLatch = false := by
    rw [hf]
    exact hl
  obtain ⟨htrip, hrec⟩ := tripBy_recorded region detail avail hq (fun h => absurd h hc) hm hlatch
  exact ⟨htrip, hrec.of_frame hf⟩

/-- A cause line HL_DISAGREE that does not read healthy trips the vote, whatever the blocks (06 R225). -/
theorem voteRegion_lineHl {r : Nat} {s : State} (hline : s.vote.hw.lineHl ≠ 2) :
    voteRegion r s = tripBy { line := s.vote.hw.lineHl, us := 0 } .hlDisagree r 0 0 (publishTripped r s) := by
  unfold voteRegion
  dsimp only
  rw [if_pos hline]

/-- A half without a verdict disagrees with the other (06 R233). -/
theorem voteRegion_noVerdict {r : Nat} {s : State} (hlines : s.vote.hw.lineHl = 2 ∧ s.vote.hw.lineMaj = 2) (hcmp : s.vote.hw.hl = none)
    (hh : voteHalf s.vote.hw.h (availDies s.vote r).length (ballots s.vote.hw.h s.vote .h r) = none) :
    voteRegion r s = tripNow .hlDisagree r 0 0 (publishTripped r s) := by
  have hdis : ∀ l, halvesAgree s.vote r none l = false := by simp [halvesAgree, hcmp, cmpOut]
  unfold voteRegion
  simp only [hlines.1, hlines.2, hh, hdis, ne_eq, not_true_eq_false, if_false, Bool.not_false, Bool.or_true, if_true]

/-- Blocks of which a sound voter finds no two equal trip with MAJORITY_LOSS under code 0xA (06 Table 6.5). -/
theorem voteRegion_noMajority {r : Nat} {g : Die → List Word} {s : State} (h : ThreeBlocks r g s) (hw : s.vote.hw = hwSound)
    (hne : ∀ x y, x ≠ y → g x ≠ g y) :
    voteRegion r s = tripNow .majorityLoss r 0x0A (availBits s.vote r) (publishTripped r (onVote (storeVote r vdNOMAJ [] []) s)) := by
  obtain ⟨hlineHl, hlineMaj, htri⟩ := voterSound_hwSound hw r
  have hside : ∀ half, voteHalf halfSound (availDies s.vote r).length (ballots halfSound s.vote half r) =
      some { code := vdNOMAJ, words := [], minority := none } := by
    intro half
    obtain ⟨havail, hballots⟩ := h.halves (hw := halfSound) rfl half
    rw [havail, hballots]
    exact voteHalf_noMajority hne
  have hhalf : voteHalf s.vote.hw.h (availDies s.vote r).length (ballots s.vote.hw.h s.vote .h r) =
      some { code := vdNOMAJ, words := [], minority := none } := by
    rw [hw]
    exact hside .h
  have hlow : voteHalf s.vote.hw.l (availDies s.vote r).length (ballots s.vote.hw.l s.vote .l r) =
      some { code := vdNOMAJ, words := [], minority := none } := by
    rw [hw]
    exact hside .l
  have htest : (r = 0 && !(tripletsOk s.vote.hw.h s.vote.triplet && tripletsOk s.vote.hw.l s.vote.triplet)) = false := by
    by_cases hr : r = 0
    · simp [hr, htri hr]
    · simp [hr]
  unfold voteRegion
  simp only [hlineHl, hlineMaj, htest, hhalf, hlow, halvesAgree_hwSound hw r, ne_eq, not_true_eq_false, if_false, Bool.not_true, Bool.or_self,
    Bool.false_eq_true, decide_true, Bool.true_or, if_true]
  rfl

theorem mode_of_cyclesRun {s : State} (h : cyclesRun s = true) : s.mode ≠ .safe ∧ s.mode ≠ .shutdown := by
  constructor <;> intro hm <;> simp [cyclesRun, hm] at h

theorem isAvail_notExcluded {v : VoteSt} {d : Die} {r : Nat} (h : isAvail v d r = true) : isExcluded (copyOf v d r) = false := by
  simp only [isAvail, Bool.and_eq_true, Bool.not_eq_true'] at h
  exact h.1

/-- The row votes the region, in a module that differs from the present one in its voter alone. -/
theorem LastArrival.votes {s : State} {d e f : Die} {r : Nat} {rxH rxL : LaneRx} {we wf w : List Word}
    (h : LastArrival s d e f r rxH rxL we wf w) (hw : VoteHw) :
    ∃ u g, exec (.commitBlockArrival d r rxH rxL hw) s = .next (voteRegion r u) ∧ VoteFrame s u ∧ u.vote.hw = hw ∧ ThreeBlocks r g u ∧
      g d = w ∧ g e = we ∧ g f = wf ∧ u.mode = s.mode ∧ u.outs = s.outs ∧ u.ins = s.ins := by
  obtain ⟨g, hd, he, hf, hthree⟩ := h.threeBlocks hw
  exact ⟨_, g, exec_lastArrival h hw, rfl, blockTaken_hw s d r rxH rxL hw (some w) (some w), hthree, hd, he, hf, rfl, rfl, rfl⟩

theorem apart_of_three {α : Type} {d e f : Die} (hde : d ≠ e) (hdf : d ≠ f) (hef : e ≠ f) (g : Die → α) (h1 : g d ≠ g e) (h2 : g d ≠ g f)
    (h3 : g e ≠ g f) (x y : Die) (hxy : x ≠ y) : g x ≠ g y := by
  rcases eq_of_three_dies hde hdf hef x with rfl | rfl | rfl <;> rcases eq_of_three_dies hde hdf hef y with rfl | rfl | rfl
  exacts [absurd rfl hxy, h1, h2, h1.symm, absurd rfl hxy, h3, h2.symm, h3.symm, absurd rfl hxy]

/-- Three different blocks trip a module that has its latch clear. -/
theorem ThreeBlocks.noMajority_trips {r : Nat} {g : Die → List Word} {s u : State} (h : ThreeBlocks r g u) (hf : VoteFrame s u)
    (hl : s.ao.tripLatch = false) (hrun : cyclesRun s = true) (hw : u.vote.hw = hwSound) (hne : ∀ x y, x ≠ y → g x ≠ g y) :
    TrippedSafe (voteRegion r u) ∧ TripRecorded .majorityLoss 0x0A s (voteRegion r u) := by
  have hpub : VoteFrame u (publishTripped r (onVote (storeVote r vdNOMAJ [] []) u)) :=
    (storeVote_step r vdNOMAJ [] [] u).frame.trans (publishTripped_verdictStands r _).frame
  rw [voteRegion_noMajority h hw hne]
  exact tripBy_ofVote r 0x0A _ (by decide) (by decide) hrun hl (hf.trans hpub)

/-- A comparator of half H that shows neither code trips it, whatever the blocks. -/
theorem ThreeBlocks.stuck_trips {r : Nat} {g : Die → List Word} {s u : State} (h : ThreeBlocks r g u) (hf : VoteFrame s u)
    (hl : s.ao.tripLatch = false) (hrun : cyclesRun s = true) {k : BitVec 2} (h1 : k ≠ 1) (h2 : k ≠ 2)
    (hw : u.vote.hw = { hwSound with h := { halfSound with ab := some k } }) :
    TrippedSafe (voteRegion r u) ∧ TripRecorded .hlDisagree 0 s (voteRegion r u) := by
  obtain ⟨havail, hballots⟩ := h.halves (hw := { halfSound with ab := some k }) rfl .h
  have hhalf : voteHalf u.vote.hw.h (availDies u.vote r).length (ballots u.vote.hw.h u.vote .h r) = none := by
    rw [hw]
    dsimp only
    rw [havail, hballots]
    exact voteHalf_stuck h1 h2 g
  rw [voteRegion_noVerdict (by rw [hw]; exact ⟨rfl, rfl⟩) (by rw [hw]; rfl) hhalf]
  exact tripBy_ofVote r 0 0 (by decide) (by decide) hrun hl (hf.trans (publishTripped_verdictStands r u).frame)

/-- Settles O23: the third block lets the region be voted (`LastArrival.votes`); what the halves make of the three is stored with its
consequences (`settleVerdict_stores`, `settleVerdict_minority`), or trips. -/
theorem thirdBlockDecidesTheVote : Obligations.ThirdBlockDecidesTheVote := by
  intro s d e f r rxH rxL we wf w hlast
  have hvotes := hlast.votes
  obtain ⟨hde, hdf, hef, hr, hrun, -⟩ := hlast
  have hagree : vdAGREE3 ≠ vdNOMAJ ∧ vdAGREE3 ≠ vdTOOFEW := by decide
  have hmajority : vdMAJEXCL ≠ vdNOMAJ ∧ vdMAJEXCL ≠ vdTOOFEW := by decide
  dsimp only
  refine ⟨fun heq hwf => ?_, fun heq hwf => ?_, fun hne hwe hwf hl => ?_, fun k h1 h2 hl => ?_, fun hw hline hl => ?_⟩
  · -- three equal blocks
    obtain ⟨u, g, hexec, -, hhw, hthree, hgd, hge, hgf, hmode, houts, hins⟩ := hvotes hwSound
    have hequal : ∀ x, g x = w := by
      intro x
      rcases eq_of_three_dies hde hdf hef x with rfl | rfl | rfl
      · exact hgd
      · rw [hge, heq, hwf]
      · rw [hgf, hwf]
    refine ⟨_, hexec, ?_⟩
    rw [voteRegion_three hthree hhw (voteHalf_equal hequal) hagree.1 hagree.2, ← hmode, ← houts, ← hins]
    exact settleVerdict_stores hr _ allDies u
  · -- two equal blocks and a minority
    obtain ⟨u, g, hexec, -, hhw, hthree, hgd, hge, hgf, hmode, houts, hins⟩ := hvotes hwSound
    have hmin := voteHalf_minority hde hdf hef (g := g) (by rw [hge, hgf, heq]) (by rw [hgd, hgf]; exact hwf)
    rw [hgf] at hmin
    refine ⟨_, hexec, ?_⟩
    rw [voteRegion_three hthree hhw hmin hmajority.1 hmajority.2, ← hmode, ← houts, ← hins]
    obtain ⟨hsafe, hshut⟩ := mode_of_cyclesRun hthree.runs
    obtain ⟨hout, hdeg⟩ := settleVerdict_minority hr (vd := { code := vdMAJEXCL, words := wf, minority := some d }) rfl allDies
      (s := onVote (storeVote r vdMAJEXCL wf wf) u) hsafe hshut (isAvail_notExcluded (hthree.ballot d).1)
    have hstores := settleVerdict_stores hr { code := vdMAJEXCL, words := wf, minority := some d } allDies u
    dsimp only at hstores
    generalize settleVerdict r _ allDies _ = t at hout hdeg hstores ⊢
    obtain ⟨hverdict, hh, hl, hrest⟩ := hstores
    exact ⟨hverdict, hh, hl, hout, hdeg, hrest⟩
  · -- three different blocks
    obtain ⟨u, g, hexec, hframe, hhw, hthree, hgd, hge, hgf, -⟩ := hvotes hwSound
    have hdiff : ∀ x y, x ≠ y → g x ≠ g y := by
      rw [← hge, ← hgf] at hne
      rw [← hgd, ← hge] at hwe
      rw [← hgd, ← hgf] at hwf
      exact apart_of_three hde hdf hef g hwe hwf hne
    exact ⟨_, hexec, hthree.noMajority_trips hframe hl hrun hhw hdiff⟩
  · -- a comparator that shows neither code
    obtain ⟨u, g, hexec, hframe, hhw, hthree, -⟩ := hvotes { hwSound with h := { halfSound with ab := some k } }
    exact ⟨_, hexec, hthree.stuck_trips hframe hl hrun h1 h2 hhw⟩
  · -- the cause line
    obtain ⟨u, g, hexec, hframe, hhw, -⟩ := hvotes hw
    rw [← hhw] at hline
    refine ⟨_, hexec, ?_⟩
    rw [voteRegion_lineHl hline]
    exact tripBy_ofVote r 0 0 hline (by decide) hrun hl (hframe.trans (publishTripped_verdictStands r u).frame)

end Sys2Proof.Machine


/-!
PROOFS. A re-join pass and the limit of an attempt (06 R218, R219, R221): O25.
-/

namespace Sys2Proof.Machine

/-! ## Retained memory (06 Table 6.6) -/

theorem filter_noKey {V : Type} {n : Nat} {q : Nat × V → Bool} (hq : ∀ v, q (n, v) = false) (m : Assoc V) : ∀ p ∈ m.filter q, p.1 ≠ n := by
  rintro ⟨k, v⟩ hp rfl
  have := (List.mem_filter.mp hp).2
  rw [hq] at this
  cases this

/-- Region memory with the bytes of the data area taken from another one reads as that one there, and as before elsewhere. -/
theorem memByte_joined (m n : List Host.Cell) (a : Nat) :
    memByte (m.filter (fun c => decide (c.1 < memDATA)) ++ retainedMem n ++ m.filter (fun c => decide (memSCRATCH ≤ c.1))) a =
      if memDATA ≤ a ∧ a < memSCRATCH then memByte n a else memByte m a := by
  have hareas : memDATA < memSCRATCH := by decide
  unfold memByte retainedMem
  rw [List.append_assoc]
  by_cases hlo : a < memDATA
  · have hmid : ∀ p ∈ n.filter (fun c => decide (memDATA ≤ c.1) && decide (c.1 < memSCRATCH)), p.1 ≠ a :=
      filter_noKey (fun _ => by simp [hlo]) n
    have hhi : ∀ p ∈ m.filter (fun c => decide (memSCRATCH ≤ c.1)), p.1 ≠ a := filter_noKey (fun _ => by simp; omega) m
    rw [if_neg (by omega)]
    refine getA_filter 0 a _ (fun _ => by simp [hlo]) _ ?_ m
    rw [getA_append 0 a _ _ hmid]
    exact getA_none 0 a _ hhi
  · rw [getA_append 0 a _ _ (filter_noKey (fun _ => by simp [hlo]) m)]
    by_cases hhi : a < memSCRATCH
    · rw [if_pos ⟨by omega, hhi⟩]
      refine getA_filter 0 a _ (fun _ => by simp [hhi]; omega) _ (getA_none 0 a _ (filter_noKey (fun _ => by simp [hhi]) m)) n
    · rw [if_neg (by omega), getA_append 0 a _ _ (filter_noKey (fun _ => by simp [hhi]) n)]
      simpa using getA_filter 0 a (fun c => decide (memSCRATCH ≤ c.1)) (fun _ => by simp; omega) [] rfl m

/-! ## What a pass puts into the copy -/

/-- Two dies hold the same cells and regions. -/
def SameStores (x y : DieSt) : Prop := y.cells = x.cells ∧ y.regions = x.regions

theorem SameStores.foldl {α : Type} {x y : DieSt} {f : DieSt → α → DieSt} (h : SameStores x y) (hf : ∀ z a, SameStores z (f z a)) (l : List α) :
    SameStores x (l.foldl f y) :=
  List.foldlRecOn (motive := SameStores x) l f h fun z hz a _ => ⟨(hf z a).1.trans hz.1, (hf z a).2.trans hz.2⟩

/-- The cells of a region as a donor holds them, with their errors counted anew. -/
def donorCells (r : Nat) (from_ y : DieSt) : DieSt :=
  (numsFrom (256 * r) 256).foldl (fun y n => setCell y n { getCell from_ n with checkErr := 0 }) y

theorem getCell_of_cells {x y : DieSt} (h : y.cells = x.cells) (m : Nat) : getCell y m = getCell x m := by
  unfold getCell
  rw [h]

/-- The retained parts of a region as a donor holds them. -/
def donorRegion (r : Nat) (from_ x : DieSt) : DieSt :=
  modReg x r (fun g =>
    { g with mem := g.mem.filter (fun c => decide (c.1 < memDATA)) ++ retainedMem (reg from_ r).mem ++
               g.mem.filter (fun c => decide (memSCRATCH ≤ c.1)), sup := (reg from_ r).sup,
             dirty := dirtyBlocks (retainedMem g.mem) (retainedMem (reg from_ r).mem) (decide (g.sup ≠ (reg from_ r).sup)) g.dirty })

/-- The routes, their work and the directory are the rest. -/
theorem putRejoin_sameStores (cx : Ctx) (r : Nat) (from_ x : DieSt) :
    SameStores (donorCells r from_ (donorRegion r from_ x)) (putRejoin cx r from_ x) := by
  unfold putRejoin
  dsimp only
  refine SameStores.foldl ?_ (fun z p => ?_) _
  · refine SameStores.foldl ?_ (fun z p => ?_) _
    · refine SameStores.foldl ⟨rfl, rfl⟩ (fun z i => ?_) _
      exact ⟨rfl, rfl⟩
    · exact ⟨rfl, rfl⟩
  · exact ⟨rfl, rfl⟩

theorem foldl_setCell_regions (c : Nat → CellRec) (l : List Nat) (y : DieSt) : (l.foldl (fun y n => setCell y n (c n)) y).regions = y.regions :=
  List.foldlRecOn (motive := fun z : DieSt => z.regions = y.regions) l _ rfl fun _ hz _ _ => hz

theorem donorCells_regions (r : Nat) (from_ y : DieSt) : (donorCells r from_ y).regions = y.regions :=
  foldl_setCell_regions _ _ y

theorem getCell_donorCells (r : Nat) (from_ y : DieSt) (m : Nat) :
    getCell (donorCells r from_ y) m = if 256 * r ≤ m ∧ m < 256 * r + 256 then { getCell from_ m with checkErr := 0 } else getCell y m := by
  have hfold : ∀ (l : List Nat) (z : DieSt), getCell (l.foldl (fun y n => setCell y n { getCell from_ n with checkErr := 0 }) z) m =
      if m ∈ l then { getCell from_ m with checkErr := 0 } else getCell z m := by
    intro l z
    induction l using List.reverseRecOn with
    | nil => rfl
    | append_singleton l n ih =>
      rw [List.foldl_append, List.foldl_cons, List.foldl_nil, getCell_setCell, ih]
      by_cases hn : n = m
      · simp [hn]
      · simp [hn, Ne.symm hn]
  rw [donorCells, hfold]
  simp only [mem_numsFrom]

/-! ## An attempt given up (06 R221) -/

theorem abandonRejoin_given_up {d : Die} {r : Nat} (hr : r < 16) (s : State) :
    (copyOf (abandonRejoin d r s).vote d r).rejoin = .none ∧
      reg (dieOf (abandonRejoin d r s) d) r = { reg (dieOf s d) r with halted := true, task := 0, revert := false } := by
  refine ⟨?_, ?_⟩
  · show (copyOf (modCopy d r (fun c => { c with rejoin := .none, migrateFirst := true }) s.vote) d r).rejoin = _
    rw [copyOf_modCopy, if_pos ⟨rfl, rfl, hr⟩]
  · unfold abandonRejoin
    rw [dieOf_logOpen, reg_haltRegion_self hr]
    rfl

/-! ## The rows -/

theorem exec_rejoinPassComplete {s : State} {d p q : Die} {r n : Nat} (hr : r < 16) (hp : (copyOf s.vote d r).rejoin = .passing n)
    (hdon : donorsOf s d r = some (p, q)) (hph : (dieOf s d).phase = phIDLE) (hsl : ∀ o, (dieOf s o).sliceRun = none) :
    exec (.rejoinPassComplete d r true) s = .next (
      if rejoinItems (dieOf s p) r ≠ rejoinItems (dieOf s q) r then abandonRejoin d r s
      else onVote (modCopy d r (fun c => { c with rejoin := .complete })) (onDie d (putRejoin (ctxOf s) r (dieOf s p)) s)) := by
  have htest : (decide (16 ≤ r) || !true || decide ((dieOf s d).phase ≠ phIDLE) || allDies.any (fun o => (dieOf s o).sliceRun.isSome)) = false := by
    simp [hph, hsl, hr]
  show execRejoinPassComplete d r true s = _
  unfold execRejoinPassComplete
  simp only [hp, hdon, htest, Bool.false_eq_true, if_false]

/-- A pass without the room of its window, of a copy that re-joins nothing, or without two donors, is none. -/
theorem exec_rejoinPassComplete_none {s : State} {d : Die} {r : Nat} {room : Bool}
    (h : room = false ∨ (copyOf s.vote d r).rejoin = .none ∨ donorsOf s d r = none) : exec (.rejoinPassComplete d r room) s = .next s := by
  show execRejoinPassComplete d r room s = _
  unfold execRejoinPassComplete
  split
  · rename_i hp hdon
    rw [hp, hdon] at h
    have hroom : room = false := by simpa using h
    simp [hroom]
  · rfl

theorem exec_rejoinLimit {s : State} {d : Die} {r n : Nat} (hp : (copyOf s.vote d r).rejoin = .passing n) :
    exec (.rejoinLimit d r) s = .next (if 11 ≤ n then abandonRejoin d r s else s) := by
  show execRejoinLimit d r s = _
  unfold execRejoinLimit
  rw [hp]

/-- An attempt that ends leaves the copy halted, with its memory. -/
theorem abandonRejoin_halts {d : Die} {r : Nat} (hr : r < 16) (s : State) :
    (copyOf (abandonRejoin d r s).vote d r).rejoin = .none ∧ (reg (dieOf (abandonRejoin d r s) d) r).halted = true ∧
      (reg (dieOf (abandonRejoin d r s) d) r).mem = (reg (dieOf s d) r).mem := by
  obtain ⟨hcopy, hreg⟩ := abandonRejoin_given_up hr s
  exact ⟨hcopy, by rw [hreg], by rw [hreg]⟩

/-- Settles O25: a pass on which the donors agree is `putRejoin`, whose stores are the donor's (`putRejoin_sameStores`); one on which they
differ, and the limit, end the attempt (`abandonRejoin_halts`). -/
theorem rejoinTakesWhatDonorsAgreeOn : Obligations.RejoinTakesWhatDonorsAgreeOn := by
  intro s d p q r n room hr
  dsimp only
  refine ⟨fun hp hdon hph hsl hagree => ?_, fun hp hdon hph hsl hdiffer => ?_, fun h => ⟨s, exec_rejoinPassComplete_none h, rfl⟩,
    fun hp hn => ?_, fun hp hn => ?_, fun hp => ?_⟩
  · -- the donors agree
    refine ⟨_, (exec_rejoinPassComplete hr hp hdon hph hsl).trans (congrArg _ (if_neg (not_not.mpr hagree))), ?_⟩
    obtain ⟨hcells, hregs⟩ := putRejoin_sameStores (ctxOf s) r (dieOf s p) (dieOf s d)
    have hreg : reg (putRejoin (ctxOf s) r (dieOf s p) (dieOf s d)) r = reg (donorRegion r (dieOf s p) (dieOf s d)) r :=
      reg_of_regions (hregs.trans (donorCells_regions r _ _)) r
    have hcell : ∀ m, getCell (putRejoin (ctxOf s) r (dieOf s p) (dieOf s d)) m =
        if 256 * r ≤ m ∧ m < 256 * r + 256 then { getCell (dieOf s p) m with checkErr := 0 } else getCell (dieOf s d) m :=
      fun m => (getCell_of_cells hcells m).trans (getCell_donorCells r _ _ m)
    rw [donorRegion, reg_modReg_self _ hr] at hreg
    have hdie : ∀ e, dieOf (onVote (modCopy d r (fun c => { c with rejoin := .complete }))
        (onDie d (putRejoin (ctxOf s) r (dieOf s p)) s)) e =
        if e = d then putRejoin (ctxOf s) r (dieOf s p) (dieOf s d) else dieOf s e :=
      fun e => dieOf_onDie d e _ s
    have hcopy : copyOf (onVote (modCopy d r (fun c => { c with rejoin := .complete }))
        (onDie d (putRejoin (ctxOf s) r (dieOf s p)) s)).vote d r = { copyOf s.vote d r with rejoin := .complete } :=
      (copyOf_modCopy s.vote d d r r _).trans (if_pos ⟨rfl, rfl, hr⟩)
    generalize onVote _ (onDie d _ s) = t at hdie hcopy
    rw [hcopy, hdie d, if_pos rfl, hreg]
    refine ⟨rfl, rfl, fun a hlo hhi => ?_, fun a ha => ?_, rfl, fun m hlo hhi => ?_, fun m hm => ?_, fun e he => ?_⟩
    · exact (memByte_joined _ _ a).trans (if_pos ⟨hlo, hhi⟩)
    · exact (memByte_joined _ _ a).trans (if_neg (by omega))
    · rw [hcell, if_pos ⟨hlo, hhi⟩]
    · rw [hcell, if_neg (by omega)]
    · rw [hdie, if_neg he]
  · -- they differ
    exact ⟨_, (exec_rejoinPassComplete hr hp hdon hph hsl).trans (congrArg _ (if_pos hdiffer)), abandonRejoin_halts hr s⟩
  · -- the twelfth cycle is over
    exact ⟨_, (exec_rejoinLimit hp).trans (congrArg _ (if_pos hn)), abandonRejoin_halts hr s⟩
  · -- it is not
    exact ⟨_, (exec_rejoinLimit hp).trans (congrArg _ (if_neg (by omega))), rfl⟩
  · -- no attempt waits for a pass
    refine ⟨s, ?_, rfl⟩
    show execRejoinLimit d r s = _
    unfold execRejoinLimit
    split
    · exact absurd ‹_› (hp _)
    · rfl

end Sys2Proof.Machine


/-!
PROOFS. What COMMIT and its idle window leave of a die's blocks (04 R149, 06 R203).
-/

namespace Sys2Proof.Machine

/-! ## The parts of a region that its block hangs on -/

/-- Halts, the marks that force a block, INIT, and the block that was sent. -/
def blockParts (g : RegionSt) : Bool × Bool × Bool × Bool × Bool × Bool × List Word :=
  (g.halted, g.haltCycle, g.forceNext, g.overIn, g.overOut, g.sup.initDone, g.sent)

/-- Two dies stand in the same phase of the same cycle, and their regions have the same blocks. -/
structure CommitKept (x y : DieSt) : Prop where
  phase : y.phase = x.phase
  strap : y.strap = x.strap
  cycleNo : y.cycleNo = x.cycleNo
  parts : ∀ q, q < 16 → blockParts (reg y q) = blockParts (reg x q)

theorem CommitKept.refl (x : DieSt) : CommitKept x x := ⟨rfl, rfl, rfl, fun _ _ => rfl⟩

theorem CommitKept.trans {x y z : DieSt} (h : CommitKept x y) (k : CommitKept y z) : CommitKept x z :=
  ⟨k.phase.trans h.phase, k.strap.trans h.strap, k.cycleNo.trans h.cycleNo, fun q hq => (k.parts q hq).trans (h.parts q hq)⟩

theorem PostsOnly.commitKept {x y : DieSt} (h : PostsOnly x y) : CommitKept x y := by
  obtain ⟨hx, hregs⟩ := h
  unfold RegionsOnly at hx
  refine ⟨by rw [hx], by rw [hx], by rw [hx], fun q _ => ?_⟩
  rw [hregs q]
  rfl

theorem commitKept_modReg (x : DieSt) (r : Nat) {f : RegionSt → RegionSt} (hf : ∀ g, blockParts (f g) = blockParts g) :
    CommitKept x (modReg x r f) := by
  refine ⟨rfl, rfl, rfl, fun q _ => ?_⟩
  rw [reg_modReg]
  split
  · rename_i h
    rw [h.1]
    exact hf _
  · rfl

theorem commitKept_mapRegs (x : DieSt) {f : Nat → RegionSt → RegionSt} (hf : ∀ r g, blockParts (f r g) = blockParts g) :
    CommitKept x (mapRegs x f) :=
  List.foldlRecOn (motive := fun y => CommitKept x y) _ _ (CommitKept.refl x) fun y hy r _ => hy.trans (commitKept_modReg y r (hf r))

/-! ## The module around a COMMIT -/

/-- Mode, cycle and the blocks of die `d` are as before, and what is excluded of it stays so. -/
structure CommitStands (d : Die) (s t : State) : Prop where
  mode : t.mode = s.mode
  cycle : t.cycle = s.cycle
  die : CommitKept (dieOf s d) (dieOf t d)
  out : ∀ q, isExcluded (copyOf s.vote d q) = true → isExcluded (copyOf t.vote d q) = true

theorem CommitStands.of_eq {d : Die} {s t : State} (hm : t.mode = s.mode) (hc : t.cycle = s.cycle) (hd : dieOf t d = dieOf s d)
    (hv : t.vote = s.vote) : CommitStands d s t :=
  ⟨hm, hc, by rw [hd]; exact .refl _, fun q h => by rw [hv]; exact h⟩

theorem CommitStands.refl (d : Die) (s : State) : CommitStands d s s := .of_eq rfl rfl rfl rfl

theorem CommitStands.trans {d : Die} {s t u : State} (h : CommitStands d s t) (k : CommitStands d t u) : CommitStands d s u :=
  ⟨k.mode.trans h.mode, k.cycle.trans h.cycle, h.die.trans k.die, fun q hq => k.out q (h.out q hq)⟩

theorem CommitStands.ite {d : Die} {c : Prop} [Decidable c] {s t u : State} (ht : CommitStands d s t) (hu : CommitStands d s u) :
    CommitStands d s (if c then t else u) := by
  split
  · exact ht
  · exact hu

theorem CommitStands.foldl {α : Type} {d : Die} {f : State → α → State} (h : ∀ s a, CommitStands d s (f s a)) (l : List α) (s : State) :
    CommitStands d s (l.foldl f s) :=
  List.foldlRecOn _ _ (CommitStands.refl d s) fun _ ht a _ => ht.trans (h _ a)

theorem CommitStands.onDie (d : Die) {f : DieSt → DieSt} (hf : ∀ x, CommitKept x (f x)) (s : State) :
    CommitStands d s (Machine.onDie d f s) :=
  ⟨rfl, rfl, by rw [dieOf_onDie_self]; exact hf _, fun _ h => h⟩

theorem CommitStands.onDies (d : Die) {f : Die → DieSt → DieSt} (hf : ∀ e x, CommitKept x (f e x)) (s : State) :
    CommitStands d s (Machine.onDies f s) :=
  ⟨rfl, rfl, by rw [dieOf_onDies]; exact hf d _, fun _ h => h⟩

theorem excludeCopy_commitStands (d : Die) (r : Nat) (c : ExclCause) (s : State) : CommitStands d s (excludeCopy d r c s) := by
  refine ⟨by rw [excludeCopy_eq], by rw [excludeCopy_eq], (excludeCopy_posts d r c s d).commitKept, fun q hq => ?_⟩
  exact (excludeCopy_excludesOf d r c s).stays q hq

theorem takeDieLogs_commitStands (d : Die) (s : State) : CommitStands d s (takeDieLogs d s) := by
  have hdie := dieOf_takeDieLogs d s
  refine ⟨by rw [takeDieLogs_eq], by rw [takeDieLogs_eq], ?_, fun q hq => by rw [takeDieLogs_eq]; exact hq⟩
  rw [hdie]
  exact ⟨rfl, rfl, rfl, fun _ _ => rfl⟩

theorem pmcReadDie_commitStands (d : Die) (s : State) : CommitStands d s (pmcReadDie d s) := by
  unfold pmcReadDie
  dsimp only
  generalize (numsFrom 0 16).foldl _ s.pmcRead = read
  refine CommitStands.trans ?_ (.onDie d (fun x => ?_) _)
  · exact .ite (.of_eq rfl rfl rfl rfl) (.of_eq rfl rfl rfl rfl)
  · refine commitKept_mapRegs x fun r g => ?_
    rfl

theorem migrationCopy_commitStands (d : Die) (s : State) (r : Nat) : CommitStands d s (migrationCopy d s r) := by
  unfold migrationCopy
  dsimp only
  split
  · exact .refl d s
  · refine CommitStands.ite (.onDie d (fun x => ?_) s) (CommitStands.trans (.onDie d (fun x => ?_) s) (excludeCopy_commitStands d r .slice _))
    · exact ⟨rfl, rfl, rfl, fun _ _ => rfl⟩
    · exact ⟨rfl, rfl, rfl, fun _ _ => rfl⟩

/-! ## Transfer passes (12 R366, R367) -/

theorem sendTransfer_commitStands (d : Die) (ws : List Word) (s : State) : CommitStands d s (sendTransfer ws s) := by
  unfold sendTransfer
  split
  · split
    · exact .of_eq rfl rfl rfl rfl
    · exact .refl d s
  · exact .refl d s

theorem clearDirty_commitKept (r b : Nat) (x : DieSt) : CommitKept x (clearDirty r b x) := by
  unfold clearDirty
  split
  · exact commitKept_modReg x r fun g => rfl
  · exact ⟨rfl, rfl, rfl, fun _ _ => rfl⟩

theorem sendBlocks_commitStands (d : Die) (pass : Nat) (l : List Nat) (s : State) : CommitStands d s (sendBlocks pass l s).1 := by
  induction l generalizing s with
  | nil => exact .refl d s
  | cons n l ih =>
    unfold sendBlocks
    dsimp only
    split
    · exact .refl d s
    · have hone := sendTransfer_commitStands d
      exact (((hone _ _).trans (hone _ _)).trans (.onDies d (fun _ x => clearDirty_commitKept _ _ x) _)).trans (ih _)

theorem setSend_commitStands (d : Die) (q : XferSend) (s : State) : CommitStands d s (setSend q s) := .of_eq rfl rfl rfl rfl

theorem sendFinal_commitStands (d : Die) (pass : Nat) (x : DieSt) (inits : List Bool) (s : State) :
    CommitStands d s (sendFinal pass x inits s) := by
  have hone := sendTransfer_commitStands d
  unfold sendFinal
  dsimp only
  exact ((CommitStands.foldl (fun t q => hone _ t) _ s).trans (hone _ _)).trans (hone _ _)

theorem finalPass_commitStands (d : Die) (pass cycles : Nat) (s : State) : CommitStands d s (finalPass pass cycles s) := by
  have hsent := sendBlocks_commitStands d pass (dirtySet s) s
  unfold finalPass
  dsimp only
  split
  · exact hsent.trans ((sendFinal_commitStands d _ _ _ _).trans (setSend_commitStands d _ _))
  · exact hsent.trans (setSend_commitStands d _ _)

theorem passWindow_commitStands (d : Die) (pass cycles window : Nat) (next : List Nat) (s : State) :
    CommitStands d s (passWindow pass cycles window next s) :=
  (sendBlocks_commitStands d pass (next.take window) s).trans (setSend_commitStands d _ _)

theorem transferPass_commitStands (d : Die) (ci : CommitIn) (s : State) : CommitStands d s (transferPass ci s).1 := by
  unfold transferPass
  dsimp only
  split
  · exact .refl d s
  split
  · split
    · split
      · dsimp only
        refine CommitStands.trans ?_ (passWindow_commitStands d _ _ _ _ _)
        exact .of_eq rfl rfl rfl rfl
      · exact .of_eq rfl rfl rfl rfl
    · exact .refl d s
  · split
    · exact .of_eq rfl rfl rfl rfl
    split
    · split
      · exact passWindow_commitStands d _ _ _ _ s
      · exact .refl d s
    split
    · exact finalPass_commitStands d _ _ s
    split
    · exact passWindow_commitStands d _ _ _ _ s
    · exact .refl d s
  · split
    · exact .of_eq rfl rfl rfl rfl
    split
    · exact .of_eq rfl rfl rfl rfl
    split
    · exact .refl d s
    · exact finalPass_commitStands d _ _ s
  · split
    · exact setSend_commitStands d _ s
    · exact .refl d s

/-! ## The rest of the window (04 R149) -/

theorem loadCode_commitKept (bank : Bool) (p : StationPart) (x : DieSt) : CommitKept x (loadCode bank p x) := by
  unfold loadCode
  refine commitKept_mapRegs x fun r g => ?_
  rfl

theorem loadTables_commitKept (cx : Ctx) (bank : Bool) (p : StationPart) (x : DieSt) : CommitKept x (loadTables cx bank p x) := by
  unfold loadTables
  exact ⟨rfl, rfl, rfl, fun _ _ => rfl⟩

theorem loadPass_commitStands (d : Die) (s : State) : CommitStands d s (loadPass d s) := by
  unfold loadPass
  dsimp only
  refine CommitStands.trans ?_ (.onDie d (fun x => (loadTables_commitKept _ _ _ x).trans (loadCode_commitKept _ _ _)) _)
  exact .of_eq rfl rfl rfl rfl

theorem startSlice_commitKept (x : DieSt) : CommitKept x (startSlice x) := by
  unfold startSlice
  split
  · exact ⟨rfl, rfl, rfl, fun _ _ => rfl⟩
  · exact .refl x

theorem idleWindow_commitStands (d : Die) (room taken : Bool) (s : State) : CommitStands d s (idleWindow d room taken s) := by
  unfold idleWindow
  split
  · exact .refl d s
  split
  · exact loadPass_commitStands d s
  split
  · exact .refl d s
  · exact .onDie d startSlice_commitKept s

/-- A die that has met its errors and fixed the HEART, with its regions committed. -/
def dieCommitted (d : Die) (ci : CommitIn) (s : State) : State :=
  let s1 := fixHeart (commitEcc d ci s)
  onDie d (fun x => { commitDie (commitCxOf s1) x with evSpool := spRelease true (commitDie (commitCxOf s1) x).evSpool }) s1

/-- All that follows in the row leaves what COMMIT has made. -/
theorem commitRow_commitStands (d : Die) (ci : CommitIn) (s : State) : CommitStands d (dieCommitted d ci s) (commitRow d ci s) := by
  unfold commitRow
  dsimp only
  refine CommitStands.trans ?_ (idleWindow_commitStands d _ _ _)
  generalize hu : migrationCopies d _ = u
  have hread : CommitStands d (dieCommitted d ci s) u := by
    rw [← hu]
    exact ((takeDieLogs_commitStands d _).trans (pmcReadDie_commitStands d _)).trans (.foldl (migrationCopy_commitStands d) _ _)
  refine hread.trans ?_
  split
  · exact transferPass_commitStands d ci u
  · exact .refl d u

end Sys2Proof.Machine


/-!
PROOFS. The errors that a digest meets, the block of a region, and the row COMMIT (01 R37, 04 R151, 06 R203): O30.
-/

namespace Sys2Proof.Machine

/-! ## Errors that the digest meets (01 R37, R39) -/

/-- What decides on a block, but for the halt. -/
def blockMarks (g : RegionSt) : Bool × Bool × Bool × Bool × Bool := (g.haltCycle, g.forceNext, g.overIn, g.overOut, g.sup.initDone)

/-- Errors in the regions that `bad` names: each halts and is excluded, and the marks of all stand. -/
structure EccStruck (d : Die) (bad : Nat → Bool) (s t : State) : Prop where
  mode : t.mode = s.mode
  cycle : t.cycle = s.cycle
  strap : (dieOf t d).strap = (dieOf s d).strap
  cycleNo : (dieOf t d).cycleNo = (dieOf s d).cycleNo
  marks : ∀ q, q < 16 → blockMarks (reg (dieOf t d) q) = blockMarks (reg (dieOf s d) q)
  halted : ∀ q, q < 16 → (reg (dieOf t d) q).halted = ((reg (dieOf s d) q).halted || bad q)
  out : ∀ q, isExcluded (copyOf s.vote d q) = true → isExcluded (copyOf t.vote d q) = true
  struck : ∀ q, q < 16 → (reg (dieOf s d) q).halted = false → bad q = true → isExcluded (copyOf t.vote d q) = true

theorem EccStruck.trans {d : Die} {b c : Nat → Bool} {s t u : State} (h : EccStruck d b s t) (k : EccStruck d c t u) :
    EccStruck d (fun q => b q || c q) s u := by
  refine ⟨k.mode.trans h.mode, k.cycle.trans h.cycle, k.strap.trans h.strap, k.cycleNo.trans h.cycleNo,
    fun q hq => (k.marks q hq).trans (h.marks q hq), fun q hq => ?_, fun q hx => k.out q (h.out q hx), fun q hq hh hb => ?_⟩
  · rw [k.halted q hq, h.halted q hq, Bool.or_assoc]
  · by_cases hbq : b q = true
    · exact k.out q (h.struck q hq hh hbq)
    · have hbf : b q = false := by simpa using hbq
      refine k.struck q hq ?_ (by simpa [hbf] using hb)
      rw [h.halted q hq, hh, hbf]
      rfl

theorem CommitStands.eccStruck {d : Die} {s t : State} (h : CommitStands d s t) : EccStruck d (fun _ => false) s t := by
  have hparts := fun q hq => h.die.parts q hq
  simp only [blockParts, Prod.mk.injEq] at hparts
  refine ⟨h.mode, h.cycle, h.die.strap, h.die.cycleNo, fun q hq => ?_, fun q hq => ?_, h.out, fun _ _ _ hb => by cases hb⟩
  · obtain ⟨-, h1, h2, h3, h4, h5, -⟩ := hparts q hq
    simp only [blockMarks, h1, h2, h3, h4, h5]
  · rw [(hparts q hq).1, Bool.or_false]

/-- An error that is corrected counts in its region. -/
theorem eccEvent_corrected_stands (d : Die) (r a : Nat) (s : State) : CommitStands d s (eccEvent d r a .corrected s) := by
  refine .onDie d (fun x => commitKept_modReg x r fun g => ?_) s
  rfl

/-- A halt keeps what a block of the die hangs on, but for the halt itself. -/
theorem haltRegion_struck {r : Nat} (hr : r < 16) (d : Die) (s : State) (q : Nat) :
    blockMarks (reg (dieOf (haltRegion d r s) d) q) = blockMarks (reg (dieOf s d) q) ∧
      (reg (dieOf (haltRegion d r s) d) q).halted = ((reg (dieOf s d) q).halted || decide (r = q)) := by
  by_cases hq : q = r
  · subst hq
    rw [reg_haltRegion_self hr]
    simp [blockMarks]
  · have hreg : reg (dieOf (haltRegion d r s) d) q = reg (dieOf s d) q := by
      unfold haltRegion
      rw [dieOf_onDie_self, reg_of_regions (regions_idleClock _), reg_dropRegion, reg_modReg_other _ hq]
    rw [hreg]
    simp [Ne.symm hq]

/-- One that is not halts the region and excludes its copy. -/
theorem eccEvent_uncorrectable_struck {r : Nat} (hr : r < 16) (d : Die) (a : Nat) (s : State) :
    EccStruck d (fun q => decide (r = q)) s (eccEvent d r a .uncorrectable s) := by
  have hnoted : CommitStands d s (onDie d (fun x => modReg x r (fun g => { g with eccAddr := BitVec.ofNat 32 a })) s) := by
    refine .onDie d (fun x => commitKept_modReg x r fun g => ?_) s
    rfl
  have hhalt : ∀ u, EccStruck d (fun q => decide (r = q)) u (excludeCopy d r .halted (logOpen cdECC (strapIdent (dieOf s d)) r 0 (BitVec.ofNat 64 a)
      (haltRegion d r u))) := by
    intro u
    have hex := excludeCopy_commitStands d r .halted (logOpen cdECC (strapIdent (dieOf s d)) r 0 (BitVec.ofNat 64 a) (haltRegion d r u))
    have hdie : RegionsAndClock (dropRegion r (dieOf u d)) (dieOf (haltRegion d r u) d) := haltRegion_die d r u
    unfold RegionsAndClock at hdie
    have hself := excludeCopy_excluded hr d .halted (logOpen cdECC (strapIdent (dieOf s d)) r 0 (BitVec.ofNat 64 a) (haltRegion d r u))
    have hst := hex.eccStruck
    refine ⟨hst.mode, hst.cycle, hst.strap.trans ?_, hst.cycleNo.trans ?_, fun q hq => (hst.marks q hq).trans (haltRegion_struck hr d u q).1,
      fun q hq => ?_, hst.out, fun q _ _ hb => ?_⟩
    · rw [dieOf_logOpen, hdie]
      rfl
    · rw [dieOf_logOpen, hdie]
      rfl
    · rw [hst.halted q hq, Bool.or_false]
      exact (haltRegion_struck hr d u q).2
    · rw [← of_decide_eq_true hb]
      exact hself
  have h := hnoted.eccStruck.trans (hhalt _)
  simp only [Bool.false_or] at h
  unfold eccEvent
  exact h

/-- Errors are met in the regions that still run. -/
def eccMet (d : Die) (e : Ecc) (s : State) (q : Nat × Nat) : State :=
  if decide (q.1 < 16) && !(reg (dieOf s d) q.1).halted then eccEvent d q.1 q.2 e s else s

theorem eccMet_struck (d : Die) (s : State) (a : Nat × Nat) :
    EccStruck d (fun q => decide (a.1 = q)) s (eccMet d .uncorrectable s a) := by
  unfold eccMet
  split
  · rename_i hlive
    simp only [Bool.and_eq_true, decide_eq_true_eq] at hlive
    exact eccEvent_uncorrectable_struck hlive.1 d a.2 s
  · rename_i hlive
    simp only [Bool.and_eq_true, decide_eq_true_eq, Bool.not_eq_true', not_and, Bool.not_eq_false] at hlive
    refine ⟨rfl, rfl, rfl, rfl, fun _ _ => rfl, fun q hq => ?_, fun _ h => h, fun q hq hh hb => ?_⟩
    · by_cases ha : a.1 = q
      · have := hlive (by omega)
        rw [ha] at this
        simp [this]
      · simp [ha]
    · have ha := of_decide_eq_true hb
      have := hlive (by omega)
      rw [ha, hh] at this
      cases this

theorem foldl_eccMet_struck (d : Die) (l : List (Nat × Nat)) (s : State) :
    EccStruck d (fun r => l.any (fun q => decide (q.1 = r))) s (l.foldl (eccMet d .uncorrectable) s) := by
  induction l generalizing s with
  | nil => exact (CommitStands.refl d s).eccStruck
  | cons a l ih => exact (eccMet_struck d s a).trans (ih _)

/-- Each region with an uncorrectable error in what it digests halts and is excluded. -/
theorem commitEcc_struck (d : Die) (ci : CommitIn) (s : State) :
    EccStruck d (fun r => ci.uncorrectable.any (fun q => decide (q.1 = r))) s (commitEcc d ci s) := by
  have hcorrected : CommitStands d s (ci.corrected.foldl (eccMet d .corrected) s) :=
    .foldl (fun (t : State) (q : Nat × Nat) => .ite (eccEvent_corrected_stands d q.1 q.2 t) (.refl d t)) _ s
  have h := hcorrected.eccStruck.trans (foldl_eccMet_struck d ci.uncorrectable _)
  simp only [Bool.false_or] at h
  exact h

/-! ## The block of a region (06 R202, R203) -/

/-- Two dies differ at most in region `r` and in what is not strap and cycle. -/
structure OtherRegions (r : Nat) (x y : DieSt) : Prop where
  strap : y.strap = x.strap
  cycleNo : y.cycleNo = x.cycleNo
  others : ∀ q, q ≠ r → reg y q = reg x q

theorem SameButRegion.otherRegions {r : Nat} {x y : DieSt} (h : SameButRegion r x y) : OtherRegions r x y := by
  obtain ⟨hx, hregs⟩ := h
  exact ⟨by rw [hx], by rw [hx], hregs⟩

theorem OtherRegions.trans {r : Nat} {x y z : DieSt} (h : OtherRegions r x y) (k : OtherRegions r y z) : OtherRegions r x z :=
  ⟨k.strap.trans h.strap, k.cycleNo.trans h.cycleNo, fun q hq => (k.others q hq).trans (h.others q hq)⟩

theorem buildPayload_sameButRegion (c : CommitCx) (r : Nat) (x : DieSt) : SameButRegion r x (buildPayload c r x).1 := by
  have hpost : ∀ y, SameButRegion r y (postEvent r 0xC4 y) := fun y => sameButRegion_modReg r y _
  have hcut : ∀ b : Bool, SameButRegion r x (if b then postEvent r 0xC4 x else x) := by
    intro b
    cases b
    · exact .refl r x
    · exact hpost x
  unfold buildPayload
  dsimp only
  split
  · dsimp only
    exact (hpost x).trans (sameButRegion_modReg r _ _)
  · generalize appPart c.part _ = a
    generalize List.flatMap recWords _ = sup
    have hlen := (hcut a.2).trans (sameButRegion_modReg r _ (fun g => { g with sup := { g.sup with appLen := BitVec.ofNat 32 (4 * a.1.length) } }))
    generalize modReg _ r _ = y at hlen ⊢
    split
    · dsimp only
      exact (hlen.trans (hpost y)).trans (sameButRegion_modReg r _ _)
    · dsimp only
      exact hlen.trans (sameButRegion_modReg r y _)

theorem commitRegion_otherRegions (c : CommitCx) (x : DieSt) (r : Nat) : OtherRegions r x (commitRegion c x r) := by
  have hmod := fun y f => (sameButRegion_modReg r y f).otherRegions
  have hfeed : ∀ b y, OtherRegions r y (feedCommit b y) := fun b y => ⟨rfl, rfl, fun _ _ => rfl⟩
  unfold commitRegion
  dsimp only
  split
  · exact hmod _ _
  · exact (((buildPayload_sameButRegion c r x).otherRegions.trans (hmod _ _)).trans (hfeed _ _)).trans (hmod _ _)

/-- A region that has halted, or whose pair has stopped for the cycle, sends none. -/
theorem reg_commitRegion_stopped (c : CommitCx) {x : DieSt} {r : Nat} (hr : r < 16) (h : (reg x r).halted = true ∨ (reg x r).haltCycle = true) :
    reg (commitRegion c x r) r = { reg x r with sent := [] } := by
  have htest : ((reg x r).halted || (reg x r).haltCycle) = true := by simpa using h
  unfold commitRegion
  dsimp only
  rw [if_pos htest, reg_modReg_self _ hr]

/-- The block of a region, in true form (06 Table 6.1): its number and cycle, and the restrictive form where it is forced. -/
def BlockOf (x : DieSt) (r : Nat) (b : Block) : Prop :=
  b.region = r ∧ b.cycle = x.cycleNo ∧ (blockForced (reg x r) = true → b.share = 0 ∧ b.expect = 0 ∧ b.summary = 0x3F ∧ b.payload = [])

/-- A region that runs sends its block, in the die's encoding. -/
theorem reg_commitRegion_sent (c : CommitCx) {x : DieSt} {r : Nat} (hr : r < 16) (hh : (reg x r).halted = false)
    (hc : (reg x r).haltCycle = false) :
    (reg (commitRegion c x r) r).forceNext = false ∧
      ∃ b, (reg (commitRegion c x r) r).sent = (blockWords b).map (encodeWord x.strap) ∧ BlockOf x r b := by
  have htest : ¬ ((reg x r).halted || (reg x r).haltCycle) = true := by simp [hh, hc]
  unfold commitRegion BlockOf
  dsimp only
  rw [if_neg htest, reg_modReg_self _ hr]
  refine ⟨rfl, _, rfl, rfl, rfl, fun hforced => ?_⟩
  simp only [hforced, if_true, and_self]

theorem reg_foldl_commitRegion_other (c : CommitCx) {r : Nat} {l : List Nat} (hr : r ∉ l) (x : DieSt) :
    reg (l.foldl (commitRegion c) x) r = reg x r := by
  induction l generalizing x with
  | nil => rfl
  | cons q l ih =>
    obtain ⟨hq, hl⟩ := not_or.mp (List.mem_cons.not.mp hr)
    exact (ih hl _).trans ((commitRegion_otherRegions c x q).others r hq)

/-- Among regions committed in turn each is committed as it stood. -/
theorem reg_foldl_commitRegion (c : CommitCx) {r : Nat} {l : List Nat} (hl : l.Nodup) (hr : r ∈ l) (x : DieSt) :
    ∃ z, z.strap = x.strap ∧ z.cycleNo = x.cycleNo ∧ reg z r = reg x r ∧ reg (l.foldl (commitRegion c) x) r = reg (commitRegion c z r) r := by
  induction l generalizing x with
  | nil => cases hr
  | cons q l ih =>
    obtain ⟨hq, hl⟩ := List.nodup_cons.mp hl
    by_cases hqr : r = q
    · subst hqr
      exact ⟨x, rfl, rfl, rfl, reg_foldl_commitRegion_other c hq _⟩
    · have hone := commitRegion_otherRegions c x q
      obtain ⟨z, hstrap, hcycle, hreg, hlast⟩ := ih hl ((List.mem_cons.mp hr).resolve_left hqr) (commitRegion c x q)
      exact ⟨z, hstrap.trans hone.strap, hcycle.trans hone.cycleNo, hreg.trans (hone.others r hqr), hlast⟩

/-- COMMIT of a die: IDLE, and each region committed as it stood. -/
theorem commitDie_regions (c : CommitCx) (x : DieSt) {r : Nat} (hr : r < 16) :
    ∃ z, z.strap = x.strap ∧ z.cycleNo = x.cycleNo ∧ reg z r = reg x r ∧ reg (commitDie c x) r = reg (commitRegion c z r) r := by
  have hmem : r ∈ numsFrom 0 16 := mem_numsFrom.mpr ⟨Nat.zero_le r, by omega⟩
  have hnodup : (numsFrom 0 16).Nodup := by decide
  unfold commitDie
  dsimp only
  have hcells : ∀ f, (mapCells x f).strap = x.strap ∧ (mapCells x f).cycleNo = x.cycleNo ∧ reg (mapCells x f) r = reg x r :=
    fun _ => ⟨rfl, rfl, rfl⟩
  generalize hy : mapCells x _ = y
  obtain ⟨hstrap, hcycle, hreg⟩ : y.strap = x.strap ∧ y.cycleNo = x.cycleNo ∧ reg y r = reg x r := hy ▸ hcells _
  generalize numsFrom 0 16 = l at hmem hnodup ⊢
  obtain ⟨z, hz, hzc, hzr, hlast⟩ := reg_foldl_commitRegion c hnodup hmem y
  exact ⟨z, hz.trans hstrap, hzc.trans hcycle, hzr.trans hreg, (reg_of_regions rfl r).trans hlast⟩

/-! ## The row -/

theorem dieOf_dieCommitted (d : Die) (ci : CommitIn) (s : State) :
    (dieOf (dieCommitted d ci s) d).phase = phIDLE ∧
      ∃ c, ∀ r, reg (dieOf (dieCommitted d ci s) d) r = reg (commitDie c (dieOf (commitEcc d ci s) d)) r := by
  have hheart : dieOf (fixHeart (commitEcc d ci s)) d = dieOf (commitEcc d ci s) d := by
    unfold fixHeart handoverOffer
    dsimp only
    split
    · rfl
    · split <;> rfl
  unfold dieCommitted
  dsimp only
  rw [dieOf_onDie_self, hheart]
  generalize dieOf (commitEcc d ci s) d = x
  generalize hy : commitDie _ x = y
  have hphase : y.phase = phIDLE := by
    rw [← hy]
    rfl
  refine ⟨hphase, commitCxOf (fixHeart (commitEcc d ci s)), fun r => ?_⟩
  rw [hy]
  exact reg_of_regions rfl r

theorem dieCommitted_keeps (d : Die) (ci : CommitIn) (s : State) :
    (dieCommitted d ci s).mode = s.mode ∧ (dieCommitted d ci s).cycle = s.cycle ∧ (dieCommitted d ci s).vote = (commitEcc d ci s).vote := by
  have hecc := commitEcc_struck d ci s
  have hheart : ∀ u, (fixHeart u).mode = u.mode ∧ (fixHeart u).cycle = u.cycle ∧ (fixHeart u).vote = u.vote := by
    intro u
    unfold fixHeart handoverOffer
    dsimp only
    split
    · exact ⟨rfl, rfl, rfl⟩
    · split <;> exact ⟨rfl, rfl, rfl⟩
  obtain ⟨hm, hc, hv⟩ := hheart (commitEcc d ci s)
  exact ⟨hm.trans hecc.mode, hc.trans hecc.cycle, hv⟩

theorem commitReady_iff (x : DieSt) : commitReady x = true ↔ x.phase = phRULESOUT ∧ regionsDone x = true := by
  simp [commitReady]

/-- A region that the row commits stands, but for a halt of its own errors, as before it. -/
theorem commitRow_region (d : Die) (ci : CommitIn) (s : State) {r : Nat} (hr : r < 16) :
    ∃ c z, z.strap = (dieOf s d).strap ∧ z.cycleNo = (dieOf s d).cycleNo ∧ blockMarks (reg z r) = blockMarks (reg (dieOf s d) r) ∧
      (reg z r).halted = ((reg (dieOf s d) r).halted || ci.uncorrectable.any (fun q => decide (q.1 = r))) ∧
      blockParts (reg (dieOf (commitRow d ci s) d) r) = blockParts (reg (commitRegion c z r) r) := by
  have hecc := commitEcc_struck d ci s
  have hparts := (commitRow_commitStands d ci s).die.parts r hr
  obtain ⟨-, c, hregs⟩ := dieOf_dieCommitted d ci s
  rw [hregs] at hparts
  have hhalted := hecc.halted r hr
  have hmarks := hecc.marks r hr
  have hstrap' := hecc.strap
  have hcycle' := hecc.cycleNo
  generalize dieOf (commitEcc d ci s) d = x at *
  obtain ⟨z, hstrap, hcycleNo, hreg, hsent⟩ := commitDie_regions c x hr
  rw [hsent] at hparts
  rw [← hreg] at hhalted hmarks
  exact ⟨c, z, hstrap.trans hstrap', hcycleNo.trans hcycle', hmarks, hhalted, hparts⟩

theorem blockParts_eq {g h : RegionSt} (e : blockParts h = blockParts g) : h.halted = g.halted ∧ h.forceNext = g.forceNext ∧ h.sent = g.sent := by
  simp only [blockParts, Prod.mk.injEq] at e
  exact ⟨e.1, e.2.2.1, e.2.2.2.2.2.2⟩

theorem blockMarks_eq {g h : RegionSt} (e : blockMarks h = blockMarks g) : h.haltCycle = g.haltCycle ∧ blockForced h = blockForced g := by
  simp only [blockMarks, Prod.mk.injEq] at e
  obtain ⟨hc, hf, hi, ho, hd⟩ := e
  exact ⟨hc, by simp only [blockForced, hf, hi, ho, hd]⟩

/-- The copy of a region that its own errors halt is excluded when the row ends. -/
theorem commitRow_excluded {d : Die} {ci : CommitIn} {s : State} {r : Nat} (hr : r < 16) (hh : (reg (dieOf s d) r).halted = false)
    (hb : ci.uncorrectable.any (fun q => decide (q.1 = r)) = true) : isExcluded (copyOf (commitRow d ci s).vote d r) = true := by
  refine (commitRow_commitStands d ci s).out r ?_
  rw [(dieCommitted_keeps d ci s).2.2]
  exact (commitEcc_struck d ci s).struck r hr hh hb

/-- Settles O30: the errors that the digest meets halt their regions (`commitEcc_struck`), every region is committed as it then stands
(`commitDie_regions`), and what follows leaves its block (`commitRow_commitStands`). -/
theorem commitSendsBlocks : Obligations.CommitSendsBlocks := by
  intro s d ci
  dsimp only
  refine ⟨fun hphase hdone => ?_, fun h => ?_⟩
  · refine ⟨commitRow d ci s, congrArg Host.Outcome.next (if_pos ((commitReady_iff _).mpr ⟨hphase, hdone⟩)), ?_⟩
    have hrow := commitRow_commitStands d ci s
    obtain ⟨hmode, hcycle, -⟩ := dieCommitted_keeps d ci s
    refine ⟨hrow.die.phase.trans (dieOf_dieCommitted d ci s).1, hrow.mode.trans hmode, hrow.cycle.trans hcycle, fun r hr => ?_⟩
    have hexcluded := commitRow_excluded (d := d) (ci := ci) (s := s) hr
    obtain ⟨c, z, hstrap, hcycleNo, hmarks, hhalted, hparts⟩ := commitRow_region d ci s hr
    obtain ⟨hhalt, hforce, hsent⟩ := blockParts_eq hparts
    obtain ⟨hstop, hforced⟩ := blockMarks_eq hmarks
    generalize commitRow d ci s = t at *
    generalize ci.uncorrectable.any (fun q => decide (q.1 = r)) = bad at *
    refine ⟨fun h => ?_, fun hh hb => ⟨?_, hexcluded hh hb⟩, fun hh hc hb => ?_⟩
    · -- no block of a region that has stopped
      have hz : (reg z r).halted = true ∨ (reg z r).haltCycle = true := by
        rw [hhalted, hstop]
        rcases h with h | h | h
        · simp [h]
        · exact .inr h
        · simp [h]
      rw [hsent, reg_commitRegion_stopped c hr hz]
    · -- its errors have halted it
      rw [hb, Bool.or_true] at hhalted
      rw [hhalt, reg_commitRegion_stopped c hr (.inl hhalted)]
      exact hhalted
    · -- the block of a region that runs
      rw [hh, hb] at hhalted
      rw [hc] at hstop
      obtain ⟨hnext, b, hb, hregion, hbcycle, hrestrict⟩ := reg_commitRegion_sent c hr hhalted hstop
      rw [hstrap] at hb
      rw [hcycleNo] at hbcycle
      rw [hforced] at hrestrict
      exact ⟨hforce.trans hnext, b, hsent.trans hb, hregion, hbcycle, hrestrict⟩
  · have htest : ¬ commitReady (dieOf s d) = true := by
      rw [commitReady_iff]
      rintro ⟨hp, hd⟩
      rcases h with h | h
      · exact h hp
      · rw [hd] at h
        cases h
    exact ⟨s, congrArg Host.Outcome.next (if_neg htest), rfl⟩

end Sys2Proof.Machine

/-!
PROOFS. Readings that are taken, the steps of a window end, checkers and faults of inputs, and input events (07 R239, R244, R246, R248,
R251): O36.
-/

namespace Sys2Proof.Machine

/-! ## Readings that are taken (07 R248) -/

theorem inCell_putInCell (n p : Nat) (c : InCell) (x : InSt) : inCell (putInCell n c x) p = if n = p then c else inCell x p :=
  getA_putA inCellReset c n p x.cells

/-- An input with the readings that its state gives. -/
def readCell (x : InSt) (n : Nat) : InCell :=
  let c := inCell x n
  { c with h := { c.h with read := readingOf x n .h }, l := { c.l with read := readingOf x n .l } }

/-- The readings of the inputs `ns` have been taken, and nothing else has changed of inputs, pairs and configuration. -/
structure ReadsTaken (ns : List Nat) (x y : InSt) : Prop where
  cfg : y.cfg = x.cfg
  pairs : y.pairs = x.pairs
  cells : ∀ p, inCell y p = if p ∈ ns then readCell x p else inCell x p

/-- A reading depends on filtered states, faults and checkers, which taking readings leaves alone. -/
theorem ReadsTaken.reading {ns : List Nat} {x y : InSt} (h : ReadsTaken ns x y) (n : Nat) (half : Side) :
    readingOf y n half = readingOf x n half := by
  have hbad : ∀ m, inFaultStands (inCell y m) = inFaultStands (inCell x m) := fun m => by
    rw [h.cells]
    split <;> rfl
  have hfilt : (inHalf (inCell y n) half).filt = (inHalf (inCell x n) half).filt := by
    rw [h.cells]
    cases half <;> split <;> rfl
  have hpair : pairOf y n = pairOf x n := by rw [pairOf, pairOf, inCfg, h.cfg, inCfg]
  have hdisc : inDiscStands y n = inDiscStands x n := by
    have hpairs : pairSt y = pairSt x := by
      funext j
      rw [pairSt, h.pairs, pairSt]
    rw [inDiscStands, inDiscStands, hpair, hpairs]
  rw [readingOf, readingOf, hpair, hdisc]
  simp only [hbad, hfilt]

theorem ReadsTaken.readCell_eq {ns : List Nat} {x y : InSt} (h : ReadsTaken ns x y) (p : Nat) : readCell y p = readCell x p := by
  simp only [readCell, h.reading, h.cells p]
  split <;> rfl

theorem ReadsTaken.cons {n : Nat} {ns : List Nat} {x y z : InSt} (h : ReadsTaken [n] x y) (k : ReadsTaken ns y z) : ReadsTaken (n :: ns) x z := by
  refine ⟨k.cfg.trans h.cfg, k.pairs.trans h.pairs, fun p => ?_⟩
  rw [k.cells, h.readCell_eq, h.cells]
  by_cases hp : p ∈ ns <;> simp [hp]

/-- A reading that has been taken is the one that the state still gives. -/
theorem ReadsTaken.read {ns : List Nat} {x y : InSt} (h : ReadsTaken ns x y) {n : Nat} (hn : n ∈ ns) :
    (inCell y n).h.read = readingOf y n .h ∧ (inCell y n).l.read = readingOf y n .l := by
  rw [h.reading, h.reading, h.cells, if_pos hn]
  exact ⟨rfl, rfl⟩

theorem fallStep_reads (before x : InSt) (n : Nat) : ReadsTaken [n] x (fallStep before x n).1 := by
  have hput : ReadsTaken [n] x (putInCell n (readCell x n) x) := by
    refine ⟨rfl, rfl, fun p => ?_⟩
    rw [inCell_putInCell]
    by_cases hp : n = p
    · subst hp
      simp
    · simp [hp, Ne.symm hp]
  unfold fallStep
  dsimp only
  split
  · exact ⟨hput.cfg, hput.pairs, hput.cells⟩
  · exact hput

/-- Looking for falls at inputs in turn takes their readings. -/
theorem foldOut_fallStep_reads (before : InSt) (key : Nat → Nat) :
    ∀ (ks : List Nat) (x : InSt), ReadsTaken (ks.map key) x (foldOut (fun y k => fallStep before y (key k)) x ks).1
  | [], _ => ⟨rfl, rfl, fun _ => (if_neg List.not_mem_nil).symm⟩
  | k :: ks, x => (fallStep_reads before x (key k)).cons (foldOut_fallStep_reads before key ks _)

theorem windowFrom_reads (before x : InSt) (ns : List Nat) (logs : List LogReq) : ReadsTaken ns x (windowFrom before x ns logs).st := by
  have h := foldOut_fallStep_reads before id ns x
  rwa [List.map_id] at h

/-- An input with a discrepancy reads OFF (07 R248). -/
theorem readingOf_latched {x : InSt} {n : Nat} (hc : cfgPair (inCfg x n) ≠ 0) (hl : pairLatched (pairSt x (n / 2)) = true) (half : Side) :
    readingOf x n half = false := by
  have hpair : pairOf x n = some (n / 2) := if_neg hc
  simp [readingOf, inDiscStands, hpair, hl]

/-! ## Steps of the inputs of a group (07 Table 7.3) -/

/-- Two sides agree in the configuration and in every input but `n`. -/
def OnlyInput (n : Nat) (x y : InSt) : Prop := y.cfg = x.cfg ∧ ∀ p, p ≠ n → inCell y p = inCell x p

theorem onlyInput_putInCell (n : Nat) (c : InCell) (x : InSt) : OnlyInput n x (putInCell n c x) :=
  ⟨rfl, fun p hp => by rw [inCell_putInCell, if_neg (Ne.symm hp)]⟩

/-- Every input of group `g` has made a step of `R`, and no other has changed. -/
structure GroupStep (g : Nat) (R : Nat → InCell → InCell → Prop) (x y : InSt) : Prop where
  cfg : y.cfg = x.cfg
  others : ∀ p, p / 16 ≠ g → inCell y p = inCell x p
  inputs : ∀ k, k < 16 → R k (inCell x (16 * g + k)) (inCell y (16 * g + k))

section
variable {β : Type} {g : Nat} {w : List (Nat × Word)} {f : InSt → Nat → InSt × List β} {R : Nat → InCell → InCell → Prop}
  (hf : ∀ z k, z.cfg = w → OnlyInput (16 * g + k) z (f z k).1 ∧ R k (inCell z (16 * g + k)) (inCell (f z k).1 (16 * g + k)))
include hf

/-- Steps at distinct inputs: each finds its input as it stood, and its step stands at the end. -/
theorem foldOut_inputs : ∀ (ks : List Nat) (x : InSt), ks.Nodup → x.cfg = w →
    (foldOut f x ks).1.cfg = w ∧ (∀ p, (∀ k ∈ ks, p ≠ 16 * g + k) → inCell (foldOut f x ks).1 p = inCell x p) ∧
      ∀ k ∈ ks, R k (inCell x (16 * g + k)) (inCell (foldOut f x ks).1 (16 * g + k))
  | [], _, _, hw => ⟨hw, fun _ _ => rfl, fun _ hk => by cases hk⟩
  | a :: ks, x, hnodup, hw => by
    obtain ⟨ha, hnodup⟩ := List.nodup_cons.mp hnodup
    obtain ⟨⟨hcfg, hothers⟩, hstep⟩ := hf x a hw
    obtain ⟨hend, hrest, hsteps⟩ := foldOut_inputs ks (f x a).1 hnodup (hcfg.trans hw)
    refine ⟨hend, fun p hp => ?_, fun k hk => ?_⟩
    · obtain ⟨hpa, hp⟩ := List.forall_mem_cons.mp hp
      exact (hrest p hp).trans (hothers p hpa)
    · rcases List.mem_cons.mp hk with rfl | hk
      · have hlast : inCell (foldOut f x (k :: ks)).1 (16 * g + k) = inCell (f x k).1 (16 * g + k) :=
          hrest _ fun j hj e => ha ((Nat.add_left_cancel e) ▸ hj)
        rwa [hlast]
      · have hne : 16 * g + k ≠ 16 * g + a := fun e => ha ((Nat.add_left_cancel e) ▸ hk)
        rw [← hothers _ hne]
        exact hsteps k hk

theorem foldOut_groupStep {x : InSt} (hw : x.cfg = w) : GroupStep g R x (foldOut f x (numsFrom 0 16)).1 := by
  obtain ⟨hcfg, hothers, hsteps⟩ := foldOut_inputs hf (numsFrom 0 16) x (by decide) hw
  refine ⟨hcfg.trans hw.symm, fun p hp => hothers p fun k hk e => hp ?_, fun k hk => hsteps k (mem_numsFrom.mpr ⟨Nat.zero_le k, by omega⟩)⟩
  have := (mem_numsFrom.mp hk).2
  omega

end

/-- The counters and filtered states of both halves have taken a sample (07 R239). -/
def FilterSteps (cfg : Word) (q : InSample) (c e : InCell) : Prop :=
  (e.h.cnt, e.h.filt) = filterStep (cfgFilterN cfg) q.rawH c.h.cnt c.h.filt ∧
    (e.l.cnt, e.l.filt) = filterStep (cfgFilterN cfg) q.rawL c.l.cnt c.l.filt

theorem groupFilter_step (g : Nat) (samples : List InSample) (x : InSt) :
    GroupStep g (fun k => FilterSteps (inCfg x (16 * g + k)) (samples.getD k sampleOff)) x (groupFilter g samples x).1 := by
  refine foldOut_groupStep (w := x.cfg) (fun z k hz => ⟨onlyInput_putInCell _ _ z, ?_⟩) rfl
  have hcfg : inCfg z (16 * g + k) = inCfg x (16 * g + k) := by rw [inCfg, hz, inCfg]
  dsimp only
  rw [inCell_putInCell, if_pos rfl, hcfg]
  exact ⟨rfl, rfl⟩

/-- The fault of an input has been judged: its halves stand, and a half without its cross-link word sets it (07 R244). -/
def FaultSteps (links : Bool) (c e : InCell) : Prop := e.h = c.h ∧ e.l = c.l ∧ (links = false → e.fault = true)

/-- A missing cross-link word is a cause wherever no other shows. -/
theorem inCause_of_unlinked {linkH linkL : Bool} (h : (linkH && linkL) = false) (x : InSt) (n : Nat) (apart : Bool) :
    inCause x n linkH linkL apart ≠ none := by
  unfold inCause
  dsimp only
  rcases Bool.and_eq_false_iff.mp h with rfl | rfl
  · simp only [Bool.not_false, if_true]
    split_ifs <;> exact Option.some_ne_none _
  · simp only [Bool.not_false, if_true]
    split_ifs <;> exact Option.some_ne_none _

theorem faultStep_step (x : InSt) (n : Nat) (linkH linkL apart : Bool) :
    OnlyInput n x (faultStep x n linkH linkL apart).1 ∧
      FaultSteps (linkH && linkL) (inCell x n) (inCell (faultStep x n linkH linkL apart).1 n) := by
  have hput : ∀ c, FaultSteps (linkH && linkL) (inCell x n) c →
      OnlyInput n x (putInCell n c x) ∧ FaultSteps (linkH && linkL) (inCell x n) (inCell (putInCell n c x) n) := fun c hc =>
    ⟨onlyInput_putInCell n c x, by rwa [inCell_putInCell, if_pos rfl]⟩
  unfold faultStep
  dsimp only
  split
  · exact hput _ ⟨rfl, rfl, fun _ => rfl⟩
  · rename_i hclean
    have hlinks : ¬ (linkH && linkL) = false := fun h => inCause_of_unlinked h x n apart hclean
    split_ifs
    · exact ⟨⟨rfl, fun _ _ => rfl⟩, rfl, rfl, fun h => absurd h hlinks⟩
    · exact hput _ ⟨rfl, rfl, fun h => absurd h hlinks⟩
    · exact hput _ ⟨rfl, rfl, fun h => absurd h hlinks⟩

/-- The 16th clean window clears an input fault (07 R244). -/
theorem faultStep_clears {x : InSt} {n : Nat} {linkH linkL apart : Bool} (hf : (inCell x n).fault = true) (hc : 15 ≤ (inCell x n).clean)
    (hcause : inCause x n linkH linkL apart = none) :
    (faultStep x n linkH linkL apart).1 = putInCell n { inCell x n with fault := false, clean := 0 } x := by
  simp [faultStep, hcause, hf, hc]

/-- No input differs, nor the configuration. -/
def SameInputs (x y : InSt) : Prop := y.cfg = x.cfg ∧ y.cells = x.cells

theorem SameInputs.trans {x y z : InSt} (h : SameInputs x y) (k : SameInputs y z) : SameInputs x z := ⟨k.1.trans h.1, k.2.trans h.2⟩

theorem foldOut_sameInputs {α β : Type} {f : InSt → α → InSt × List β} (hf : ∀ x a, SameInputs x (f x a).1) :
    ∀ (l : List α) (x : InSt), SameInputs x (foldOut f x l).1
  | [], _ => ⟨rfl, rfl⟩
  | a :: l, x => (hf x a).trans (foldOut_sameInputs hf l (f x a).1)

theorem pairStep_inputs (samples : List InSample) (g : Nat) (x : InSt) (k : Nat) : SameInputs x (pairStep samples g x k).1 := by
  unfold pairStep
  dsimp only
  split <;> exact ⟨rfl, rfl⟩

theorem apartStep_inputs (g : Nat) (x : InSt) : SameInputs x (apartStep g x).1 :=
  foldOut_sameInputs (fun _ _ => ⟨rfl, rfl⟩) (numsFrom 0 8) x

theorem GroupStep.sameInputs {g : Nat} {R : Nat → InCell → InCell → Prop} {x y z : InSt} (h : GroupStep g R x y) (k : SameInputs y z) :
    GroupStep g R x z := by
  have hcell : inCell z = inCell y := by
    funext p
    rw [inCell, k.2, inCell]
  exact ⟨k.1.trans h.cfg, hcell ▸ h.others, hcell ▸ h.inputs⟩

/-- The faults of a group are judged; `apart` lists the pairs whose halves differ for the second time. -/
def judgeFaults (g : Nat) (linkH linkL : Bool) (apart : List Nat) (x : InSt) : InSt :=
  (foldOut (fun x k => faultStep x (16 * g + k) linkH linkL ((pairOf x (16 * g + k)).isSome && apart.contains ((16 * g + k) / 2))) x
    (numsFrom 0 16)).1

theorem judgeFaults_step (g : Nat) (linkH linkL : Bool) (apart : List Nat) (x : InSt) :
    GroupStep g (fun _ => FaultSteps (linkH && linkL)) x (judgeFaults g linkH linkL apart x) :=
  foldOut_groupStep (fun z k _ => faultStep_step z (16 * g + k) linkH linkL _) rfl

/-- The inputs after counters, filters and checkers of a window. -/
def filtered (g : Nat) (samples : List InSample) (x : InSt) : InSt × List Nat :=
  apartStep g (foldOut (pairStep samples g) (groupFilter g samples x).1 (numsFrom 0 8)).1

/-- Of these the checkers change no input. -/
theorem filtered_step (g : Nat) (samples : List InSample) (x : InSt) :
    GroupStep g (fun k => FilterSteps (inCfg x (16 * g + k)) (samples.getD k sampleOff)) x (filtered g samples x).1 := by
  have h := groupFilter_step g samples x
  unfold filtered
  generalize (groupFilter g samples x).1 = y at h ⊢
  exact h.sameInputs ((foldOut_sameInputs (pairStep_inputs samples g) _ y).trans (apartStep_inputs g _))

/-- The inputs of a group. -/
def groupInputs (g : Nat) : List Nat := (numsFrom 0 16).map (16 * g + ·)

theorem mem_groupInputs {g p : Nat} : p ∈ groupInputs g ↔ p / 16 = g := by
  simp only [groupInputs, List.mem_map, mem_numsFrom]
  constructor
  · rintro ⟨k, ⟨-, hk⟩, rfl⟩
    omega
  · intro h
    exact ⟨p % 16, by omega, by omega⟩

/-- The readings of a group are taken last. -/
theorem windowEnd_reads (g : Nat) (samples : List InSample) (linkH linkL : Bool) (x : InSt) :
    ReadsTaken (groupInputs g) (judgeFaults g linkH linkL (filtered g samples x).2 (filtered g samples x).1)
      (windowEnd g samples linkH linkL x).st := by
  obtain ⟨v, hv⟩ : ∃ v, (windowEnd g samples linkH linkL x).st =
      (foldOut (fun z k => fallStep x z (16 * g + k))
        { judgeFaults g linkH linkL (filtered g samples x).2 (filtered g samples x).1 with windows := v } (numsFrom 0 16)).1 := by
    unfold windowEnd judgeFaults filtered
    generalize numsFrom 0 16 = ks
    exact ⟨_, rfl⟩
  rw [hv]
  generalize judgeFaults g linkH linkL _ _ = y
  obtain ⟨hcfg, hpairs, hcells⟩ := foldOut_fallStep_reads x (16 * g + ·) (numsFrom 0 16) { y with windows := v }
  exact ⟨hcfg, hpairs, hcells⟩

end Sys2Proof.Machine

/-!
PROOFS. What a window, a checker and a fault give the module, input events, and the commands of the inputs (07 R246, R251, R252; 04 R161): O36.
-/

namespace Sys2Proof.Machine

/-! ## Taking a window -/

/-- At most the input event spools of the dies differ. -/
def EventsPosted (s t : State) : Prop := t = { s with dies := t.dies } ∧ ∀ e, ∃ z, dieOf t e = { dieOf s e with evSpool := z }

theorem postFalls_posts (ns : List Nat) (s : State) : EventsPosted s (postFalls ns s) := by
  unfold postFalls
  split
  · exact ⟨rfl, fun _ => ⟨_, rfl⟩⟩
  · refine List.foldlRecOn _ _ ⟨rfl, fun _ => ⟨_, rfl⟩⟩ fun t ⟨ht, hdies⟩ n _ => ⟨?_, fun e => ?_⟩
    · rw [ht]
      rfl
    · obtain ⟨z, hz⟩ := hdies e
      dsimp only
      rw [dieOf_onDies, hz]
      exact ⟨_, rfl⟩

/-- A window's inputs are taken; its falls reach the event spools alone, its records the tail. -/
theorem takeWindow_keeps (w : WindowOut) (s : State) :
    (takeWindow w s).ins = w.st ∧ (takeWindow w s).outs = s.outs ∧ (takeWindow w s).mode = s.mode ∧
      ∀ e, (dieOf (takeWindow w s) e).cells = (dieOf s e).cells ∧ (dieOf (takeWindow w s) e).regions = (dieOf s e).regions := by
  obtain ⟨hpost, hdies⟩ := postFalls_posts w.falls { s with ins := w.st }
  unfold takeWindow
  rw [logAll_tail]
  generalize postFalls w.falls { s with ins := w.st } = u at hpost hdies ⊢
  refine ⟨?_, ?_, ?_, fun e => ?_⟩
  · rw [hpost]
  · rw [hpost]
  · rw [hpost]
  · obtain ⟨z, hz⟩ := hdies e
    show (dieOf u e).cells = _ ∧ (dieOf u e).regions = _
    rw [hz]
    exact ⟨rfl, rfl⟩

/-! ## Checkers (07 R246) -/

theorem checkerOf_putChecker (half : Side) (c : Checker) (p : PairSt) : checkerOf (putChecker half c p) half = c := by
  cases half <;> rfl

theorem pairLatched_of_checkerOf {p : PairSt} {half : Side} (h : isLatched (checkerOf p half) = true) : pairLatched p = true := by
  cases half
  · exact Bool.or_eq_true_iff.mpr (.inl h)
  · exact Bool.or_eq_true_iff.mpr (.inr h)

/-- A checker's new state stands in its pair alone, and both inputs of the pair are read after it. -/
theorem setChecker_takes (half : Side) (j : Nat) (c : Checker) (s : State) :
    ReadsTaken [2 * j, 2 * j + 1] { s.ins with pairs := putA pairReset j (putChecker half c (pairSt s.ins j)) s.ins.pairs }
        (setChecker half j c s).ins ∧
      (setChecker half j c s).outs = s.outs ∧ (setChecker half j c s).mode = s.mode := by
  obtain ⟨hins, houts, hmode, -⟩ := takeWindow_keeps (windowFrom s.ins
    { s.ins with pairs := putA pairReset j (putChecker half c (pairSt s.ins j)) s.ins.pairs } [2 * j, 2 * j + 1] _) s
  refine ⟨?_, houts, hmode⟩
  unfold setChecker
  dsimp only
  rw [hins]
  exact windowFrom_reads ..

theorem setChecker_pairs (half : Side) (j : Nat) (c : Checker) (s : State) :
    checkerOf (pairSt (setChecker half j c s).ins j) half = c ∧ ∀ i, i ≠ j → pairSt (setChecker half j c s).ins i = pairSt s.ins i := by
  have hpairs := (setChecker_takes half j c s).1.pairs
  refine ⟨?_, fun i hi => ?_⟩
  · rw [pairSt, hpairs, getA_putA_self, checkerOf_putChecker]
  · rw [pairSt, hpairs]
    exact getA_putA_other _ _ _ hi

/-- An input of a pair reads OFF once a checker of it has latched (07 R248). -/
theorem setChecker_latched_reads (half : Side) {j n : Nat} (m : Nat) {s : State} (hn : n / 2 = j) (hc : cfgPair (inCfg s.ins n) ≠ 0) :
    (inCell (setChecker half j (.latched m) s).ins n).h.read = false ∧ (inCell (setChecker half j (.latched m) s).ins n).l.read = false := by
  have htaken := (setChecker_takes half j (.latched m) s).1
  have hlatched : pairLatched (pairSt (setChecker half j (.latched m) s).ins (n / 2)) = true := by
    refine pairLatched_of_checkerOf (half := half) ?_
    rw [hn, (setChecker_pairs half j (.latched m) s).1]
    rfl
  have hcfg : inCfg (setChecker half j (.latched m) s).ins n = inCfg s.ins n := by rw [inCfg, htaken.cfg, inCfg]
  obtain ⟨hh, hl⟩ := htaken.read (n := n) (by simp; omega)
  rw [hh, hl]
  exact ⟨readingOf_latched (hcfg ▸ hc) hlatched .h, readingOf_latched (hcfg ▸ hc) hlatched .l⟩

theorem exec_discrepancyLatched {half : Side} {j m : Nat} {s : State} (hrun : gondolaRuns s = true) (hj : j < 96)
    (ht : checkerOf (pairSt s.ins j) half = .timing m) (hcond : pairCond s.ins half j = true) (hw : discWindows s.ins j ≤ m + 1) :
    exec (.discrepancyLatched half j) s = .next (setChecker half j (.latched 0) s) := by
  show execDiscrepancyLatched half j s = _
  simp [execDiscrepancyLatched, hrun, hj, ht, hcond, hw]

theorem exec_discrepancyLatched_idle {half : Side} {j : Nat} {s : State}
    (h : gondolaRuns s = false ∨ (∀ v, checkerOf (pairSt s.ins j) half ≠ .timing v) ∨ pairCond s.ins half j = false) :
    exec (.discrepancyLatched half j) s = .next s := by
  show execDiscrepancyLatched half j s = _
  unfold execDiscrepancyLatched
  split
  · rename_i n hn
    rcases h with h | h | h
    · simp [h]
    · exact absurd hn (h n)
    · simp [h]
  · rfl

theorem exec_discrepancyCleared {half : Side} {j m : Nat} {re ro : Bool} {s : State} (hrun : gondolaRuns s = true) (hj : j < 96)
    (ht : checkerOf (pairSt s.ins j) half = .latched m) (hc : cfgPair (inCfg s.ins (2 * j)) ≠ 0)
    (hsafe : safeSamples (cfgPair (inCfg s.ins (2 * j))) (cfgAntiSafe (inCfg s.ins (2 * j))) re ro = true)
    (hw : clearWindows s.ins j ≤ m + 1) :
    exec (.discrepancyCleared half j re ro) s = .next (setChecker half j .quiet s) := by
  show execDiscrepancyCleared half j re ro s = _
  simp [execDiscrepancyCleared, hrun, hj, ht, hc, hsafe, hw]

theorem exec_discrepancyCleared_idle {half : Side} {j : Nat} {re ro : Bool} {s : State}
    (h : gondolaRuns s = false ∨ isLatched (checkerOf (pairSt s.ins j) half) = false) :
    exec (.discrepancyCleared half j re ro) s = .next s := by
  show execDiscrepancyCleared half j re ro s = _
  unfold execDiscrepancyCleared
  dsimp only
  split
  · rename_i n hn
    rcases h with h | h
    · simp [h]
    · simp [hn, isLatched] at h
  · rfl

/-- The pair condition needs a pair. -/
theorem cfgPair_of_pairCond {x : InSt} {half : Side} {j : Nat} (h : pairCond x half j = true) : cfgPair (inCfg x (2 * j)) ≠ 0 := by
  intro h0
  simp [pairCond, discCond, h0] at h

/-! ## Input faults (07 R244) -/

/-- The inputs that are read together with an input: its pair, or itself where it has none. -/
def readWith (x : InSt) (n : Nat) : List Nat :=
  match pairOf x n with
  | some j => [2 * j, 2 * j + 1]
  | none => [n]

theorem readWith_eq (x : InSt) (n : Nat) :
    readWith x n = if cfgPair (inCfg x n) = 0 then [n] else [2 * (n / 2), 2 * (n / 2) + 1] := by
  unfold readWith pairOf
  by_cases hc : cfgPair (inCfg x n) = 0
  · rw [if_pos hc, if_pos hc]
  · rw [if_neg hc, if_neg hc]

theorem mem_readWith_self (x : InSt) (n : Nat) : n ∈ readWith x n := by
  rw [readWith_eq]
  split
  · exact List.mem_singleton_self n
  · simp only [List.mem_cons, List.not_mem_nil, or_false]
    omega

theorem div_two_of_mem_readWith {x : InSt} {n p : Nat} (h : p ∈ readWith x n) : p / 2 = n / 2 := by
  rw [readWith_eq] at h
  split at h
  · rw [List.mem_singleton.mp h]
  · simp only [List.mem_cons, List.not_mem_nil, or_false] at h
    omega

/-- The row clears the fault and reads the input and its partner after it. -/
theorem exec_inputFaultClear {n : Nat} {lh ll : Bool} {s : State} (hrun : gondolaRuns s = true) (hn : n < 192)
    (hf : (inCell s.ins n).fault = true) (hc : 15 ≤ (inCell s.ins n).clean)
    (hcause : inCause s.ins n (lh && !s.outs.stoppedH) (ll && !s.outs.stoppedL) (pairApart s.ins n) = none) :
    ∃ logs, exec (.inputFaultClear n lh ll) s = .next (takeWindow
      (windowFrom s.ins (putInCell n { inCell s.ins n with fault := false, clean := 0 } s.ins) (readWith s.ins n) logs) s) := by
  refine ⟨(faultStep s.ins n (lh && !s.outs.stoppedH) (ll && !s.outs.stoppedL) (pairApart s.ins n)).2, ?_⟩
  rw [← faultStep_clears hf hc hcause]
  have hguard : (gondolaRuns s && decide (n < 192) && (inCell s.ins n).fault && decide (15 ≤ (inCell s.ins n).clean) &&
      (inCause s.ins n (lh && !s.outs.stoppedH) (ll && !s.outs.stoppedL) (pairApart s.ins n)).isNone) = true := by
    simp [hrun, hn, hf, hc, hcause]
  exact congrArg Host.Outcome.next (if_pos hguard)

theorem exec_inputFaultClear_idle {n : Nat} {lh ll : Bool} {s : State}
    (h : gondolaRuns s = false ∨ (inCell s.ins n).fault = false ∨ (inCell s.ins n).clean < 15) :
    exec (.inputFaultClear n lh ll) s = .next s := by
  refine congrArg Host.Outcome.next (if_neg ?_)
  simp only [Bool.and_eq_true, decide_eq_true_eq]
  rintro ⟨⟨⟨⟨hrun, -⟩, hf⟩, hc⟩, -⟩
  rcases h with h | h | h
  · rw [hrun] at h
    cases h
  · rw [hf] at h
    cases h
  · omega

/-! ## Input events (04 R161; 10 R326) -/

theorem spRead_of_drop {α : Type} {p : Spool α} {x : α} {l : List α} (h : p.items.drop p.readPos = x :: l) :
    spIsEmpty p = false ∧ spRead true p = (x, { p with readPos := p.readPos + 1, last := x }) := by
  refine ⟨decide_eq_false fun hle => ?_, by simp [spRead, h]⟩
  rw [List.drop_eq_nil_of_le hle] at h
  cases h

theorem inputRegion_of_cells {x y : DieSt} (h : y.cells = x.cells) (n : Nat) : inputRegion y n = inputRegion x n := by
  rw [inputRegion, h, inputRegion]

/-- A source that a cell binds becomes pending in the region of that cell, which counts it. -/
theorem pendSource_region {r src : Nat} (hr : r < 16) {x : DieSt} (h : inputRegion x src = some r) :
    SameButRegion r x (pendSource src x) ∧
      CountsOnly { reg x r with pend := setBitOf (reg x r).pend src true } (reg (pendSource src x) r) := by
  obtain ⟨hsame, hcounts⟩ := pmcCount_only hr 0x18 (modReg x r (fun g => { g with pend := setBitOf g.pend src true }))
  rw [reg_modReg_self x hr] at hcounts
  simp only [pendSource, h]
  exact ⟨(sameButRegion_modReg r x _).trans hsame, hcounts⟩

/-- A start of REVERT leaves the other regions, and takes place wherever a source is pending in a region that runs and has the task. -/
theorem startRevert_region {r : Nat} (hr : r < 16) (x : DieSt) :
    (∀ q, q ≠ r → reg (startRevert r x) q = reg x q) ∧
      ((reg x r).pend ≠ 0 → (reg x r).halted = false → (reg x r).haltCycle = false → entryPoint x r tkREVERT ≠ 0 →
        (reg (startRevert r x) r).revert = true) := by
  unfold startRevert
  dsimp only
  split
  · rename_i hrests
    refine ⟨fun _ _ => rfl, fun hpend hhalt hcycle hentry => ?_⟩
    simp only [Bool.or_eq_true, decide_eq_true_eq, hpend, hhalt, hcycle, hentry, false_or, or_false, Bool.false_eq_true] at hrests
    exact hrests
  · generalize hy : modReg { x with fastClock := true } r _ = y
    obtain ⟨hsame, hcounts⟩ := pmcCount_only hr 0x0B y
    refine ⟨fun q hq => ?_, fun _ _ _ _ => ?_⟩
    · rw [hsame.2 q hq, ← hy, reg_modReg_other _ hq]
      rfl
    · rw [hcounts.1, ← hy, reg_modReg_self _ hr]

/-- The event controller has read an item of source `src` for region `r`. -/
structure EventTaken (r src : Nat) (x y : DieSt) : Prop where
  read : y.evSpool.readPos = x.evSpool.readPos + 1
  pending : bitOf (reg y r).pend src = true
  starts : entryPoint x r tkREVERT ≠ 0 → (reg x r).halted = false → (reg x r).haltCycle = false → (reg y r).revert = true
  others : ∀ q, q ≠ r → reg y q = reg x q
  cells : y.cells = x.cells

/-- A slice that runs on the region of an event is aborted. -/
def abortSlice (r : Nat) (x : DieSt) : DieSt := if x.sliceRun.any (fun q => decide (q.region = r)) then { x with sliceRun := none } else x

theorem abortSlice_only (r : Nat) (x : DieSt) : abortSlice r x = { x with sliceRun := (abortSlice r x).sliceRun } := by
  unfold abortSlice
  split <;> rfl

/-- The die once its event controller has read item `w`. -/
def itemRead (w : Word) (x : DieSt) : DieSt := { x with evSpool := { x.evSpool with readPos := x.evSpool.readPos + 1, last := w } }

/-- An item whose source a cell binds: pending, the slice aborted, REVERT started. -/
theorem dieInputEvent_bound {x : DieSt} {w : Word} {l : List Word} {r : Nat} (hitem : x.evSpool.items.drop x.evSpool.readPos = w :: l)
    (hregion : inputRegion x (w.extractLsb' 0 8).toNat = some r) (hr : r < 16) :
    dieInputEvent x = idleClock (startRevert r (abortSlice r (pendSource (w.extractLsb' 0 8).toNat (itemRead w x)))) := by
  obtain ⟨hfull, hread⟩ := spRead_of_drop hitem
  obtain ⟨hsame, -⟩ := pendSource_region hr (x := itemRead w x) hregion
  have hafter : inputRegion (pendSource (w.extractLsb' 0 8).toNat (itemRead w x)) (w.extractLsb' 0 8).toNat = some r :=
    (inputRegion_of_cells (by rw [hsame.1]; rfl) _).trans hregion
  unfold itemRead at hafter ⊢
  simp only [dieInputEvent, hread, hfull, Bool.false_eq_true, if_false, hafter, abortSlice]

/-- An empty spool delivers nothing, nor does an item of a source that no cell binds. -/
theorem dieInputEvent_unbound {x : DieSt} (h : spIsEmpty x.evSpool = true ∨
    ∃ w l, x.evSpool.items.drop x.evSpool.readPos = w :: l ∧ inputRegion x (w.extractLsb' 0 8).toNat = none) :
    dieInputEvent x = { x with evSpool := (spRead true x.evSpool).2 } := by
  rcases h with h | ⟨w, l, hitem, hregion⟩
  · simp only [dieInputEvent, h, if_true]
  · obtain ⟨hfull, hread⟩ := spRead_of_drop hitem
    have hregion' : ∀ p, inputRegion { x with evSpool := p } (w.extractLsb' 0 8).toNat = none := fun _ => hregion
    simp only [dieInputEvent, hread, hfull, Bool.false_eq_true, if_false, pendSource, hregion']

theorem dieInputEvent_taken {x : DieSt} {w : Word} {l : List Word} {r : Nat} (hitem : x.evSpool.items.drop x.evSpool.readPos = w :: l)
    (hregion : inputRegion x (w.extractLsb' 0 8).toNat = some r) (hsrc : (w.extractLsb' 0 8).toNat < 192) (hr : r < 16) :
    EventTaken r (w.extractLsb' 0 8).toNat x (dieInputEvent x) := by
  rw [dieInputEvent_bound hitem hregion hr]
  generalize (w.extractLsb' 0 8).toNat = src at *
  obtain ⟨hsame, hcounts⟩ := pendSource_region hr (x := itemRead w x) hregion
  generalize pendSource src (itemRead w x) = x2 at hsame hcounts ⊢
  have hslice := abortSlice_only r x2
  generalize abortSlice r x2 = x3 at hslice ⊢
  have hregs : ∀ q, reg x3 q = reg x2 q := reg_of_regions (by rw [hslice])
  obtain ⟨hothers, hstarts⟩ := startRevert_region hr x3
  obtain ⟨honly, -, hrun⟩ := startRevert_starts hr x3
  have hreg3 : reg x3 r = { reg x r with pend := setBitOf (reg x r).pend src true, pmc := (reg x2 r).pmc, posted := (reg x2 r).posted } := by
    rw [hregs]
    exact hcounts.1
  have hbit : bitOf (reg x3 r).pend src = true := by
    rw [hreg3]
    exact bitOf_setBitOf_true _ hsrc
  obtain ⟨hspool, hcells, hactive⟩ : x3.evSpool = (itemRead w x).evSpool ∧ x3.cells = x.cells ∧ x3.active = x.active := by
    rw [hslice, hsame.1]
    exact ⟨rfl, rfl, rfl⟩
  have hdie : RegionsAndClock x3 (idleClock (startRevert r x3)) := honly.trans (idleClock_only _)
  have hend : ∀ q, reg (idleClock (startRevert r x3)) q = reg (startRevert r x3) q := reg_of_regions (regions_idleClock _)
  refine ⟨?_, ?_, fun hentry hhalt hcycle => ?_, fun q hq => ?_, ?_⟩
  · rw [hdie]
    exact congrArg Spool.readPos hspool
  · rw [hend, hrun r]
    exact hbit
  · rw [hend]
    refine hstarts (fun h0 => ?_) ?_ ?_ ?_
    · rw [h0] at hbit
      simp [bitOf] at hbit
    · rw [hreg3]
      exact hhalt
    · rw [hreg3]
      exact hcycle
    · rw [entryPoint, codeBase, hreg3, hactive]
      exact hentry
  · rw [hend, hothers q hq, hregs, hsame.2 q hq]
    rfl
  · rw [hdie]
    exact hcells

theorem exec_inputEvent {d : Die} {s : State} (hrun : bridleRuns s = true) (hcores : s.coresOff = false) :
    exec (.inputEvent d) s = .next (onDie d dieInputEvent s) :=
  congrArg Host.Outcome.next (if_pos (by simp [hrun, hcores]))

theorem exec_inputEvent_idle {d : Die} {s : State} (h : bridleRuns s = false ∨ s.coresOff = true) : exec (.inputEvent d) s = .next s :=
  congrArg Host.Outcome.next (if_neg (by rcases h with h | h <;> simp [h]))

/-! ## The rows of the inputs -/

/-- A window end of a group: its inputs filtered, judged and read, the others as they were (07 Table 7.3). -/
theorem windowEnd_input {g k : Nat} (hk : k < 16) (samples : List InSample) (linkH linkL : Bool) (x : InSt) :
    let y := (windowEnd g samples linkH linkL x).st
    let e := inCell y (16 * g + k)
    FilterSteps (inCfg x (16 * g + k)) (samples.getD k sampleOff) (inCell x (16 * g + k)) e ∧
      e.h.read = readingOf y (16 * g + k) .h ∧ e.l.read = readingOf y (16 * g + k) .l ∧ ((linkH && linkL) = false → e.fault = true) ∧
      ∀ p, p / 16 ≠ g → inCell y p = inCell x p := by
  dsimp only
  have hfilter := filtered_step g samples x
  have hjudge := judgeFaults_step g linkH linkL (filtered g samples x).2 (filtered g samples x).1
  have hread := windowEnd_reads g samples linkH linkL x
  generalize judgeFaults g linkH linkL _ _ = c at hjudge hread
  generalize (filtered g samples x).1 = b at hfilter hjudge
  generalize (windowEnd g samples linkH linkL x).st = y at hread ⊢
  have hmem : 16 * g + k ∈ groupInputs g := mem_groupInputs.mpr (by omega)
  obtain ⟨hh, hl⟩ := hread.read hmem
  obtain ⟨hjh, hjl, hfault⟩ := hjudge.inputs k hk
  have hstep := hfilter.inputs k hk
  refine ⟨?_, hh, hl, fun h => ?_, fun p hp => ?_⟩
  · rw [hread.cells, if_pos hmem]
    unfold FilterSteps at hstep ⊢
    rw [← hjh, ← hjl] at hstep
    exact hstep
  · rw [hread.cells, if_pos hmem]
    exact hfault h
  · rw [hread.cells, if_neg (mem_groupInputs.not.mpr hp), hjudge.others p hp, hfilter.others p hp]

/-- Settles O36: a window end by its steps (`windowEnd_input`), checkers by `setChecker_takes` and `setChecker_pairs`, a fault's clearing
by `exec_inputFaultClear` with the readings taken after it, and events by `dieInputEvent_taken` and `dieInputEvent_unbound`. -/
theorem inputWindowsAndFaults : Obligations.InputWindowsAndFaults := by
  intro s d g k n j m r samples lh ll re ro half
  dsimp only
  refine ⟨fun hrun hg hk hn => ?_, fun h => ?_, fun hrun hj ht hcond hw => ?_, fun h => ⟨s, exec_discrepancyLatched_idle h, rfl⟩,
    fun hrun hj ht hc hsafe hw => ?_, fun h => ⟨s, exec_discrepancyCleared_idle h, rfl⟩, fun hrun hn hf hc hcause => ?_,
    fun h => ⟨s, exec_inputFaultClear_idle h, rfl⟩, fun hrun hcores w l hitem hregion hsrc hr => ?_, fun hrun hcores h => ?_,
    fun h => ⟨s, exec_inputEvent_idle h, rfl⟩⟩
  · -- the window end of a group
    subst hn
    refine ⟨_, congrArg Host.Outcome.next (if_neg (by simp [hrun, hg])), ?_⟩
    obtain ⟨hins, houts, hmode, hdies⟩ := takeWindow_keeps (windowEnd g samples (lh && !s.outs.stoppedH) (ll && !s.outs.stoppedL) s.ins) s
    obtain ⟨⟨hh, hl⟩, hrh, hrl, hfault, hothers⟩ :=
      windowEnd_input (g := g) hk samples (lh && !s.outs.stoppedH) (ll && !s.outs.stoppedL) s.ins
    rw [hins]
    refine ⟨hh, hl, hrh, hrl, fun h => hfault ?_, hothers, houts, hmode, hdies⟩
    rcases h with h | h | h | h <;> simp [h]
  · -- no gondola, or no such group
    exact ⟨s, congrArg Host.Outcome.next (if_pos (by simpa using h)), rfl⟩
  · -- a discrepancy latches
    obtain ⟨hself, hpairs⟩ := setChecker_pairs half j (.latched 0) s
    obtain ⟨-, houts, hmode⟩ := setChecker_takes half j (.latched 0) s
    obtain ⟨hh, hl⟩ := setChecker_latched_reads half (j := j) (n := 2 * j) 0 (by omega) (cfgPair_of_pairCond hcond)
    exact ⟨_, exec_discrepancyLatched hrun hj ht hcond hw, hself, hh, hl,
      fun hodd => setChecker_latched_reads half (j := j) 0 (by omega) hodd, hpairs, houts, hmode⟩
  · -- a discrepancy clears
    obtain ⟨hself, hpairs⟩ := setChecker_pairs half j .quiet s
    obtain ⟨-, houts, hmode⟩ := setChecker_takes half j .quiet s
    exact ⟨_, exec_discrepancyCleared hrun hj ht hc hsafe hw, hself, hpairs, houts, hmode⟩
  · -- an input fault clears
    obtain ⟨logs, hexec⟩ := exec_inputFaultClear hrun hn hf hc hcause
    refine ⟨_, hexec, ?_⟩
    obtain ⟨hins, houts, hmode, -⟩ := takeWindow_keeps (windowFrom s.ins
      (putInCell n { inCell s.ins n with fault := false, clean := 0 } s.ins) (readWith s.ins n) logs) s
    have hread := windowFrom_reads s.ins (putInCell n { inCell s.ins n with fault := false, clean := 0 } s.ins) (readWith s.ins n) logs
    rw [hins]
    have hself := mem_readWith_self s.ins n
    refine ⟨?_, (hread.read hself).1, fun p hp => ?_, houts, hmode⟩
    · rw [hread.cells, if_pos hself]
      simp only [readCell, inCell_putInCell, if_true]
    · rw [hread.cells, if_neg fun h => hp (div_two_of_mem_readWith h), inCell_putInCell, if_neg fun h => hp (by rw [h])]
  · -- an event reaches its region
    refine ⟨_, exec_inputEvent hrun hcores, ?_⟩
    dsimp only
    rw [dieOf_onDie_self]
    obtain ⟨hread, hpend, hstarts, hothers, hcells⟩ := dieInputEvent_taken hitem hregion hsrc hr
    exact ⟨hread, hpend, hstarts, hothers, hcells, rfl⟩
  · -- an event that reaches none
    refine ⟨_, exec_inputEvent hrun hcores, ?_⟩
    dsimp only
    rw [dieOf_onDie_self, dieInputEvent_unbound h]
    exact ⟨rfl, rfl, rfl⟩

end Sys2Proof.Machine
